-- ==== Sys2Proof/Word.lean ====
section
/-! DEFINITION. The words of the part and their plainest arithmetic: 32-bit registers and bytes, little-endian
(00_scope, Registers). -/

namespace Sys2Proof

/-- A register or instruction word. -/
abbrev Word := BitVec 32

/-- A byte of memory or of a frame. -/
abbrev Byte := BitVec 8

/-- A 48-bit device physical address, or a 48-bit window ID. -/
abbrev Addr := BitVec 48

/-- A 64-bit timestamp: tick count in [63:6], fine time in [5:0] (01_package_and_flow, One timebase). -/
abbrev Stamp := BitVec 64

end Sys2Proof
end

