-- ==== Sys2Proof/Syntax.lean ====
section
/-! DEFINITION. The commands of the block: one constructor of `Instr` for each row of the spec's table of operations and
events. A command carries the operands that its row's rules name, and with them the facts that only the environment can
settle (a window's count, a sweep's outcome, how many bits of a page were in error, what user logic answered). -/

namespace Sys2Proof

/-- A fabric die F0–F3 (R7). -/
abbrev Die := Fin 4
/-- A lane bundle of a die (R33). -/
abbrev Bundle := Fin 16
/-- A data lane L0–L6 of a bundle (R33). -/
abbrev DLane := Fin 7
/-- A die-local channel (R76). -/
abbrev Chan := Fin 1792
/-- A global core number; 1024 (0x400) is the Lamp (R211, R454). -/
abbrev Core := Fin 1025
/-- A Facet core. -/
abbrev Facet := Fin 1024
/-- A global cluster number, 16d + c (R207). -/
abbrev Cluster := Fin 64
/-- A Glint ID (R116). -/
abbrev Gid := Fin 64
/-- A domain number (15_power, Domain numbers). -/
abbrev Dom := Fin 48
/-- A near stack M0–M3. -/
abbrev Stack := Fin 4
/-- A far half. -/
abbrev Half := Fin 2

/-- A data lane of the package, Fd.Bbb.Ln (R7). -/
structure LaneId where
  die : Die
  bundle : Bundle
  lane : DLane
  deriving DecidableEq, Repr

/-- The requester classes (R184). -/
inductive Cls where
  | host | lamp | facet | fabric | dma | debug | cfg
  deriving DecidableEq, Repr

/-- Who makes an access: its class (R184), its requester number (R7), and the Glint of a speculative item (R228). -/
structure Req where
  cls : Cls
  rnum : BitVec 8
  spec : Option Gid := none
  deriving DecidableEq, Repr

/-- What a detector finds when a request reads storage (R159, R164): bit errors of a near page's codeword (and, beyond
what the code is sure to detect, whether it did), the page and mark that its tag decodes to, or a far word's error, or the
address parity. -/
inductive MemErr where
  | nearBits (n : Nat) (detected : Bool)
  | nearTag (page : BitVec 28) (mark : BitVec 3)
  | farOne
  | farTwo
  | farParity
  deriving DecidableEq, Repr

/-- The errors that the storage shows while one request is served: the unit's address and what is found there. -/
abbrev MemErrs := List (Nat × MemErr)

/-- What a finished sweep shows (R49): for each of the 32 phases, whether it was clean. -/
abbrev SweepMap := BitVec 32

/-- The post-modify choice of a parallel move (R252). -/
inductive PostMod where
  | none | own | cross
  deriving DecidableEq, Repr

/-- A parallel move (R252): a load or a store of x(8 + r) through the slot's pointer number q. -/
structure Move where
  store : Bool
  r : Fin 8
  q : Fin 4
  pm : PostMod
  deriving DecidableEq, Repr

/-- The two move slots of a parallel instruction. -/
structure Moves where
  m0 : Option Move
  m1 : Option Move
  deriving DecidableEq, Repr

/-- The forms of the operations of R257 rows 0x01–0x0E: parallel, ALU3 and ALUI (R258). -/
inductive AluForm where
  | par (ua ub : Fin 8) (mv : Moves)
  | alu3 (xd xs xt : Fin 16)
  | alui (xd xs : Fin 16) (imm : BitVec 14)
  deriving DecidableEq, Repr

/-- The forms of SHL, SHR, ASR and CMP (R258): ALU3 and ALUI. -/
inductive ShForm where
  | alu3 (xd xs xt : Fin 16)
  | alui (xd xs : Fin 16) (imm : BitVec 14)
  deriving DecidableEq, Repr

/-- The forms of the accumulator operations 0x10–0x1D: parallel (R257) and full (R260). -/
inductive AccForm where
  | par (a : Fin 4) (ua ub : Fin 8) (mv : Moves)
  | full (a : Fin 4) (xa xb : Fin 16)
  deriving DecidableEq, Repr

/-- The address fields of an LDST instruction (R266). -/
structure LsForm where
  xr : Fin 16
  p : Fin 8
  pm : Bool
  m : Fin 8
  deriving DecidableEq, Repr

/-- Where REP takes its count (R251, R270). -/
inductive RepCount where
  | imm (n : BitVec 14)
  | reg (xs : Fin 16)
  deriving DecidableEq, Repr

/-- The mode in which a Pane RAM block is used (R310): with its check, RAW, or as a FIFO. -/
inductive PaneMode where
  | checked | raw | fifo
  deriving DecidableEq, Repr

/-- What a port shows when it reads the word that it writes (R312). -/
inductive PaneRule where
  | writeFirst | readFirst | noChange
  deriving DecidableEq, Repr

/-- The write, with its byte mask and data, that meets a read on its word (R312): none, one of the same port, one of the other
port in the same cycle of one clock, or one on another clock within 0.3 ns. -/
inductive PaneMeet where
  | none
  | same (rule : PaneRule) (mask : BitVec 4) (data : BitVec 39)
  | other (mask : BitVec 4) (data : BitVec 39)
  | clocks (mask : BitVec 4) (data : BitVec 39)
  deriving DecidableEq, Repr

/-- Port B's write that meets one of port A on its word (R312): none, on one clock in the same cycle, or on two clocks within
0.3 ns. -/
inductive PaneClash where
  | none
  | oneClock (mask : BitVec 4) (data : BitVec 39)
  | twoClocks (mask : BitVec 4) (data : BitVec 39)
  deriving DecidableEq, Repr

/-- How a command uses a Pane RAM block: at port A (false) or B, in which mode, and with how many bits of the word in error. -/
structure PaneUse where
  port : Bool
  bitErrs : Nat
  mode : PaneMode
  deriving DecidableEq, Repr

/-- A 64-byte work-item descriptor as its 16 words (R276). -/
abbrev Desc := List Word

/-- The outcome that the environment reports for an NV operation (R548). -/
inductive NvOutcome where
  | good | sourceFailed | verifyFailed | eraseFailed
  deriving DecidableEq, Repr

/-- The kinds of triggers of a live retrain (R345). -/
inductive RetrainCause where
  | wireErrors (spare : Bool) (bundle : Fin 32) (wire : Fin 128)
  | ueErrors (bundle : Fin 32)
  | clockMissed
  deriving DecidableEq, Repr

/-- What a training state's end reports (R341, R351); a failure names the direction that it lies in, false UP. -/
inductive TrainEvent where
  | clocked (upCks downCks : Bool)   -- CK passed two consecutive windows, or else CKS did, in each direction
  | clockNone (dir : Bool)           -- neither within 7.68 µs
  | assigned                   -- the spares have been assigned
  | deskewed (bad : Option Bool)
  | exchanged (word : Option Word) (dir : Bool)   -- 16 identical capability words both ways, or not within 0.5 µs
  | verified (bad : Option Bool)
  deriving DecidableEq, Repr

/-- What a sweep showed (R342): for each wire that did not pass clean throughout, its clean steps. Wires are numbered
direction × 8,192 + bundle × 128 + wire, and spares direction × 8,192 + 4,096 + number. -/
abbrev BridgeSweep := List (Nat × BitVec 64)

/-- A flit at a bridge receiver (R339): which network words were in error. -/
inductive FlitFinding where
  | clean
  | corrected (spare : Bool) (bundle : Fin 32) (wire : Fin 128)
  | uncorrectable (bundle : Fin 32)
  deriving DecidableEq, Repr

/-- Where a flit word's error lies, for a router (R359). -/
inductive FlitError where
  | none
  | oneBit
  | fatalWord          -- REQ, SNP, a DAT sideband, or RSP bits [63:0]
  | rspData            -- RSP bits [95:64]
  | datData            -- a DAT data word
  deriving DecidableEq, Repr

/-- The router that forwards a flit: a die's mesh router port (0–287) or a spine port (0–63) (R592 kinds 8 and 9). -/
inductive RouterPort where
  | mesh (die : Die) (port : Fin 288)
  | spine (port : Fin 64)
  deriving DecidableEq, Repr

/-- A flit of the on-chip network with its packet's header (R358, R360–R362): the network (0 REQ, 1 RSP, 2 DAT, 3 SNP); `op`
is REQ's or SNP's operation or RSP's status; `response` is DAT's class; `stream` tells a stream write's DAT flit, whose tag is
its stream number; `last` the packet's last flit; `flow` the number of the guaranteed flow that it belongs to. -/
structure Flit where
  net : Fin 4
  dst : BitVec 12
  src : BitVec 12
  op : BitVec 4 := 0
  epoch : Bool := false
  gt : Bool := false
  leg : Bool := false
  tag : BitVec 10 := 0
  cls : Cls := .host
  spec : Option Gid := none
  len : BitVec 11 := 0
  mflit : Bool := false
  addr : Addr := 0
  rnum : BitVec 8 := 0
  withData : Bool := false
  rdata : Word := 0
  response : Bool := false
  stream : Bool := false
  last : Bool := true
  poison : Bool := false
  flow : Nat := 0
  deriving DecidableEq, Repr

/-- Bits of a stored frame that have changed by themselves since they were last read: 0–8,191 the payload's, 8,192–8,207 the
code's (R458, R481). -/
structure FrameUpset where
  die : Die
  index : Nat
  bits : List (Fin 8208)
  deriving DecidableEq, Repr

/-- What the host has written to configuration space (R541) beside Bus Master Enable: Memory Space Enable, the bases of the two
memory BARs, the maximum payload size (128 bytes shifted left, at most twice), and MSI-X Enable and Function Mask. -/
structure HostConf where
  memSpace : Bool := false
  bar0 : BitVec 6 := 0
  bar2 : BitVec 28 := 0
  payload : Fin 3 := 0
  msixEnable : Bool := false
  msixMask : Bool := false
  deriving DecidableEq, Repr

/-- What the host writes to configuration space: Bus Master Enable and the rest. -/
structure LinkConf extends HostConf where
  bme : Bool := false
  deriving DecidableEq, Repr

/-- The exit rule a lane's environment shows true (R50): evidence that the part itself cannot derive from State. -/
structure LaneEvidence where
  commaLock : Option (Fin 20) := none   -- three commas at this offset since entry, no error between them
  commaMoved : Bool := false            -- three consecutive commas at one other offset
  clean : Bool := false                 -- 64 consecutive clean groups at the held offset since entry
  errAny : Bool := false                -- an error at the held offset since entry
  errs256 : Nat := 0                    -- most errors in any 256 consecutive groups since entry
  deriving DecidableEq, Repr

/-- The commands. -/
inductive Instr where
  -- registers
  | registerWrite (r : Req) (off : BitVec 26) (v : Word) (hi : Option Word)
  -- rails, start-up and reset
  | vauxPowerGood (strap : BitVec 4) (refsel : BitVec 2) (fL : Nat)
  | vinMainPowerGood
  | glowTrusted
  | hubPhaseEnd (vioDdr nvReadable : Bool)
  | firmwareLoaded (nvReadable : Bool)
  | resetN
  | resetNRelease (strap : BitVec 4) (refsel : BitVec 2)
  | perstN
  | perstNDeassert
  | flr
  | d3hotEntry
  | d0Return
  | vauxLoss
  | vinMainLoss
  | vioDdrLoss
  | vioGpioLoss (bank : Fin 2)
  | vioGpioReturn (bank : Fin 2)
  | vbatLoss
  -- timebase and clocks
  | syncEdge
  | syncLoad
  | arm (r : Req)
  | timebaseCancel (r : Req)
  | clkTbWrite (r : Req) (v : Word)
  | timebaseStart
  | checkWindow (glowCount : Nat) (monitorPassed : Bool)
  | monitorWindow (count : Nat) (refPer2e20 : Nat) (glowMean64 : Nat)
  | decisionWindow (glowCount64 : Nat)
  | coarseCheck (count : Nat)
  | pllHoldover
  | failoverRestart
  | revert (r : Req)
  | lanternRearm (r : Req)
  | heldRestart
  | darkEntry
  | muxSwitchRequest (r : Req) (target src : BitVec 8)
  | muxSwitchDone (target : BitVec 8)
  | clkMuxForce (r : Req) (target : BitVec 8)
  | clkOutWrite (r : Req) (v : Word)
  -- lanes
  | clockWindow (die : Die) (bundle : Bundle) (count : Nat)
  | lsmTransition (l : LaneId) (ev : LaneEvidence)
  | lsmTimeout (l : LaneId) (ev : LaneEvidence)
  | sweepDone (l : LaneId) (clean : SweepMap)
  | laneBctrlWrite (r : Req) (die : Die) (bundle : Bundle) (v : Word)
  | flip (r : Req) (die : Die)
  | laneEqOvrWrite (r : Req) (l : LaneId) (v : Word)
  | frameReceive (l : LaneId) (start : BitVec 20) (rest : List (BitVec 20))
  | anchorSequence (l : LaneId) (words : List (BitVec 20)) (ts : Stamp)
  | rawRingWrite (die : Die) (allowance : Nat)
  | hitRingWrite (die : Die) (allowance : Nat)
  -- channel front end
  | rateWindowEnd (die : Die) (ch : Chan)
  | baselineCheck (die : Die) (ch : Chan)
  | cfeFmtWrite (r : Req) (die : Die) (fmt : Fin 64) (word : Fin 2) (v : Word)
  | cfeLaneCfgWrite (r : Req) (l : LaneId) (v : Word)
  | channelEnable (r : Req) (die : Die) (ch : Chan) (en : Bool)
  | resetLoops (r : Req) (die : Die) (ch : Chan)
  -- windows
  | wsuSort (die : Die) (bundle : Bundle)
  | windowClose (die : Die)
  | perDieSummaryArrive (die : Die)
  | packageSummaryEmit
  | mergeDeadline
  | windowsStart (r : Req) (v : Word)
  | windowsStop (r : Req) (v : Word)
  -- Glint
  | issue (src : Option Die) (r : Req) (wid : Addr) (countM1 : BitVec 4)
  | accept (src : Option Die) (r : Req) (wid : Addr) (countM1 : BitVec 4) (type : BitVec 8)
  | confirm (src : Option Die) (r : Req) (handle : BitVec 16) (type : BitVec 8)
  | cancel (src : Option Die) (r : Req) (handle : BitVec 16)
  | glintDeadline (g : Gid)
  | glintItemPost (die : Die) (g : Gid)
  | glintCopy (g : Gid) (errs : MemErrs)
  | publishStart (g : Gid)
  | eventPublish (g : Gid)
  | releaseDone (g : Gid)
  | acceptOutput
  | acceptFrameSend (die : Die) (bundle : Bundle)
  | gltDeadlineWrite (r : Req) (v : Word)
  -- deep buffer manager
  | dbmRegionWrite (r : Req) (entry : Fin 32) (word : Fin 4) (v : Word)
  | dbmRawWrite (r : Req) (die : Die) (hit : Bool) (v : Word)
  | evtRelease (r : Req) (v : Word)
  | bufferRead (r : Req) (addr : Addr) (len : Nat) (errs : MemErrs)
  | bufferWrite (r : Req) (addr : Addr) (bytes : List Byte) (errs : MemErrs)
  | sidebandClearDone (stack : Stack)
  | fill (lamp : Bool) (base : Addr) (len : BitVec 64) (pattern : Word)
  | scrubRange (lamp : Bool) (base : Addr) (len : BitVec 64) (errs : MemErrs)
  | repair (lamp : Bool) (addr : Addr)
  -- sealed regions
  | sealedRead (r : Req) (block : Addr) (errs : MemErrs) (changed : List (Nat × Byte))
  | fullBlockWrite (r : Req) (block : Addr) (bytes : List Byte)
  | partialWrite (r : Req) (addr : Addr) (bytes : List Byte) (errs : MemErrs) (changed : List (Nat × Byte))
  | recordWriteback
  | alarmClear (r : Req)
  | generate (r : Req) (key : Fin 16)
  | flush (r : Req) (mask : BitVec 16)
  | flushDone
  | keyRetire (lamp : Bool) (keyId : Word)
  | sealEntryWrite (r : Req) (entry : Fin 16) (v : Word)
  | rightsWrite (r : Req) (entry : Fin 16) (v : Word)
  -- scheduler and cores
  | itemDispatch (core : Facet) (list : Fin 64)
  | itemStart (core : Facet)
  | itemEnd (core : Facet)
  | budgetTimeout (core : Facet)
  | holdQueueRelease (die : Die) (ring : Fin 16) (writeFails : Bool)
  | cringConsWrite (r : Req) (die : Die) (ring : Fin 16) (v : Word)
  | schPost (r : Req) (die : Die) (list : Fin 64) (desc : Desc) (aligned : Bool)
  | schpDescriptor (die : Die) (list : Fin 64) (desc : Desc)
  | remoteLoadResponse (core : Core) (errs : MemErrs) (poisoned : Bool)
  | storeAck (core : Core) (k : Fin 8) (errs : MemErrs) (poisoned : Bool)
  | dmaTransferDone (core : Core) (errs : MemErrs)
  | snoopInvalidate (cl : Cluster) (line : Addr)
  | cacheInvalidate (r : Req) (cl : Cluster)
  | park (r : Req) (cl : Cluster) (park : Bool)
  | loaderGo (r : Req) (cl : Cluster) (mask : BitVec 16)
  | loaderDone (cl : Cluster) (errs : MemErrs)
  | lampInterrupt
  | lampTimer
  | watchdogEnable (r : Req) (v : Word)
  | watchdogKick (r : Req) (v : Word)
  | watchdogExpiry
  -- Facet instructions: parallel and ALU
  | nop (c : Core) (mv : Moves)
  | add (c : Core) (f : AluForm)
  | sub (c : Core) (f : AluForm)
  | adds (c : Core) (f : AluForm)
  | subs (c : Core) (f : AluForm)
  | add2 (c : Core) (f : AluForm)
  | sub2 (c : Core) (f : AluForm)
  | add2s (c : Core) (f : AluForm)
  | and (c : Core) (f : AluForm)
  | or (c : Core) (f : AluForm)
  | xor (c : Core) (f : AluForm)
  | mov (c : Core) (f : AluForm)
  | abs (c : Core) (f : AluForm)
  | max (c : Core) (f : AluForm)
  | min (c : Core) (f : AluForm)
  | clr (c : Core) (f : AccForm)
  | mul (c : Core) (f : AccForm)
  | mac (c : Core) (f : AccForm)
  | msu (c : Core) (f : AccForm)
  | mac2 (c : Core) (f : AccForm)
  | msu2 (c : Core) (f : AccForm)
  | macl (c : Core) (f : AccForm)
  | msul (c : Core) (f : AccForm)
  | exth (c : Core) (f : AccForm)
  | extw (c : Core) (f : AccForm)
  | exts (c : Core) (xd : Fin 16) (a : Fin 4) (k : BitVec 7)
  | pkn (c : Core) (f : AccForm)
  | pknx (c : Core) (f : AccForm)
  | maxi (c : Core) (f : AccForm)
  | mini (c : Core) (f : AccForm)
  | shl (c : Core) (f : ShForm)
  | shr (c : Core) (f : ShForm)
  | asr (c : Core) (f : ShForm)
  | cmp (c : Core) (f : ShForm)
  | norm (c : Core) (xd xs : Fin 16)
  | expn (c : Core) (xd xs : Fin 16)
  | mulw (c : Core) (xd xs xt : Fin 16)
  | movi (c : Core) (h : Bool) (xd : Fin 16) (imm : BitVec 16)
  -- moves, pointers, accumulators
  | ldW (c : Core) (f : LsForm)
  | ldH (c : Core) (f : LsForm)
  | ldHu (c : Core) (f : LsForm)
  | ldB (c : Core) (f : LsForm)
  | ldBu (c : Core) (f : LsForm)
  | stW (c : Core) (f : LsForm)
  | stH (c : Core) (f : LsForm)
  | stB (c : Core) (f : LsForm)
  | movp (c : Core) (p : Fin 8) (imm : BitVec 18)
  | movm (c : Core) (m : Fin 8) (imm : BitVec 18)
  | addp (c : Core) (p m : Fin 8)
  | mtp (c : Core) (p : Fin 8) (x : Fin 16)
  | mfp (c : Core) (p : Fin 8) (x : Fin 16)
  | mtm (c : Core) (m : Fin 8) (x : Fin 16)
  | mfm (c : Core) (m : Fin 8) (x : Fin 16)
  | mfal (c : Core) (xd : Fin 16) (a : Fin 4)
  | mfah (c : Core) (xd : Fin 16) (a : Fin 4)
  | mfag (c : Core) (xd : Fin 16) (a : Fin 4)
  | mtal (c : Core) (a : Fin 4) (xs : Fin 16)
  | mtah (c : Core) (a : Fin 4) (xs : Fin 16)
  | mtag (c : Core) (a : Fin 4) (xs : Fin 16)
  | ash (c : Core) (a : Fin 4) (k : BitVec 7)
  | adda (c : Core) (a b : Fin 4)
  | suba (c : Core) (a b : Fin 4)
  | mova (c : Core) (a b : Fin 4)
  | nega (c : Core) (a b : Fin 4)
  | expa (c : Core) (xd : Fin 16) (a : Fin 4)
  -- flow and system
  | br (c : Core) (cond : BitVec 4) (disp : BitVec 23)
  | call (c : Core) (disp : BitVec 23)
  | rep (c : Core) (count : RepCount) (e : BitVec 12)
  | sysNop (c : Core)
  | end_ (c : Core)
  | fence (c : Core)
  | break_ (c : Core)
  | jr (c : Core) (xs : Fin 16)
  | mfc (c : Core) (xd : Fin 16) (cr : BitVec 6)
  | mtc (c : Core) (cr : BitVec 6) (xs : Fin 16)
  | rete (c : Core)
  | wfi (c : Core)
  | ien (c : Core)
  | idis (c : Core)
  | lr (c : Core) (xd : Fin 16) (p : Fin 8)
  | sc (c : Core) (xd xs : Fin 16) (p : Fin 8)
  -- mailboxes and locks
  | mbxData (r : Req) (n : Fin 128) (w : Word)
  | mbxLast (r : Req) (n : Fin 128) (w : Word)
  | mbxRx (r : Req) (n : Fin 128) (quiet : Bool)
  | mbxAck (r : Req) (n : Fin 128) (code : BitVec 16)
  | mbxAckrd (r : Req) (n : Fin 128) (quiet : Bool)
  | lockRead (r : Req) (n : Fin 256) (quiet : Bool)
  | lockRelease (r : Req) (n : Fin 256) (v : Word)
  | graceExpiry (n : Fin 256)
  -- fabric
  | clkFpllWrite (r : Req) (die : Die) (pll : Fin 4) (word : Fin 3) (v : Word)
  | pllLock (die : Die) (pll : Fin 4)
  | clkGcSelWrite (r : Req) (die : Die) (gc : Fin 30) (v : Word)
  | clkPortSelWrite (r : Req) (die : Die) (group : Fin 6) (v : Word)
  | ltxFrame (die : Die) (bundle : Bundle) (lane : DLane) (payload : List Byte) (sofInside : Bool)
  | regpAccess (r : Req) (die : Die) (addr : BitVec 23) (write : Bool) (data : Word) (answer : Option (Word × Bool))
  | regpTimeout (die : Die)
  | netpRequest (die : Die) (port : Fin 4) (write : Bool) (addr : Addr) (len : Nat) (tag : BitVec 6)
      (bytes : List Byte) (mask : BitVec 64) (errs : MemErrs)
  | paneRead (die : Die) (block : Fin 1920) (word : Fin 2048) (use : PaneUse) (meet : PaneMeet)
  | paneWrite (die : Die) (block : Fin 1920) (word : Fin 2048) (mask : BitVec 4) (data : BitVec 39) (use : PaneUse)
      (clash : PaneClash)
  -- bridges
  | bridgeTraining (die : Die)
  | bridgeSweepDone (die : Die) (sweep : BridgeSweep)
  | trainingStateExit (die : Die) (ev : TrainEvent)
  | flitReceive (die : Die) (dir : Bool) (f : FlitFinding)
  | retrainTrigger (die : Die) (dir : Bool) (cause : RetrainCause)
  | reqRetrain (r : Req) (die : Die) (v : Word)
  | retrainDone (die : Die) (ok : Bool) (sweep : BridgeSweep) (durationNs : Nat)
  | suspectExpiry (die : Die) (dir : Bool) (bundle : Fin 32) (wire : Fin 128)
  -- network
  | flitForward (rp : RouterPort) (flit : Option Flit) (place : Nat) (err : FlitError)
  | nocFlip (r : Req)
  | shadeComputed
  | epochMark (die : Die)
  | oldEpochDrained
  | fencedRequest (dom : Dom) (posted : Bool)
  | rspTimeout (at_ : Option Die) (addr : Addr)
  | snoopResend (cl : Cluster) (line : Addr)
  -- power
  | avsStep (dom : Dom) (slackPs : Int) (fMHz : Nat)
  | profileSet (lamp : Bool) (profile : Word)
  | shedCheck (vinMw vauxMw : Nat) (settled : Bool)
  | pmgLimitWrite (r : Req) (v : Word)
  | sensorSample (sensor : Fin 96) (reading : Option Int)
  | overcurrent (dom : Dom)
  | eclipseFence (dom : Dom) (wholeDie : Bool) (cause : BitVec 3)
  | drainEnd (dom : Dom) (owed : Nat) (forced : Bool) (ns : Nat)
  | eclipsePowerOff (dom : Dom)
  | domainPowerOff (r : Req) (dom : BitVec 6)
  | domainPowerOn (r : Req) (dom : BitVec 6)
  | domainPowerOnDone (dom : Dom)
  | domainReset (r : Req) (dom : BitVec 6)
  | dieReset (r : Req) (die : Die)
  | coreReset (r : Req) (core : BitVec 11)
  | spineLockLoss (die : Die)
  | dieEclipse (lamp : Bool) (die : Word)
  | dieRestore (lamp : Bool) (die : Word)
  | restoreComplete (die : Die) (copyOk : Bool)
  -- configuration
  | loadImage (lamp : Bool) (slot : Word) (nvOk : Bool)
  | loadPartial (lamp : Bool) (slot region : Word) (nvOk : Bool)
  | imageApply
  | partialApply
  | nvProgram (lamp : Bool) (target : Word) (src : Addr) (len : Word) (errs : MemErrs) (res : NvOutcome)
  | nvErase (lamp : Bool) (target : Word) (res : NvOutcome)
  | streamTimeout
  | mirrorPass (upsets : List FrameUpset) (micros : Nat)
  | bbramCommit (r : Req)
  | bbramZeroise (r : Req)
  | cfgFwDataRead (r : Req) (quiet : Bool)
  -- faults and counters
  | faultQueueDrain
  | fltLogConsWrite (r : Req) (v : Word)
  | nmeClear (r : Req) (v : Word)
  | injectOneShot (r : Req)
  | injectContinuous (r : Req)
  | counterClear (r : Req) (off : BitVec 26) (v : Word)
  | inexactClear (r : Req) (off : BitVec 26) (v : Word)
  -- debug and test
  | dbgLevelLower (r : Req) (v : Word)
  | unlockReq (r : Req) (target : BitVec 2)
  | unlockCheck (r : Req)
  | challengeExpiry
  | lockoutExpiry
  | dbgWinRead (r : Req) (errs : MemErrs)
  | dbgWinWrite (r : Req) (v : Word) (errs : MemErrs)
  | coreHalt (r : Req) (core : Core)
  | coreResume (r : Req) (core : Core)
  | coreStep (r : Req) (core : Core)
  | groupHalt (r : Req) (g : Fin 16)
  | groupResume (r : Req) (g : Fin 16)
  | regAccess (r : Req) (core : Core) (v : Word)
  | memAccess (r : Req) (core : Core) (write : Option Word)
  | dbgLckForce (r : Req) (n : BitVec 8)
  | vtTxWrite (core : Core) (b : Byte)
  | vtTxRead (r : Req) (core : Core) (live : Bool)
  | vtRxWrite (r : Req) (core : Core) (b : Byte)
  | vtRxRead (core : Core)
  | drCapture (r : Req)
  | drWrite
  | testLogicReset
  | bypass
  | idcode
  | samplePreload
  | extest
  | clamp
  | highz
  | extestPulse
  | extestTrain
  | dbgAccess (dr : BitVec 88) (errs : MemErrs)
  | cfgStream (w : Word)
  | fuseProg (dr : BitVec 392)
  | privateMode
  -- host interface
  | bar2Read (off : BitVec 36) (len : Nat) (errs : MemErrs)
  | bar2Write (off : BitVec 36) (bytes : List Byte) (errs : MemErrs)
  | hifWinBaseWrite (r : Req) (v : Word)
  | unknownOpcode (lamp : Bool) (op : BitVec 8)
  | darkRecordRead (lamp : Bool) (entry : Word) (dst : Addr) (errs : MemErrs)
  | commandEnd
  | ringEnable (r : Req) (ring : Fin 16) (v : Word)
  | ringDisable (r : Req) (ring : Fin 16) (v : Word)
  | ringConsWrite (r : Req) (ring : Fin 16) (v : BitVec 64)
  | msixHoldoffExpiry (ring : Fin 16)
  | msixPendingSend (v : Fin 64)
  -- GPIO
  | gpiPinWrite (r : Req) (bank : Fin 2) (pin : Fin 24) (v : Word)
  | accEnWrite (r : Req) (v : Word)
  | busyEdge (bank : Fin 2) (pin : Fin 24) (rising : Bool)
  | edgePop (r : Req)
  | markPulse (bank : Fin 2) (pin : Fin 24)
  -- the rows that stand last in the table
  | codeGroupReceive (l : LaneId) (w : BitVec 20)
  | lanternCheckTimeout
  | hubPllLock
  | farTrainingDone (half : Half) (dimms : BitVec 2) (size : BitVec 2) (mismatch : Bool)
  | linkUp (width : BitVec 4) (speed : BitVec 3) (sets : LinkConf)
  | tlpError (aerBit : BitVec 8) (corrected : Bool)
  | illegalInstruction (c : Core) (w : Word)
  deriving DecidableEq, Repr

end Sys2Proof
end

