-- ==== Sys2Proof/Decode.lean ====
section
/-! DEFINITION. What a table word spells. The manual's table of operations and events gives no row any bits: a command
reaches the block as a register access, a link transaction, a pin event or the end of a time, and never as an encoded word.
So no word spells a command. -/

namespace Sys2Proof

/-- The command that a word spells by the table's bits: none, since no row of the table has bits. -/
def decodeTableWord (_nbits _w : Nat) : Option Instr := none

end Sys2Proof
end

