-- ==== Sys2Proof/Config.lean ====
section
/-! DEFINITION. What one part fixes and the manual does not: constants with no body, so that no proof can see a value, and
the stream of free values (log entry 1). -/

namespace Sys2Proof

/-- The stream of free values of width w: a step that needs a value the manual leaves open takes the one that
`State.freeCtr` numbers (log entry 1). -/
opaque Config.freeValue (w : Nat) : Nat → BitVec w

/-- The code field of a fault record where no chapter names the cause's number (R488; log entry 6): by detector and cause. -/
opaque Config.detCode : Nat → Nat → BitVec 8

/-- The syndrome field of a fault record where no chapter gives it (R490; log entry 6): by detector, cause and datum. -/
opaque Config.syndrome : Nat → Nat → Nat → BitVec 64

/-- The fused stepping of a fabric die: B0 or not A1 (R2). -/
opaque Config.isB0 : Fin 4 → Bool

/-- The fused speed grade is 2 (R1). -/
opaque Config.grade2 : Bool

/-- The fused temperature grade is I (R1). -/
opaque Config.gradeI : Bool

/-- The bridge attachment that a die's tables name for a spine port (R366, R374). -/
opaque Config.attachment : Fin 4 → Nat → Fin 6

/-- The share of a bridge's stream and summary slots that lies at an attachment (R364, R385): by total and attachment. -/
opaque Config.streamShare : Nat → Fin 6 → Nat

/-- Frequency in Hz of the near-buffer PLL's and of the far-buffer PLL's output (R396, R405). -/
opaque Config.bufferPllHz : Fin 2 → Nat

/-- Whether a Pane RAM block has writeback = 1 (R311): by image ID, die and block. -/
opaque Config.paneWriteback : Word → Fin 4 → Nat → Bool

/-- The levels at which a Pane RAM block in FIFO mode is almost full and almost empty (R310): by image ID, die and block. -/
opaque Config.fifoMarks : Word → Fin 4 → Nat → Nat × Nat

/-- The clock region of a Pane RAM block within its quadrant, by column and row (R306, R310). -/
opaque Config.paneRegion : Nat → Fin 4 × Fin 3

/-- Whether user logic in a quadrant uses a global clock (R307, R404): by image ID, die, clock and quadrant. -/
opaque Config.clockUse : Word → Fin 4 → Nat → Fin 4 → Bool

/-- The 64-bit serial number (DBG_SERIAL, R537). -/
opaque Config.serial : BitVec 64

/-- The fabric die that a base-layer sensor lies under, where it lies under one (R413, R421). -/
opaque Config.baseSensorDie : Fin 8 → Option (Fin 4)

/-- The fused curve tables (R414, R434): word 0 or 1 of a point, by domain, point and word. -/
opaque Config.curve : Nat → Nat → Nat → Word

end Sys2Proof
end

