-- ==== Sys2Proof/Machine/CntMap.lean ====
section
/-! DEFINITION. Where the counters lie (18_errors_and_counters R508, R592): the kinds and counts of every name's leaves, and
the offsets that the packing rule gives them. -/

namespace Sys2Proof.Machine

/-- A counter name's leaves: kind and count on every die, kind and count in the hub; count 0 where it has none. -/
structure CntRow where
  dieKind : Nat := 0
  dieCount : Nat := 0
  hubKind : Nat := 0
  hubCount : Nat := 0
  deriving DecidableEq, Repr

/-- Leaves of a kind on every die only. -/
def onDie (kind count : Nat) : CntRow := { dieKind := kind, dieCount := count }

/-- Leaves of a kind in the hub only. -/
def inHub (kind count : Nat) : CntRow := { hubKind := kind, hubCount := count }

/-- R592, by block number and row. -/
def cntRowAt (b r : Nat) : CntRow :=
  match b with
  | 0 => if r < 10 then onDie 2 112 else if r = 10 then onDie 3 16 else {}
  | 1 => if r < 5 then onDie 4 1792 else if r < 9 then onDie 2 112 else if r = 9 then onDie 3 16 else {}
  | 2 =>
    if r < 4 then onDie 0 1 else if r = 4 then onDie 15 4 else if r = 5 then inHub 1 4
    else if r < 8 then inHub 0 1 else {}
  | 3 => if r < 14 then inHub 0 1 else {}
  | 4 =>
    if r < 3 then inHub 1 4 else if r < 6 then inHub 10 4 else if r < 9 then inHub 11 8
    else if r < 12 then inHub 0 1 else {}
  | 5 => if r < 5 then inHub 12 16 else {}
  | 6 => if r < 6 then onDie 5 16 else if r < 8 then inHub 0 1 else {}
  | 7 =>
    if r < 2 then onDie 6 64 else if r = 2 then inHub 1 4 else if r < 5 then onDie 7 16
    else if r = 5 then inHub 13 256 else if r = 6 then inHub 15 128 else if r < 9 then inHub 0 1 else {}
  | 8 => if r < 3 then onDie 0 1 else {}
  | 9 => if r < 5 then inHub 15 8 else if r = 5 then inHub 1 4 else {}
  | 10 =>
    if r < 2 then { dieKind := 8, dieCount := 288, hubKind := 9, hubCount := 64 } else if r = 2 then inHub 0 1
    else if r = 3 then onDie 0 1 else if r < 7 then inHub 14 48 else if r = 7 then { dieCount := 1, hubCount := 1 } else {}
  | 11 => if r < 7 then inHub 0 1 else {}
  | 12 =>
    if r < 2 then inHub 0 1 else if r = 2 then inHub 1 4 else if r = 3 then inHub 14 48
    else if r = 4 then inHub 15 96 else if r = 5 then inHub 14 48 else {}
  | 13 => if r < 2 then inHub 1 4 else if r < 4 then inHub 0 1 else if r = 4 then onDie 5 16 else {}
  | 14 => if r < 2 then inHub 15 3 else if r = 2 then inHub 0 1 else if r < 6 then inHub 1 4 else {}
  | 15 =>
    if r = 0 then inHub 15 4 else if r = 1 then inHub 0 1 else if r = 2 then inHub 15 24
    else if r = 3 then inHub 0 1 else if r = 4 then inHub 15 24
    else if r < 7 then { dieCount := 1, hubCount := 1 } else {}
  | 16 => if r = 0 then inHub 15 13 else if r < 4 then inHub 7 16 else if r < 8 then inHub 0 1 else {}
  | 17 => if r < 3 then inHub 0 1 else {}
  | _ => {}

/-- The row of name number n (R508). -/
def cntRow (n : Nat) : CntRow := cntRowAt (n / 32) (n % 32)

/-- Die leaves, or hub leaves, of every name below n. -/
def cntBelow (f : CntRow → Nat) : Nat → Nat
  | 0 => 0
  | n + 1 => cntBelow f n + f (cntRow n)

/-- Offset of a name's die leaves in every die's counters window (R508). -/
def dieOff (n : Nat) : Nat := 16 * cntBelow CntRow.dieCount n

/-- Offset of a name's hub leaves in the fault block (R508). -/
def hubOff (n : Nat) : Nat := 0x10000 + 16 * cntBelow CntRow.hubCount n

/-- The name and instance of the leaf that lies at place i of a packing. -/
def cntPlace (f : CntRow → Nat) (i : Nat) : Nat → Option (Nat × Nat)
  | 0 => none
  | n + 1 =>
    match cntPlace f i n with
    | some x => some x
    | none =>
      let lo := cntBelow f n
      if lo ≤ i ∧ i < lo + f (cntRow n) then some (n, i - lo) else none

/-- The die leaf at place i of a die's counters window. -/
def dieLeafAt (i : Nat) : Option (Nat × Nat) := cntPlace CntRow.dieCount i 576

/-- The hub leaf at place i of the fault block's hub leaves. -/
def hubLeafAt (i : Nat) : Option (Nat × Nat) := cntPlace CntRow.hubCount i 576

/-- Register offset of a leaf: at a die, or in the hub (place 4); name 1,000 stands for the violation counters. -/
def leafReg (n loc inst : Nat) : Nat :=
  if n = 1000 then 0x402000 + 16 * inst
  else if loc < 4 then 0x1280000 + 0x400000 * loc + dieOff n + 16 * inst else 0x400000 + hubOff n + 16 * inst

/-- Register offsets of a die node and of a package node. -/
def dieNodeReg (n d : Nat) : Nat := 0x13F0000 + 0x400000 * d + 16 * n
def pkgNodeReg (n : Nat) : Nat := if n = 1000 then 0x402600 else 0x408000 + 16 * n

end Sys2Proof.Machine
end

