-- ==== Sys2Proof/Machine/RegMap.lean ====
section
/-! DEFINITION. The register space of 64 MiB (22_register_map, R585–R590): which register lies at which offset, the bits of
it that software's writes store, and the values after power-up (the Cold columns of every chapter's field tables). -/

namespace Sys2Proof.Machine

/-- The blocks of R587 and R590. -/
inductive Blk where
  | hubGlobal | gpio | hif | clocks | reset | wdg | power | faults | mbxLck | noc | dbm | sre | glint | rings | debug
  | debugAon | merge | cfg | msix | dieCtrl | bundle | laneGlobal | cfe | wsu | sched | cluster | bridge | dieMesh
  | fabClk | counters | userFabric | faultsAon
  deriving DecidableEq, Repr

/-- Every register that the manual names. Words of one register, and copies of one register (per die, bundle, lane …),
share a name and differ in their index list. -/
inductive RegName where
  | hifIdcode | hifPart | hifGstat | brgHub | brgPkg
  | gpiStat | gpiCtrl | gpiIn | gpiInGb | gpiEdge | gpiPin
  | hifCmdGo | hifCmdStat | hifCmdTime | hifCmdArg | hifWinBase | hifMbxPend | hifFltIen | hifLink
  | clkStat | clkMonCtrl | clkMonRef | clkMonLan | clkMonCorr | clkLastCause | clkLastTrip | clkTb | clkTbArm
  | clkTbLoad | clkTbNow | clkPcieCtrl | clkOut | clkMuxStat | clkMuxForce | clkPres
  | rstStat | rstCause | rstBoot | rstDieReq | rstDomReq | rstCoreReq | rstMark
  | wdgCtrl | wdgT1 | wdgT2 | wdgGrace | wdgKick | wdgLeft
  | pmgCtrl | pmgStat | pmgLimit | pmgPower | pmgTempMax | pmgDomReq | pmgDomOn | pmgEclLast | pmgSensor | pmgDomPwr
  | pmgCurve
  | fltCtrl | fltStat | fltLogProd | fltLogCons | fltFirstV | fltSeq | fltNme | fltInjSel | fltInjCtrl | fltInjPat
  | fltInjAddr | fltAonRec | fltFirst | fltLast | cntVio | cntVioAll | cntVioFabSink | cntDir | cntPkgNode | cntHubLeaf
  | mbxView | mbxCfg | lckLock | lckStat | lckWait
  | nocCtrl | nocEpoch | nocInflight | nocFenced | nocFlow | nocSpineRes
  | dbmStatus | dbmRaw | dbmCopyRate | dbmEvtCtrl | dbmEvtRelease | dbmEvtFree | dbmEvtOldest | dbmEvtNewest
  | dbmScanBack | dbmMaintRate | dbmNearRes | dbmFarRes | dbmRegion | dbmScrubSum | dbmCmdDone | dbmRepair | dbmFarCfg
  | sreCtrl | sreAlarm | sreKeyCtrl | sreKeyState | sreKeyDirty | sreFlush | sreWcount | sreEntry | sreFail
  | gltCtrl | gltDeadline | gltLimit | gltLacc | gltMargin | gltTxMask | gltStatus | gltDecide | gltStgLo | gltStgHi
  | gltStgGo | gltSlot | gltTypeMap
  | ringBase | ringCtrl | ringWb | ringProd | ringCons | ringStat
  | dbgStat | dbgLevel | dbgUnlock | dbgChal | dbgResp | dbgSerial | dbgWinAddr | dbgWinData | dbgWinStat | dbgLckForce
  | dbgDrCtrl | dbgHg | dbgCoreCtrl | dbgCoreStat | dbgCoreReg | dbgCoreD | dbgMemAddr | dbgMemData | dbgVt | dbgVtSelf
  | mrgCtrl | mrgOrigin | mrgWidth | mrgPen | mrgLate | mrgWait | mrgStat | mrgLastId | mrgFirstId
  | cfgStat | cfgLast | cfgImgId | cfgKeyStat | cfgTpCtrl | cfgTpStat | cfgBbramKey | cfgBbramCtrl | cfgFwOfs | cfgFwData
  | cfgPreg | cfgPregId | mirCtrl | mirStat | mirLast | mirPassUs
  | msixTable | msixPba
  | dieId | dieStat
  | laneBctrl | laneBstat | laneRawComma | laneRawAnchor | laneState | laneEq | laneAnchorOfs | laneAnchorTs
  | laneAnchorIdx | laneEqOvr | lsmCtrl | lsmTbl | laneEqSel
  | cfeId | cfeCtrl | cfeFmt | cfeGain | cfeStep | cfeTap | cfeLaneCfg | cfePeriod | cfeTol | cfeDrift | cfeNextIdx
  | chCfg | chBclamp | chKclamp | chHyst | chRate | chLen | chTofs | chSplit | chBase | chNoise | chK | chThr | chStat
  | wsuCtrl | wsuWm | wsuOldest | wsuIdle | wsuLvl | wsuOrigin | wsuWidth | wsuPen | wsuLate | wsuGroup
  | schCtrl | schStat | schList | schCoreClass | schCringBase | schCringCtl | schCringProd | schCringCons | schCringHeld
  | schGltTmpl | schWinTmpl | schMbxTmpl | schTmplCtrl | schPost
  | cluCtrl | cluStat | cluLdSrc | cluLdCtrl | cluLdSpan | cluLdStat | cluCore
  | brgCtrl | brgStat | brgLast | brgSpare | brgWireSel | brgWireStat
  | nocDieStat | nocBrgRes
  | fpll | gcSel | portSel | spanStat | regpTimeout | fabStat
  | cntDieLeaf | cntDieNode | userFabric
  deriving DecidableEq, Repr

/-- A row of the map: the register's block, its offset at index 0, the (stride, count) of each index, the bits that a
plain write stores, the Cold value, and whether its last index runs over the two words of one value of 48 or 64 bits (R9).
-/
structure RegRow where
  blk : Blk
  base : Nat
  dims : List (Nat × Nat) := []
  rw : Nat := 0
  cold : Nat := 0
  wide : Bool := false
  deriving DecidableEq, Repr

/-- The die dimension of a die window register (R587). -/
abbrev dieDim : Nat × Nat := (0x400000, 4)

/-- Offset of a register of the die window (R590) for die 0. -/
abbrev inDie (o : Nat) : Nat := 0x1000000 + o

/-- All bits of a word stored. -/
abbrev allRw : Nat := 0xFFFFFFFF

/-- The map row of every register. -/
def RegName.row : RegName → RegRow
  | .hifIdcode => { blk := .hubGlobal, base := 0x0 }
  | .hifPart => { blk := .hubGlobal, base := 0x4 }
  | .hifGstat => { blk := .hubGlobal, base := 0x8 }
  | .brgHub => { blk := .hubGlobal, base := 0x100, dims := [(0x10, 4)] }
  | .brgPkg => { blk := .hubGlobal, base := 0x140 }
  | .gpiStat => { blk := .gpio, base := 0x1000 }
  | .gpiCtrl => { blk := .gpio, base := 0x1004, rw := 0x3F01, cold := 0x1400 }
  | .gpiIn => { blk := .gpio, base := 0x1010 }
  | .gpiInGb => { blk := .gpio, base := 0x1014 }
  | .gpiEdge => { blk := .gpio, base := 0x1020, dims := [(4, 4)] }
  | .gpiPin => { blk := .gpio, base := 0x1100, dims := [(0x60, 2), (4, 24)], rw := 0x7F }
  | .hifCmdGo => { blk := .hif, base := 0x100000 }
  | .hifCmdStat => { blk := .hif, base := 0x100004 }
  | .hifCmdTime => { blk := .hif, base := 0x100008 }
  | .hifCmdArg => { blk := .hif, base := 0x100020, dims := [(4, 7)] }
  | .hifWinBase => { blk := .hif, base := 0x100040, rw := 0x3FFFF }
  | .hifMbxPend => { blk := .hif, base := 0x100050, dims := [(4, 4)] }
  | .hifFltIen => { blk := .hif, base := 0x100060, rw := 3, cold := 2 }
  | .hifLink => { blk := .hif, base := 0x100070 }
  | .clkStat => { blk := .clocks, base := 0x200000 }
  | .clkMonCtrl => { blk := .clocks, base := 0x200004 }
  | .clkMonRef => { blk := .clocks, base := 0x200008 }
  | .clkMonLan => { blk := .clocks, base := 0x20000C }
  | .clkMonCorr => { blk := .clocks, base := 0x200010 }
  | .clkLastCause => { blk := .clocks, base := 0x200014 }
  | .clkLastTrip => { blk := .clocks, base := 0x200018, dims := [(4, 2)], wide := true }
  | .clkTb => { blk := .clocks, base := 0x200020, rw := 0xFFFF }
  | .clkTbArm => { blk := .clocks, base := 0x200024 }
  | .clkTbLoad => { blk := .clocks, base := 0x200028, dims := [(4, 2)], rw := allRw, wide := true }
  | .clkTbNow => { blk := .clocks, base := 0x200030, dims := [(4, 2)], wide := true }
  | .clkPcieCtrl => { blk := .clocks, base := 0x200040, rw := 1, cold := 1 }
  | .clkOut => { blk := .clocks, base := 0x200050, rw := 0xFFFF01FF }
  | .clkMuxStat => { blk := .clocks, base := 0x200060 }
  | .clkMuxForce => { blk := .clocks, base := 0x200064 }
  | .clkPres => { blk := .clocks, base := 0x200068 }
  | .rstStat => { blk := .reset, base := 0x200400 }
  | .rstCause => { blk := .reset, base := 0x200404 }
  | .rstBoot => { blk := .reset, base := 0x200408 }
  | .rstDieReq => { blk := .reset, base := 0x200410, rw := 0x3 }
  | .rstDomReq => { blk := .reset, base := 0x200414, rw := 0x3F }
  | .rstCoreReq => { blk := .reset, base := 0x200418, rw := 0x7FF }
  | .rstMark => { blk := .reset, base := 0x200440, dims := [(4, 6)] }
  | .wdgCtrl => { blk := .wdg, base := 0x200800, rw := 3, cold := 2 }
  | .wdgT1 => { blk := .wdg, base := 0x200804, rw := allRw, cold := 100000 }
  | .wdgT2 => { blk := .wdg, base := 0x200808, rw := allRw, cold := 10000 }
  | .wdgGrace => { blk := .wdg, base := 0x20080C, rw := allRw, cold := 1000 }
  | .wdgKick => { blk := .wdg, base := 0x200810 }
  | .wdgLeft => { blk := .wdg, base := 0x200814 }
  | .pmgCtrl => { blk := .power, base := 0x300000, rw := 0xF, cold := 0xF }
  | .pmgStat => { blk := .power, base := 0x300004 }
  | .pmgLimit => { blk := .power, base := 0x300008, rw := 0xFFFF, cold := 520 }
  | .pmgPower => { blk := .power, base := 0x30000C }
  | .pmgTempMax => { blk := .power, base := 0x300010 }
  | .pmgDomReq => { blk := .power, base := 0x300014, rw := 0x7F }
  | .pmgDomOn => { blk := .power, base := 0x300018, dims := [(4, 2)], wide := true }
  | .pmgEclLast => { blk := .power, base := 0x300020 }
  | .pmgSensor => { blk := .power, base := 0x300100, dims := [(4, 96)] }
  | .pmgDomPwr => { blk := .power, base := 0x300300, dims := [(4, 48)] }
  | .pmgCurve => { blk := .power, base := 0x301000, dims := [(0x80, 48), (8, 16), (4, 2)] }
  | .fltCtrl => { blk := .faults, base := 0x400000, rw := 0xF, cold := 0xA }
  | .fltStat => { blk := .faults, base := 0x400004 }
  | .fltLogProd => { blk := .faults, base := 0x400008 }
  | .fltLogCons => { blk := .faults, base := 0x40000C }
  | .fltFirstV => { blk := .faults, base := 0x400010, dims := [(4, 2)], wide := true }
  | .fltSeq => { blk := .faults, base := 0x400018 }
  | .fltNme => { blk := .faultsAon, base := 0x400020 }
  | .fltInjSel => { blk := .faults, base := 0x400040, rw := 0x3FFFFFF }
  | .fltInjCtrl => { blk := .faults, base := 0x400044 }
  | .fltInjPat => { blk := .faults, base := 0x400048, dims := [(4, 2)], rw := allRw, wide := true }
  | .fltInjAddr => { blk := .faults, base := 0x400050, dims := [(4, 2)], rw := allRw, wide := true }
  | .fltAonRec => { blk := .faultsAon, base := 0x400100, dims := [(0x20, 4), (4, 8)] }
  | .fltFirst => { blk := .faults, base := 0x401000, dims := [(0x40, 24), (4, 8)] }
  | .fltLast => { blk := .faults, base := 0x401020, dims := [(0x40, 24), (4, 8)] }
  | .cntVio => { blk := .faults, base := 0x402000, dims := [(0x10, 96), (4, 2)], wide := true }
  | .cntVioAll => { blk := .faults, base := 0x402600, dims := [(4, 2)], wide := true }
  | .cntVioFabSink => { blk := .faults, base := 0x402800, dims := [(0x200, 4), (0x10, 26), (4, 2)], wide := true }
  | .cntDir => { blk := .faults, base := 0x404000, dims := [(0x10, 576), (4, 4)] }
  | .cntPkgNode => { blk := .faults, base := 0x408000, dims := [(0x10, 576), (4, 2)], wide := true }
  | .cntHubLeaf => { blk := .faults, base := 0x410000, dims := [(0x10, 0xF000), (4, 2)], wide := true }
  | .mbxView => { blk := .mbxLck, base := 0x500000, dims := [(0x40, 128), (4, 7)] }
  | .mbxCfg => { blk := .mbxLck, base := 0x504000, dims := [(4, 128)] }
  | .lckLock => { blk := .mbxLck, base := 0x510000, dims := [(4, 256)] }
  | .lckStat => { blk := .mbxLck, base := 0x510400, dims := [(4, 256)] }
  | .lckWait => { blk := .mbxLck, base := 0x510800, dims := [(8, 256), (4, 2)] }
  | .nocCtrl => { blk := .noc, base := 0x600000, rw := 0xFFFF, cold := 1000 }
  | .nocEpoch => { blk := .noc, base := 0x600004 }
  | .nocInflight => { blk := .noc, base := 0x600008 }
  | .nocFenced => { blk := .noc, base := 0x600010, dims := [(4, 2)], wide := true }
  | .nocFlow => { blk := .noc, base := 0x600100, dims := [(0x200, 2), (8, 64), (4, 2)], rw := allRw }
  | .nocSpineRes => { blk := .noc, base := 0x600500, dims := [(4, 64)] }
  | .dbmStatus => { blk := .dbm, base := 0x700000 }
  | .dbmRaw => { blk := .dbm, base := 0x700040, dims := [(0x20, 4), (4, 8)] }
  | .dbmCopyRate => { blk := .dbm, base := 0x7000C0, rw := 0xFFFF }
  | .dbmEvtCtrl => { blk := .dbm, base := 0x7000C4, rw := 0xFFF, cold := 64 }
  | .dbmEvtRelease => { blk := .dbm, base := 0x7000C8 }
  | .dbmEvtFree => { blk := .dbm, base := 0x7000CC }
  | .dbmEvtOldest => { blk := .dbm, base := 0x7000D0 }
  | .dbmEvtNewest => { blk := .dbm, base := 0x7000D4 }
  | .dbmScanBack => { blk := .dbm, base := 0x7000D8, rw := 0xFFFF, cold := 100 }
  | .dbmMaintRate => { blk := .dbm, base := 0x7000DC, rw := 0xFFFF, cold := 100 }
  | .dbmNearRes => { blk := .dbm, base := 0x7000E0, dims := [(4, 4)] }
  | .dbmFarRes => { blk := .dbm, base := 0x7000F0, dims := [(4, 2)] }
  | .dbmRegion => { blk := .dbm, base := 0x700100, dims := [(0x10, 32), (4, 4)], rw := 0xFFFFFFF }
  | .dbmScrubSum => { blk := .dbm, base := 0x700300, dims := [(4, 8)] }
  | .dbmCmdDone => { blk := .dbm, base := 0x700320, dims := [(4, 2)], wide := true }
  | .dbmRepair => { blk := .dbm, base := 0x700330, dims := [(4, 4)] }
  | .dbmFarCfg => { blk := .dbm, base := 0x700340, dims := [(4, 2)] }
  | .sreCtrl => { blk := .sre, base := 0x800000, rw := 1, cold := 1 }
  | .sreAlarm => { blk := .sre, base := 0x800008 }
  | .sreKeyCtrl => { blk := .sre, base := 0x800010 }
  | .sreKeyState => { blk := .sre, base := 0x800014 }
  | .sreKeyDirty => { blk := .sre, base := 0x800018 }
  | .sreFlush => { blk := .sre, base := 0x80001C }
  | .sreWcount => { blk := .sre, base := 0x800100, dims := [(8, 16), (4, 2)], wide := true }
  | .sreEntry => { blk := .sre, base := 0x800200, dims := [(8, 16), (4, 2)], rw := 0x3FFF }
  | .sreFail => { blk := .sre, base := 0x800400, dims := [(8, 64), (4, 2)], wide := true }
  | .gltCtrl => { blk := .glint, base := 0x900000, rw := 0x7F0F, cold := 0x4004 }
  | .gltDeadline => { blk := .glint, base := 0x900004, rw := allRw, cold := 10000 }
  | .gltLimit => { blk := .glint, base := 0x900008 }
  | .gltLacc => { blk := .glint, base := 0x90000C, rw := 0xFFFF, cold := 1600 }
  | .gltMargin => { blk := .glint, base := 0x900010, rw := allRw, cold := 0x00A000A0 }
  | .gltTxMask => { blk := .glint, base := 0x900018, dims := [(4, 2)], rw := allRw, wide := true }
  | .gltStatus => { blk := .glint, base := 0x900020 }
  | .gltDecide => { blk := .glint, base := 0x900030 }
  | .gltStgLo => { blk := .glint, base := 0x900040, rw := allRw }
  | .gltStgHi => { blk := .glint, base := 0x900044, rw := 0x1FFFFFFF }
  | .gltStgGo => { blk := .glint, base := 0x900048 }
  | .gltSlot => { blk := .glint, base := 0x900100, dims := [(0x10, 64), (4, 4)] }
  | .gltTypeMap => { blk := .glint, base := 0x900800, dims := [(4, 256)], rw := 0x7F }
  | .ringBase => { blk := .rings, base := 0x901000, dims := [(0x40, 16), (4, 2)], rw := allRw, wide := true }
  | .ringCtrl => { blk := .rings, base := 0x901008, dims := [(0x40, 16)], rw := 0xFFFF01FF, cold := 0x28 }
  | .ringWb => { blk := .rings, base := 0x901010, dims := [(0x40, 16), (4, 2)], rw := allRw, wide := true }
  | .ringProd => { blk := .rings, base := 0x901018, dims := [(0x40, 16), (4, 2)], wide := true }
  | .ringCons => { blk := .rings, base := 0x901020, dims := [(0x40, 16), (4, 2)], wide := true }
  | .ringStat => { blk := .rings, base := 0x901028, dims := [(0x40, 16)] }
  | .dbgStat => { blk := .debugAon, base := 0xA00000 }
  | .dbgLevel => { blk := .debugAon, base := 0xA00004 }
  | .dbgUnlock => { blk := .debugAon, base := 0xA00008, rw := 3 }
  | .dbgChal => { blk := .debugAon, base := 0xA00010, dims := [(4, 8)] }
  | .dbgResp => { blk := .debugAon, base := 0xA00030, dims := [(4, 12)] }
  | .dbgSerial => { blk := .debug, base := 0xA00068, dims := [(4, 2)], wide := true }
  | .dbgWinAddr => { blk := .debug, base := 0xA00070, dims := [(4, 2)], rw := allRw, wide := true }
  | .dbgWinData => { blk := .debug, base := 0xA00078 }
  | .dbgWinStat => { blk := .debug, base := 0xA0007C }
  | .dbgLckForce => { blk := .debug, base := 0xA00080 }
  | .dbgDrCtrl => { blk := .debug, base := 0xA00090 }
  | .dbgHg => { blk := .debug, base := 0xA00100, dims := [(0x10, 16), (4, 2)] }
  | .dbgCoreCtrl => { blk := .debug, base := 0xA10000, dims := [(0x40, 1025)] }
  | .dbgCoreStat => { blk := .debug, base := 0xA10004, dims := [(0x40, 1025)] }
  | .dbgCoreReg => { blk := .debug, base := 0xA10008, dims := [(0x40, 1025)] }
  | .dbgCoreD => { blk := .debug, base := 0xA1000C, dims := [(0x40, 1025), (4, 3)] }
  | .dbgMemAddr => { blk := .debug, base := 0xA10018, dims := [(0x40, 1025)] }
  | .dbgMemData => { blk := .debug, base := 0xA1001C, dims := [(0x40, 1025)] }
  | .dbgVt => { blk := .debug, base := 0xA30000, dims := [(8, 1025), (4, 2)] }
  | .dbgVtSelf => { blk := .debug, base := 0xA38000, dims := [(4, 2)] }
  | .mrgCtrl => { blk := .merge, base := 0xB00000, rw := 0xF1F, cold := 0xF00 }
  | .mrgOrigin => { blk := .merge, base := 0xB00008, dims := [(4, 2)], rw := allRw, wide := true }
  | .mrgWidth => { blk := .merge, base := 0xB00010, rw := 0x7FFFFF, cold := 8192 }
  | .mrgPen => { blk := .merge, base := 0xB00014, rw := 0xFF }
  | .mrgLate => { blk := .merge, base := 0xB00018, rw := 0xFFF, cold := 64 }
  | .mrgWait => { blk := .merge, base := 0xB0001C, rw := 0xFFFF, cold := 2048 }
  | .mrgStat => { blk := .merge, base := 0xB00020 }
  | .mrgLastId => { blk := .merge, base := 0xB00028, dims := [(4, 2)], wide := true }
  | .mrgFirstId => { blk := .merge, base := 0xB00030, dims := [(4, 2)], wide := true }
  | .cfgStat => { blk := .cfg, base := 0xC00000 }
  | .cfgLast => { blk := .cfg, base := 0xC00004 }
  | .cfgImgId => { blk := .cfg, base := 0xC00008 }
  | .cfgKeyStat => { blk := .cfg, base := 0xC0000C }
  | .cfgTpCtrl => { blk := .cfg, base := 0xC00010, rw := 0xFFFFFF, cold := 100000 }
  | .cfgTpStat => { blk := .cfg, base := 0xC00014 }
  | .cfgBbramKey => { blk := .cfg, base := 0xC00020, dims := [(4, 8)] }
  | .cfgBbramCtrl => { blk := .cfg, base := 0xC00040 }
  | .cfgFwOfs => { blk := .cfg, base := 0xC00050 }
  | .cfgFwData => { blk := .cfg, base := 0xC00054 }
  | .cfgPreg => { blk := .cfg, base := 0xC00100, dims := [(8, 32), (4, 2)] }
  | .cfgPregId => { blk := .cfg, base := 0xC00300, dims := [(4, 32)] }
  | .mirCtrl => { blk := .cfg, base := 0xC00200, rw := 0xFFFF0007, cold := 0x00190001 }
  | .mirStat => { blk := .cfg, base := 0xC00204 }
  | .mirLast => { blk := .cfg, base := 0xC00208 }
  | .mirPassUs => { blk := .cfg, base := 0xC0020C }
  | .msixTable => { blk := .msix, base := 0xFE0000, dims := [(0x10, 64), (4, 4)] }
  | .msixPba => { blk := .msix, base := 0xFE1000, dims := [(4, 2)] }
  | .dieId => { blk := .dieCtrl, base := inDie 0x0, dims := [dieDim] }
  | .dieStat => { blk := .dieCtrl, base := inDie 0x4, dims := [dieDim] }
  | .laneBctrl => { blk := .bundle, base := inDie 0x10000, dims := [dieDim, (0x1000, 16)], rw := 0xFF3F7F, cold := 0x840000 }
  | .laneBstat => { blk := .bundle, base := inDie 0x10004, dims := [dieDim, (0x1000, 16)] }
  | .laneRawComma => { blk := .bundle, base := inDie 0x10008, dims := [dieDim, (0x1000, 16)], rw := 0xFFFFF, cold := 0xFA0C3 }
  | .laneRawAnchor => { blk := .bundle, base := inDie 0x1000C, dims := [dieDim, (0x1000, 16)], rw := 0xFFFFF }
  | .laneState => { blk := .bundle, base := inDie 0x10100, dims := [dieDim, (0x1000, 16), (0x40, 7)] }
  | .laneEq => { blk := .bundle, base := inDie 0x10104, dims := [dieDim, (0x1000, 16), (0x40, 7)] }
  | .laneAnchorOfs => { blk := .bundle, base := inDie 0x10108, dims := [dieDim, (0x1000, 16), (0x40, 7)], rw := 0xFFFF }
  | .laneAnchorTs =>
    { blk := .bundle, base := inDie 0x10110, dims := [dieDim, (0x1000, 16), (0x40, 7), (4, 2)], wide := true }
  | .laneAnchorIdx => { blk := .bundle, base := inDie 0x10118, dims := [dieDim, (0x1000, 16), (0x40, 7)] }
  | .laneEqOvr => { blk := .bundle, base := inDie 0x1011C, dims := [dieDim, (0x1000, 16), (0x40, 7)], rw := 0x8FFF }
  | .lsmCtrl => { blk := .laneGlobal, base := inDie 0x20000, dims := [dieDim] }
  | .lsmTbl => { blk := .laneGlobal, base := inDie 0x20100, dims := [dieDim, (0x100, 2), (0xC, 16), (4, 3)], rw := allRw }
  | .laneEqSel => { blk := .laneGlobal, base := inDie 0x20300, dims := [dieDim] }
  | .cfeId => { blk := .cfe, base := inDie 0x40000, dims := [dieDim] }
  | .cfeCtrl => { blk := .cfe, base := inDie 0x40004, dims := [dieDim], rw := 1 }
  | .cfeFmt => { blk := .cfe, base := inDie 0x40100, dims := [dieDim, (8, 64), (4, 2)], rw := allRw }
  | .cfeGain => { blk := .cfe, base := inDie 0x40400, dims := [dieDim, (0x80, 4), (4, 32)], rw := allRw }
  | .cfeStep => { blk := .cfe, base := inDie 0x40600, dims := [dieDim, (0x80, 4), (4, 32)], rw := allRw }
  | .cfeTap => { blk := .cfe, base := inDie 0x40800, dims := [dieDim, (4, 64)], rw := 0x87FF }
  | .cfeLaneCfg => { blk := .cfe, base := inDie 0x41000, dims := [dieDim, (0x20, 112)], rw := 0x3FFF }
  | .cfePeriod => { blk := .cfe, base := inDie 0x41008, dims := [dieDim, (0x20, 112), (4, 2)], rw := allRw, wide := true }
  | .cfeTol => { blk := .cfe, base := inDie 0x41010, dims := [dieDim, (0x20, 112)], rw := 0xFFFF, cold := 8 }
  | .cfeDrift => { blk := .cfe, base := inDie 0x41014, dims := [dieDim, (0x20, 112)] }
  | .cfeNextIdx => { blk := .cfe, base := inDie 0x41018, dims := [dieDim, (0x20, 112)] }
  | .chCfg => { blk := .cfe, base := inDie 0x80000, dims := [dieDim, (0x40, 1792)], rw := 0x7FF7FFFF, cold := 0x40220 }
  | .chBclamp => { blk := .cfe, base := inDie 0x80004, dims := [dieDim, (0x40, 1792)], rw := allRw, cold := 0xFFFF0000 }
  | .chKclamp => { blk := .cfe, base := inDie 0x80008, dims := [dieDim, (0x40, 1792)], rw := allRw, cold := 0xFFFF1000 }
  | .chHyst => { blk := .cfe, base := inDie 0x8000C, dims := [dieDim, (0x40, 1792)], rw := allRw, cold := 0x04040040 }
  | .chRate => { blk := .cfe, base := inDie 0x80010, dims := [dieDim, (0x40, 1792)], rw := 0x1FFFFF, cold := 0x140064 }
  | .chLen => { blk := .cfe, base := inDie 0x80014, dims := [dieDim, (0x40, 1792)], rw := allRw, cold := 0x10000100 }
  | .chTofs => { blk := .cfe, base := inDie 0x80018, dims := [dieDim, (0x40, 1792)], rw := 0xFFFF }
  | .chSplit => { blk := .cfe, base := inDie 0x8001C, dims := [dieDim, (0x40, 1792)], rw := allRw, cold := 0xFFFFFFFF }
  | .chBase => { blk := .cfe, base := inDie 0x80020, dims := [dieDim, (0x40, 1792)] }
  | .chNoise => { blk := .cfe, base := inDie 0x80024, dims := [dieDim, (0x40, 1792)] }
  | .chK => { blk := .cfe, base := inDie 0x80028, dims := [dieDim, (0x40, 1792)] }
  | .chThr => { blk := .cfe, base := inDie 0x8002C, dims := [dieDim, (0x40, 1792)] }
  | .chStat => { blk := .cfe, base := inDie 0x80030, dims := [dieDim, (0x40, 1792)] }
  | .wsuCtrl => { blk := .wsu, base := inDie 0xC0000, dims := [dieDim] }
  | .wsuWm => { blk := .wsu, base := inDie 0xC0008, dims := [dieDim, (4, 2)], wide := true }
  | .wsuOldest => { blk := .wsu, base := inDie 0xC0010, dims := [dieDim, (4, 2)], wide := true }
  | .wsuIdle => { blk := .wsu, base := inDie 0xC0018, dims := [dieDim], rw := 0xFFFF, cold := 4096 }
  | .wsuLvl => { blk := .wsu, base := inDie 0xC001C, dims := [dieDim] }
  | .wsuOrigin => { blk := .wsu, base := inDie 0xC0020, dims := [dieDim, (4, 2)], wide := true }
  | .wsuWidth => { blk := .wsu, base := inDie 0xC0028, dims := [dieDim] }
  | .wsuPen => { blk := .wsu, base := inDie 0xC002C, dims := [dieDim] }
  | .wsuLate => { blk := .wsu, base := inDie 0xC0030, dims := [dieDim] }
  | .wsuGroup => { blk := .wsu, base := inDie 0xC0800, dims := [dieDim, (4, 448)], rw := allRw }
  | .schCtrl => { blk := .sched, base := inDie 0x100000, dims := [dieDim], rw := 1 }
  | .schStat => { blk := .sched, base := inDie 0x100004, dims := [dieDim] }
  | .schList => { blk := .sched, base := inDie 0x100100, dims := [dieDim, (8, 64), (4, 2)], rw := 0xF1FFF }
  | .schCoreClass => { blk := .sched, base := inDie 0x100400, dims := [dieDim, (4, 32)], rw := allRw }
  | .schCringBase => { blk := .sched, base := inDie 0x100600, dims := [dieDim, (0x20, 16), (4, 2)], rw := allRw, wide := true }
  | .schCringCtl => { blk := .sched, base := inDie 0x100608, dims := [dieDim, (0x20, 16)], rw := 0x3F, cold := 6 }
  | .schCringProd => { blk := .sched, base := inDie 0x10060C, dims := [dieDim, (0x20, 16)] }
  | .schCringCons => { blk := .sched, base := inDie 0x100610, dims := [dieDim, (0x20, 16)] }
  | .schCringHeld => { blk := .sched, base := inDie 0x100614, dims := [dieDim, (0x20, 16)] }
  | .schGltTmpl => { blk := .sched, base := inDie 0x100800, dims := [dieDim, (4, 16)], rw := allRw }
  | .schWinTmpl => { blk := .sched, base := inDie 0x100840, dims := [dieDim, (4, 16)], rw := allRw }
  | .schMbxTmpl => { blk := .sched, base := inDie 0x100880, dims := [dieDim, (4, 16)], rw := allRw }
  | .schTmplCtrl => { blk := .sched, base := inDie 0x1008C0, dims := [dieDim], rw := 0x1FFFFF }
  | .schPost => { blk := .sched, base := inDie 0x101000, dims := [dieDim, (0x40, 64), (4, 16)] }
  | .cluCtrl => { blk := .cluster, base := inDie 0x140000, dims := [dieDim, (0x4000, 16)], rw := 3, cold := 2 }
  | .cluStat => { blk := .cluster, base := inDie 0x140004, dims := [dieDim, (0x4000, 16)] }
  | .cluLdSrc => { blk := .cluster, base := inDie 0x140010, dims := [dieDim, (0x4000, 16), (4, 2)], rw := allRw, wide := true }
  | .cluLdCtrl => { blk := .cluster, base := inDie 0x140018, dims := [dieDim, (0x4000, 16)], rw := 0xFFFF }
  | .cluLdSpan => { blk := .cluster, base := inDie 0x14001C, dims := [dieDim, (0x4000, 16)], rw := 0x1FFF0FFF }
  | .cluLdStat => { blk := .cluster, base := inDie 0x140020, dims := [dieDim, (0x4000, 16)] }
  | .cluCore => { blk := .cluster, base := inDie 0x140100, dims := [dieDim, (0x4000, 16), (0x10, 16), (4, 4)] }
  | .brgCtrl => { blk := .bridge, base := inDie 0x1C0000, dims := [dieDim], rw := 0xFDFF, cold := 0x144 }
  | .brgStat => { blk := .bridge, base := inDie 0x1C0004, dims := [dieDim] }
  | .brgLast => { blk := .bridge, base := inDie 0x1C0008, dims := [dieDim] }
  | .brgSpare => { blk := .bridge, base := inDie 0x1C0010, dims := [dieDim, (0x10, 2), (4, 4)] }
  | .brgWireSel => { blk := .bridge, base := inDie 0x1C0040, dims := [dieDim], rw := 0x7FFF }
  | .brgWireStat => { blk := .bridge, base := inDie 0x1C0044, dims := [dieDim] }
  | .nocDieStat => { blk := .dieMesh, base := inDie 0x200000, dims := [dieDim] }
  | .nocBrgRes => { blk := .dieMesh, base := inDie 0x200100, dims := [dieDim, (4, 64)] }
  | .fpll => { blk := .fabClk, base := inDie 0x240000, dims := [dieDim, (0x10, 4), (4, 3)], rw := 0x7F7F7F7F }
  | .gcSel => { blk := .fabClk, base := inDie 0x240100, dims := [dieDim, (4, 30)], rw := 0x1F }
  | .portSel => { blk := .fabClk, base := inDie 0x240200, dims := [dieDim, (4, 6)], rw := 0x3F }
  | .spanStat => { blk := .fabClk, base := inDie 0x240220, dims := [dieDim] }
  | .regpTimeout => { blk := .fabClk, base := inDie 0x240224, dims := [dieDim], rw := 0xFFFF, cold := 4096 }
  | .fabStat => { blk := .fabClk, base := inDie 0x240228, dims := [dieDim] }
  | .cntDieLeaf => { blk := .counters, base := inDie 0x280000, dims := [dieDim, (0x10, 0x17000), (4, 2)], wide := true }
  | .cntDieNode => { blk := .counters, base := inDie 0x3F0000, dims := [dieDim, (0x10, 576), (4, 2)], wide := true }
  | .userFabric => { blk := .userFabric, base := 0x2000000, dims := [(0x800000, 4), (4, 0x200000)] }

/-- Where a word belongs to a value of 48 or 64 bits, which R9 reads and writes as one: the index list of the value's low
word, and whether the word is the high one. The flags beside a 48-bit value lie in its high word. -/
def RegName.pairAt (n : RegName) (ix : List Nat) : Option (List Nat × Bool) :=
  match n, ix with
  | .dbmRaw, [d, w] => if w < 4 then none else some ([d, w / 2 * 2], w % 2 == 1)
  | .dbmScrubSum, [w] => if w = 4 ∨ w = 5 then none else some ([w / 2 * 2], w % 2 == 1)
  | .gpiEdge, [w] => if 2 ≤ w then none else some ([0], w == 1)
  | .fltFirst, [k, w] | .fltLast, [k, w] | .fltAonRec, [k, w] =>
    if w = 2 ∨ w = 3 then none else some ([k, w / 2 * 2], w % 2 == 1)
  | n, ix => if n.row.wide then some (ix.dropLast ++ [0], ix.getLastD 0 == 1) else none

end Sys2Proof.Machine
end

