-- ==== Sys2Proof/Machine/State.lean ====
section
/-! DEFINITION. The machine's state: plain data holding every piece of state that the manual gives the part, chapter by
chapter, the reasons a step can stop, and the state after reset. Registers whose content is only what software last wrote
lie in one sparse table, `State.regs`, keyed by register offset; every other register's content is a field below. -/

namespace Sys2Proof.Machine

/-- A sparse table in canonical form: keys strictly rising, and no entry equal to what an unlisted key reads as. -/
abbrev Tbl (α : Type) := List (Nat × α)

/-- The buffers' contents: (address, byte) cells over the 48-bit device address space (06_deep_buffer, R143). -/
abbrev Memory := List Host.Cell

-- 01_package_and_flow, 14_clocks: the one timebase

/-- The timebase (R17–R21, R397–R399, R409): every copy of the tick counter advances on one TBCLK edge, so one counter
stands for all of them. -/
structure Timebase where
  /-- The tick count that every copy holds (R17). -/
  tick : BitVec 58 := 0
  /-- TBCLK runs and the counters count. -/
  counting : Bool := false
  /-- CLK_STAT.tb_started (R407): the timebase has started. -/
  started : Bool := false
  /-- Armed (R18). -/
  armed : Bool := false
  /-- Edge s has occurred and the load is due at edge s + 4. -/
  edgeS : Bool := false
  /-- A SYNC load has taken place since the timebase started (R19). -/
  loaded : Bool := false
  /-- DEGRADED (R21). -/
  degraded : Bool := false
  /-- The edge count e of the microsecond strobe (R398). -/
  edge : Nat := 0
  /-- A SYNC edge came during a hold and is sampled at the restart (R392). -/
  syncDue : Bool := false
  deriving DecidableEq, Repr

-- 02_lanes

/-- What the receiver of a lane stands in (R39, R41, R42): between frames; in a frame, with what it has received of it,
newest first; in a frame that it has dropped; in an anchor sequence; or, in raw mode, discarding words until the next
comma. -/
inductive Rx where
  | idle
  | frame (words : List (BitVec 20))
  | dropped
  | anchor (ts : Stamp) (words : List (BitVec 20))
  | discard
  deriving DecidableEq, Repr

/-- One lane state machine with its receive logic (R35, R38–R42, R49–R51, R60, R64, R595), and its transmit FIFO (R40,
R323). -/
structure LaneSt where
  st : BitVec 4 := 0
  /-- The table copy that the lane uses (R57). -/
  epoch : Bool := false
  tries : BitVec 4 := 0
  phase : BitVec 5 := 0
  phaseValid : Bool := false
  offset : BitVec 5 := 0
  offsetValid : Bool := false
  /-- An anchor has been accepted since the last state 0 (R64). -/
  anchorValid : Bool := false
  /-- The anchor latch (R595). -/
  anchorLatch : Bool := false
  loopLock : Bool := false
  /-- The LOOP action has engaged the bundle's loop path (R51). -/
  looping : Bool := false
  sweeping : Bool := false
  sweepOk : Bool := false
  sweepFail : Bool := false
  rx : Rx := .idle
  /-- The receiver's running disparity (R38); true is +. -/
  rd : Bool := false
  /-- The raw word before (R42). -/
  prevWord : BitVec 20 := 0
  /-- The checker (R60): the last 31 bits, newest in bit 0, and the run of correct predictions, at most 64. -/
  checkReg : BitVec 31 := 0
  checkRun : Nat := 0
  /-- Consecutive commas at the held offset since entry with no error between them. -/
  commaRun : Nat := 0
  /-- Consecutive clean groups at the held offset since entry. -/
  cleanRun : Nat := 0
  errAny : Bool := false
  /-- Groups received at the held offset since entry. -/
  groups : Nat := 0
  /-- Numbers of the groups in error among the last 256, newest first; and the most errors in any 256 since entry. -/
  errPos : List Nat := []
  errMost : Nat := 0
  anchorTs : Stamp := 0
  anchorIdx : Word := 0
  /-- LANE_EQ_OVR [11:0] and [15] (R47). -/
  eqOvr : BitVec 16 := 0
  /-- Frames that wait whole in the transmit FIFO (R323), and symbols sent since the last K28.5 (R40). -/
  ltx : List (List Byte) := []
  sinceComma : Nat := 0
  deriving DecidableEq, Repr

/-- A bundle's clock detector (R48, R63): the last count, and whether the last window and the one before it passed; and the
register of its pattern generator (R59). -/
structure BundleSt where
  count : Byte := 0
  last : Option Bool := none
  before : Option Bool := none
  gen : BitVec 31 := 0x7FFFFFFF
  deriving DecidableEq, Repr

/-- The board table held in the hub (R45–R47): the STRAP value sampled, whether the table was valid, and its entries. -/
structure BoardTable where
  strap : BitVec 4 := 0
  valid : Bool := false
  entries : Tbl Word := []
  deriving DecidableEq, Repr

-- 03_channel_front_end

/-- A hit record (R90). -/
structure HitRec where
  ts : Stamp
  channel : BitVec 13
  amp : BitVec 16
  tot : BitVec 11
  integral : BitVec 17
  uns : Bool
  deg : Bool
  sat : Bool
  long : Bool
  pile : Bool
  pen : Bool
  late : Bool
  deriving DecidableEq, Repr

/-- The running state of a CFE lane block (R71, R73, R75, R94). -/
structure CfeLane where
  /-- The anchor held: its index A and its timestamp ats. -/
  anchor : Option (Word × Stamp) := none
  nextIdx : Word := 0
  prevSeq : Option (BitVec 16) := none
  /-- The next frame follows a gap. -/
  gap : Bool := false
  drift : BitVec 16 := 0
  /-- The lane delivers frames (R79): the last thing it brought was one. -/
  flowing : Bool := false
  deriving DecidableEq, Repr

/-- A hit under measurement on a channel (R84–R89). -/
structure Pulse where
  /-- T_h, held for the whole pulse. -/
  th : Nat
  /-- B_h, the baseline at the crossing. -/
  bh : Nat
  /-- Samples since the first crossing i: the tot of R78. -/
  tot : Nat
  /-- Start of the present hit, counted from i (0 for the first hit of the pulse). -/
  start : Nat
  peak : Nat
  sum : Int
  ts : Stamp
  uns : Bool
  deg : Bool
  sat : Bool
  pile : Bool
  /-- The valley since the last peak (R89): its value, its index from i, and the sum and rail flag before it. -/
  valley : Option (Nat × Nat × Int × Bool)
  deriving DecidableEq, Repr

/-- A hit whose pulse has ended and whose post samples are still integrated (R86). -/
structure PostHit where
  pulse : Pulse
  tot : Nat
  long : Bool
  left : Nat
  deriving DecidableEq, Repr

/-- The loop state and status of a channel (R78–R89, R95). -/
structure ChanSt where
  base : Word := 0
  noise : Word := 0x00100000
  k : BitVec 16 := 0x5000
  thr : Word := 0xFFFFFFFF
  first : Bool := false
  below : Bool := false
  holdLeft : Nat := 0
  st : BitVec 2 := 3
  dwell : Nat := 0
  /-- A baseline check since the entry into START gave SETTLED (R80). -/
  startOk : Bool := false
  bstat : BitVec 2 := 0
  kstat : BitVec 2 := 0
  bStart : Word := 0
  bCount : Nat := 0
  bClamped : Bool := false
  pend : Option (BitVec 16) := none
  prevStep : Option (BitVec 16) := none
  /-- Samples and crossings of the present rate window (R82). -/
  winCount : Nat := 0
  hits : Nat := 0
  hitsLast : BitVec 16 := 0
  /-- The last samples, newest first, at most 8 (R86). -/
  history : List Nat := []
  pulse : Option Pulse := none
  post : Option PostHit := none
  deriving DecidableEq, Repr

/-- A raw block on its way to the raw ring (R77): the lane, the first timestamp, whether it follows a gap, and its bytes. -/
structure RawBlock where
  lane : BitVec 7
  ts : Stamp
  bytes : List Byte
  deriving DecidableEq, Repr

-- 04_windows

/-- An open window of a WSU (R96, R104): its unwrapped index m, home count, copies, group counts and sums. -/
structure WinAcc where
  m : Nat
  count : Nat := 0
  copies : Nat := 0
  groups : Tbl (Nat × Nat) := []
  deg : Bool := false
  sat : Bool := false
  ovf : Bool := false
  deriving DecidableEq, Repr

/-- A close event (R108, R109). -/
structure CloseEv where
  wid : Addr
  count : BitVec 24
  empty : Bool
  forced : Bool
  deg : Bool
  ovf : Bool
  deriving DecidableEq, Repr

/-- A per-die or package summary (R105); a group that is not listed has count 0 and sum 0. -/
structure Summary where
  id : Addr
  missing : BitVec 4
  deg : Bool
  forced : Bool
  sat : Bool
  ovf : Bool
  start : Stamp
  total : Word
  groups : Tbl (Nat × Nat)
  deriving DecidableEq, Repr

/-- What a WSU sends to the Window Merge (R102, R104): a per-die summary of window m, or its end mark. -/
inductive MrgMsg where
  | summary (m : Nat) (s : Summary)
  | endMark
  deriving DecidableEq, Repr

/-- A Window Sorter Unit (R96–R111, R115). -/
structure Wsu where
  running : Bool := false
  joined : Bool := false
  wm : BitVec 58 := 0
  /-- Unwrapped index of the oldest window not yet closed. -/
  oldest : Nat := 0
  /-- Unwrapped index of the newest window to which a record or copy was sorted. -/
  newest : Nat := 0
  origin : Stamp := 0
  width : Nat := 8192
  pen : Nat := 0
  late : Nat := 64
  windows : List WinAcc := []
  /-- lane_tick of the lanes that have one (R98). -/
  laneTick : Tbl (Option (BitVec 58)) := []
  whit : List (HitRec × Addr) := []
  wlate : List (HitRec × Addr) := []
  wcls : List CloseEv := []
  wsum : List Summary := []
  /-- The beat of the front summary that WSUM sends next (R108). -/
  beat : Nat := 0
  /-- The first window of which the die sends a summary (R101, R107). -/
  joinFrom : Nat := 0
  deriving DecidableEq, Repr

/-- The Window Merge (R101–R107, R114). -/
structure Merge where
  running : Bool := false
  /-- The stop of R102 is under way: the unwrapped index of the last window to emit. -/
  stopping : Option Nat := none
  /-- sum_en and die_mask in force since the start. -/
  sum : Bool := false
  mask : BitVec 4 := 0
  /-- The parameters in force since the start: origin, W, P and L. -/
  origin : Stamp := 0
  width : Nat := 8192
  pen : Nat := 0
  late : Nat := 64
  /-- Unwrapped index of the next window to emit. -/
  next : Nat := 0
  /-- Messages on their way from each die's WSU, oldest first. -/
  inbox : Tbl (List MrgMsg) := []
  /-- Summaries that have arrived and are not yet emitted: (die, m, summary). -/
  arrived : List (Nat × Nat × Summary) := []
  endMarks : BitVec 4 := 0
  lastMissing : BitVec 4 := 0
  lastId : Addr := 0
  firstId : Addr := 0
  deriving DecidableEq, Repr

-- 05_glint

/-- A Glint slot (R116, R122–R128, R141) with its shadow space (R155–R157) and held counts (R126). -/
structure GlintSlot where
  /-- 0 FREE, 1 OPEN, 2 CONFIRMED, 3 PUBLISHING, 4 RELEASING (R127). -/
  state : BitVec 3 := 0
  gen : BitVec 10 := 0
  missing : BitVec 4 := 0
  rawLost : Bool := false
  lateAcc : Bool := false
  direct : Bool := false
  lastExpired : Bool := false
  type : Byte := 0
  wid : Addr := 0
  countM1 : BitVec 4 := 0
  /-- µs left before the deadline. -/
  remain : Nat := 0
  /-- The pin interval [pinLo, pinHi) in fine units. -/
  pinLo : Stamp := 0
  pinHi : Stamp := 0
  /-- Unwrapped index of the first window. -/
  m : Nat := 0
  /-- Ring offsets from which the copy engine scans each die's raw and hit rings (R154). -/
  scanRaw : Tbl Nat := []
  scanHit : Tbl Nat := []
  /-- GLT_TYPE_MAP's entry latched at the confirmation (R128). -/
  map : BitVec 7 := 0
  /-- Place in the order of confirmations (R128). -/
  order : Nat := 0
  tsConf : BitVec 58 := 0
  deg : Bool := false
  /-- The item window's bytes (R156). -/
  items : Memory := []
  /-- Hit records and raw blocks copied: (die, write position, contents). -/
  hits : List (Nat × Nat × HitRec) := []
  raws : List (Nat × Nat × List Byte) := []
  /-- Records (true) and blocks (false) that the copy is done with though shadow space does not hold them: they did not fit,
  could not be read, or were freed at the release: (record, die, write position). -/
  finished : List (Bool × Nat × Nat) := []
  /-- Chunks held (R155). -/
  chunks : Nat := 0
  /-- The copy waits for a free chunk (R123). -/
  waiting : Bool := false
  /-- Dies on which the issue has still to post an item (R122). -/
  postDue : BitVec 4 := 0
  /-- Work items posted for the Glint that have not ended (R127), and dies whose items were counted as ended as the die stopped
  being joined (R135). -/
  itemsOut : Nat := 0
  ended : BitVec 4 := 0
  /-- Held counts (R126): leaf key and count; those of memory-error detectors apart. -/
  held : Tbl Nat := []
  heldErr : Tbl Nat := []
  /-- Completion records held in shadow space (R125): (die, ring, eight words). -/
  completions : List (Nat × Nat × List Word) := []
  deriving DecidableEq, Repr

/-- An accept output waiting for its tick (R132, R133): due tick, Glint, last window ID, type, code and where it goes. -/
structure AcceptOut where
  due : BitVec 58
  gid : Gid
  wid : Addr
  type : Byte
  code : Byte
  pin : Bool
  tx : Bool
  slipped : Bool := false
  deriving DecidableEq, Repr

/-- The Glint unit (R116–R142) but for the registers that hold only what software wrote. -/
structure Glint where
  slots : Tbl GlintSlot := []
  deadline : Word := 10000
  clamped : Bool := false
  /-- Number of the next confirmation. -/
  nextOrder : Nat := 0
  accepts : List AcceptOut := []
  /-- Tick of the last accept output (R133). -/
  lastAccept : Option (BitVec 58) := none
  /-- Accept frames queued for L0 of each TX bundle (R131). -/
  frames : Tbl (List (List Byte)) := []
  /-- GLT_STG_WID_LO and _HI of the host's and of the Lamp's bank (R140). -/
  stgHost : Word × Word := (0, 0)
  stgLamp : Word × Word := (0, 0)
  deriving DecidableEq, Repr

-- 06_deep_buffer

/-- A region entry (R145, R177). -/
structure Region where
  base : BitVec 28 := 0
  size : BitVec 28 := 0
  type : BitVec 4 := 0
  die : BitVec 2 := 0
  tcode : BitVec 3 := 3
  disposable : Bool := false
  valid : Bool := false
  deriving DecidableEq, Repr

/-- A raw block in a raw ring: its write position, written length, the (address, length) parts where its bytes lie, lane,
sample span [ts, ts + span) and deg bit. -/
structure RingBlock where
  pos : Nat
  len : Nat
  parts : List (Nat × Nat)
  lane : BitVec 7
  ts : Stamp
  span : Nat
  deg : Bool
  deriving DecidableEq, Repr

/-- A die's raw and hit rings (R148–R154, R176). -/
structure DieRings where
  rawRate : Word := 0
  hitRate : BitVec 16 := 0
  rawPos : BitVec 64 := 0
  hitPos : BitVec 64 := 0
  /-- Blocks and records waiting in the elastic buffers, oldest first. -/
  elastic : List (RawBlock × Nat) := []
  hitElastic : List HitRec := []
  /-- The die's hold buffer (R372): raw blocks and hit records that wait for the bridge, oldest first, and the lanes whose
  next block follows one that found it full. -/
  hold : List (RawBlock × Nat) := []
  hitHold : List HitRec := []
  holdGap : BitVec 112 := 0
  /-- Lanes whose next written block follows a drop (R149). -/
  gapLanes : BitVec 112 := 0
  /-- Blocks and records that the rings hold, oldest first. -/
  blocks : List RingBlock := []
  hitLog : List (Nat × HitRec) := []
  /-- The time index (R154): write position and hub tick at which each 4 MiB began, newest first. -/
  rawIndex : List (Nat × BitVec 58) := []
  hitIndex : List (Nat × BitVec 58) := []
  /-- Bytes that the rates admit now, and what is left over of a byte (R149, R153). -/
  rawRoom : Nat := 262144
  rawRest : Nat := 0
  hitRoom : Nat := 65536
  hitRest : Nat := 0
  deriving DecidableEq, Repr

/-- A far half's population (R163, R175). -/
structure FarHalf where
  dimms : BitVec 2 := 0
  size : BitVec 2 := 0
  mismatch : Bool := false
  trained : Bool := false
  deriving DecidableEq, Repr

/-- A stack's field repairs (R169): the rows (8 KiB blocks) programmed, and how many of them are applied. -/
structure StackRepair where
  rows : List Nat := []
  applied : Nat := 0
  deriving DecidableEq, Repr

/-- A published event held in the event store (R158). -/
structure HeldEvent where
  seq : Word
  chunks : Nat
  deriving DecidableEq, Repr

/-- DBM_SCRUB_SUM (R168). -/
structure ScrubSum where
  units : Nat := 0
  bits : Nat := 0
  ue : Nat := 0
  unwr : Nat := 0
  first : Option Addr := none
  maxBits : Nat := 0
  deriving DecidableEq, Repr

/-- A near page's sideband (R159): the strength t of its code, 0 while the page is unwritten (R162), and its tag's page and
mark. -/
structure PageCode where
  t : Nat := 0
  page : BitVec 28 := 0
  mark : BitVec 3 := 0
  deriving DecidableEq, Repr

/-- A FILL (with its pattern) or a SCRUB_RANGE that runs (R166–R168): the range that is left, what the storage shows, and the
bytes that DBM_MAINT_RATE admits now, with what is left over of a byte. -/
structure RangePass where
  fill : Option Word
  next : Nat
  stop : Nat
  errs : MemErrs
  room : Nat := 0
  rest : Nat := 0
  deriving DecidableEq, Repr

/-- The deep buffer manager (R143–R177). -/
structure Dbm where
  /-- Entries 2–31; entries 0 and 1 are fixed (R145). -/
  regions : Tbl Region := []
  rings : Tbl DieRings := []
  /-- Stacks whose sidebands have been cleared since their controller came on (R162). -/
  cleared : BitVec 4 := 0
  half0 : FarHalf := {}
  half1 : FarHalf := {}
  /-- Sidebands of the near pages, by page number over the near buffer. -/
  pages : Tbl PageCode := []
  /-- Far words that have been written, by word number. -/
  farWords : Tbl Bool := []
  /-- Bits in error in storage, by unit: a near page, or 2^40 + a far word; 2^20 added marks wrong address parity. -/
  stuck : Tbl Nat := []
  events : List HeldEvent := []
  nextSeq : Word := 0
  scrub : ScrubSum := {}
  cmdDone : BitVec 64 := 0
  /-- The FILL or SCRUB_RANGE that runs. -/
  pass : Option RangePass := none
  repairs : Tbl StackRepair := []
  deriving DecidableEq, Repr

-- 07_sealed_regions

/-- A seal entry 0–14 (R178, R205); `rights` is word 1. -/
structure SealEntry where
  region : BitVec 5 := 0
  key : BitVec 4 := 0
  valid : Bool := false
  rights : BitVec 14 := 0
  deriving DecidableEq, Repr

/-- A key slot (R182, R196): state 0 EMPTY, 1 LOADED, 2 RETIRED. -/
structure KeySlot where
  state : BitVec 2 := 0
  /-- The key, which no requester reads. -/
  key : BitVec 256 := 0
  count : BitVec 64 := 0
  dirty : Bool := false
  fenced : Bool := false
  /-- Written again since the flush in progress began (R198). -/
  again : Bool := false
  deriving DecidableEq, Repr

/-- A tag page in the record cache (R183): its address, the bytes fetched from storage where they were, and the records
updated since, by place in the page. -/
structure TagPage where
  addr : Nat
  held : Option (List Byte)
  recs : Tbl (List Byte) := []
  deriving DecidableEq, Repr

/-- An entry of the condemned set (R194, R206). -/
structure FailRec where
  addr : Addr
  entry : BitVec 4
  part : Bool
  deriving DecidableEq, Repr

/-- The sealed-region engine (R178–R206). -/
structure Sre where
  entries : Tbl SealEntry := []
  keys : Tbl KeySlot := []
  /-- The record cache, the page held longest first (R183). -/
  cache : List TagPage := []
  /-- Blocks whose stored tag an injected pattern has changed, by block number (R499). -/
  injected : Tbl Bool := []
  alarm : Bool := false
  ovf : Bool := false
  regionMask : BitVec 16 := 0
  fails : List FailRec := []
  /-- Key IDs of the flush in progress (R198). -/
  flushing : BitVec 16 := 0
  deriving DecidableEq, Repr

-- 08_facet_cores, 09_facet_instructions

/-- A work item on a core (R276): its descriptor's 16 words and the list and die it came from. -/
structure Item where
  desc : List Word
  list : Fin 64
  deriving DecidableEq, Repr

/-- What a requester is answered (R173, R378, R543). -/
inductive Reply where
  | ok
  | word (w : Word)
  | data (b : List (Option Byte))
  | status (code : Nat) (handle : Nat)
  /-- To the host: EP set, data 0 (R543). -/
  | error
  /-- To the host: EP set, data 0 (R543). -/
  | poisoned
  /-- To the host: data 0xFFFF_FFFF in every word, EP clear (R543). -/
  | dark
  | partialDone (bitmap : Nat)
  deriving DecidableEq, Repr

/-- A store that a core has issued and that is not yet acknowledged (R224, R267): its device address and bytes. -/
structure PendStore where
  addr : Addr
  bytes : List Byte
  /-- The Glint of the speculative item that issued it, and that Glint's generation (R116, R228). -/
  spec : Option Gid := none
  gen : BitVec 10 := 0
  /-- The item that issued it has ended by an abort (R234). -/
  old : Bool := false
  /-- It is a store-conditional whose answer the core awaits (R267). -/
  sc : Bool := false
  /-- It has been performed, with this answer; the answer waits for these invalidations (R230). -/
  done : Option Reply := none
  due : List (Nat × Nat) := []
  deriving DecidableEq, Repr

/-- A queued DMA transfer (R211, R227). -/
structure Dma where
  loc : Word
  dev : Addr
  len : Nat
  out : Bool
  /-- The item that queued it has ended by an abort (R234). -/
  old : Bool := false
  /-- It has been performed, with this map of failures; its end waits for these invalidations (R230). -/
  done : Option Nat := none
  due : List (Nat × Nat) := []
  deriving DecidableEq, Repr

/-- A core's reservation (R267): a 64-byte line of its own memory, or of the device space. -/
inductive Resv where
  | near (line : Nat)
  | remote (line : Nat)
  deriving DecidableEq, Repr

/-- Why a debugger has halted a core (R521, R539). -/
structure CoreDbg where
  halted : Bool := false
  stopping : Bool := false
  cause : BitVec 3 := 0
  bkHalt : Bool := false
  group : BitVec 4 := 0
  groupEn : Bool := false
  /-- One instruction is to be issued before the core halts again (R518). -/
  stepping : Bool := false
  reg : Byte := 0
  wr : Bool := false
  ok : Bool := false
  d0 : Word := 0
  d1 : Word := 0
  d2 : Word := 0
  memAddr : Word := 0
  deriving DecidableEq, Repr

/-- A core's clock and its pipeline's interlocks (R214–R216, R236, R273–R275), in cycles of the core counted from reset. -/
structure CoreTime where
  /-- The cycle up to which cyc and the budget have been counted. -/
  clock : Nat := 0
  /-- The running item's first instruction has issued (R236). -/
  started : Bool := false
  /-- The cycle in which the last instruction issued. -/
  issued : Nat := 0
  /-- By x register: the first cycle in which it may issue as store data, and as an address-stage operand. -/
  storeFrom : Tbl Nat := []
  addrFrom : Tbl Nat := []
  /-- The first cycle in which a branch on the integer flags, and on the accumulator flags, may issue. -/
  flagsFrom : Nat := 0
  accFlagsFrom : Nat := 0
  /-- By accumulator: the first cycle of a multiplying instruction into it, and of another read; and the code of the
  instruction that wrote it last. -/
  intoFrom : Tbl Nat := []
  readFrom : Tbl Nat := []
  writer : Tbl Nat := []
  /-- The first cycle in which the multiplier is free. -/
  mulFrom : Nat := 0
  /-- Merged words of narrow stores still to be written: cycle and bank (R215). -/
  merges : List (Nat × Nat) := []
  /-- Rows that the active transfer has still to move, and the cycles that its next row has waited (R216). -/
  rows : Nat := 0
  waited : Nat := 0
  deriving DecidableEq, Repr

/-- A core of the Facet family (R209–R211, R224–R236, R249): global core 0–1,023, or the Lamp (1,024) with its further
registers (R240–R243). Pointers, modifiers, loop bounds and PC are kept in 32 bits; on a Facet they are 18 or 14 wide. -/
structure CoreSt where
  x : Vector Word 16 := Vector.replicate 16 0
  a : Vector (BitVec 80) 4 := Vector.replicate 4 0
  p : Vector Word 8 := Vector.replicate 8 0
  m : Vector Word 8 := Vector.replicate 8 0
  lc : Vector Word 4 := Vector.replicate 4 0
  ls : Vector Word 4 := Vector.replicate 4 0
  le : Vector Word 4 := Vector.replicate 4 0
  st : BitVec 16 := 0x0900
  fl : BitVec 16 := 0
  pc : Word := 0
  rbase : Word := 0
  tbase : Word := 0
  bleft : Word := 0
  cyc : Word := 0
  dla : Word := 0
  ddaLo : Word := 0
  ddaHi : Word := 0
  dblocked : Bool := false
  dpart : Bool := false
  dbitmap : BitVec 16 := 0
  dmas : List Dma := []
  item : Option Item := none
  prefetch : Option Item := none
  /-- The instruction that waits for its window data or its SC's answer (WAIT). -/
  wait : Option Instr := none
  /-- Window moves of the waiting instruction that are over, slot 0 first, and the words that its loads have brought. -/
  passed : Nat := 0
  got : List Word := []
  /-- What the waiting instruction's DMEM moves, performed in its first cycle (R214), have read, and the word that its DMEM
  store replaced, with that word's errors. -/
  near : List Word := []
  undo : Option (Nat × Word × Nat) := none
  /-- END has issued and the item drains (R235). -/
  ending : Bool := false
  /-- FENCE waits for the acknowledgements (R271). -/
  fencing : Bool := false
  storeErr : Bool := false
  specBlocked : Bool := false
  stores : List PendStore := []
  resv : Option Resv := none
  lastExc : BitVec 12 := 0
  lastAddr : BitVec 18 := 0
  /-- DMEM, or the Lamp's SRAM, by word number; and IMEM. -/
  dmem : Tbl Word := []
  imem : Tbl Word := []
  /-- Bits in error in stored words (R235): 2 or more are uncorrectable until the word is rewritten whole; 64 added marks
  an injected pattern. -/
  badD : Tbl Nat := []
  badI : Tbl Nat := []
  -- the Lamp's own
  vbase : Word := 0
  epc : Word := 0
  est : BitVec 16 := 0
  ecause : Word := 0
  eaddr : Word := 0
  imask : Word := 0
  ipend : Word := 0
  dwin : BitVec 18 := 0
  tcmp : Word := 0
  /-- Loop levels suspended by the exceptions and interrupts not yet returned from, newest first (R243). -/
  suspended : List Nat := []
  /-- WFI has stopped issue. -/
  wfi : Bool := false
  nmiPend : Bool := false
  time : CoreTime := {}
  dbg : CoreDbg := {}
  deriving DecidableEq, Repr

/-- A cluster (R229–R239, R248): its cached lines (newest first), loader and invalidation. -/
structure ClusterSt where
  lines : List Nat := []
  /-- An invalidation runs (R231). -/
  invBusy : Bool := false
  ldBusy : Bool := false
  /-- The loader's latched source, span and cores, and the class it reads in (R238). -/
  ldCls : Cls := .lamp
  ldSrc : Addr := 0
  ldSpan : Word := 0
  ldMask : BitVec 16 := 0
  doneOk : Bool := false
  failed : Bool := false
  failMap : BitVec 4 := 0
  deriving DecidableEq, Repr

/-- The Lamp watchdog's running state (R245, R250) and whether the Lamp core is held in reset (R437). -/
structure Watchdog where
  stage : Bool := false
  left : Word := 0
  lampReset : Bool := true
  deriving DecidableEq, Repr

-- 10_scheduler_and_mailboxes

/-- A completion ring (R286): counts, the records waiting in its hold queue, and the sticky drop flag. -/
structure CRing where
  prod : Word := 0
  cons : Word := 0
  hold : List (List Word) := []
  lost : Bool := false
  deriving DecidableEq, Repr

/-- A die's scheduler (R281–R289, R301): the items that each ready list holds, oldest first. -/
structure Sched where
  lists : Tbl (List (List Word)) := []
  fullSeen : BitVec 64 := 0
  /-- Services of each list in the present round (R283). -/
  served : Tbl Nat := []
  rings : Tbl CRing := []
  deriving DecidableEq, Repr

/-- One direction of a mailbox (R292): complete messages, oldest first, the head without the words already read; and the
words of the open message. -/
structure MbxQueue where
  msgs : List (List Word) := []
  opened : List Word := []
  deriving DecidableEq, Repr

/-- One side's acknowledge and enable registers (R294, R302). -/
structure MbxSide where
  code : BitVec 16 := 0
  valid : Bool := false
  ovf : Bool := false
  empty : Bool := false
  ienMsg : Bool := false
  ienAck : Bool := false
  deriving DecidableEq, Repr

/-- A mailbox (R290–R295, R302). -/
structure Mailbox where
  sideA : Byte := 0
  sideB : Byte := 0
  mode : Bool := false
  valid : Bool := false
  ab : MbxQueue := {}
  ba : MbxQueue := {}
  a : MbxSide := {}
  b : MbxSide := {}
  deriving DecidableEq, Repr

/-- A lock register (R296, R297, R303); owner 0 is none. -/
structure Lock where
  owner : Byte := 0
  waiters : List Byte := []
  grace : Bool := false
  deriving DecidableEq, Repr

-- 11_fabric

/-- A fabric PLL's status (R307–R309, R332); its settings are register words. -/
structure PllSt where
  locked : Bool := false
  overBits : BitVec 4 := 0
  shedOk : BitVec 4 := 0
  shedActive : BitVec 4 := 0
  deriving DecidableEq, Repr

/-- A CTAP item (R321). -/
structure TapItem where
  tap : BitVec 6
  x : BitVec 16
  idx : Word
  gap : Bool
  deg : Bool
  deriving DecidableEq, Repr

/-- An access to a die's user registers (R324): who asks, the address, what, and user logic's answer where it gives one. -/
structure RegpReq where
  r : Req
  addr : BitVec 23
  write : Bool
  data : Word
  answer : Option (Word × Bool)
  /-- Its completion is discarded: the host's link was reset (R442). -/
  drop : Bool := false
  deriving DecidableEq, Repr

/-- A capability of the function (R541). -/
inductive Capability where
  | power (noSoftReset : Bool) (pmeSupport : BitVec 5) (d3hot : Bool)
  | pciExpress (flr aspmL1 : Bool) (maxSpeed maxWidth speed width maxPayload : Nat)
  | msix (size table pba : Nat) (enable mask : Bool)
  | aer (corrected uncorrected : Word)
  | serialNumber (v : BitVec 64)
  | secondary
  | dataLinkFeature (scaledFlow : Bool)
  | physical16
  | physical32
  | laneMargining
  deriving DecidableEq, Repr

/-- A base address register (R541): its size in bytes, 0 where it is not implemented, its kind and its base. -/
structure Bar where
  size : Nat := 0
  wide : Bool := false
  prefetch : Bool := false
  base : Nat := 0
  deriving DecidableEq, Repr

/-- Configuration space (R541). -/
structure ConfSpace where
  vendor : BitVec 16
  device : BitVec 16
  revision : Byte
  classCode : BitVec 24
  subVendor : BitVec 16
  subsystem : BitVec 16
  headerType : Byte
  interruptPin : Byte
  memSpace : Bool
  busMaster : Bool
  /-- BAR0; BAR2 and BAR3 as one; BAR1, BAR4, BAR5 and the expansion ROM are not implemented. -/
  bars : List Bar
  capabilities : List Capability
  deriving DecidableEq, Repr

/-- What leaves the part, or one of its hardened ports, at a contact, a link or a port of the fabric. -/
inductive Output where
  | config (c : ConfSpace)
  | msix (vector : Nat)
  | hostWrite (addr : BitVec 64) (bytes : List Byte)
  | reply (r : Req) (a : Reply)
  | acceptPins (word : BitVec 22)
  | acceptFrame (die : Die) (bundle : Bundle) (bytes : List Byte)
  | laneFrame (die : Die) (bundle : Bundle) (lane : DLane) (bytes : List Byte)
  | laneComma (die : Die) (bundle : Bundle) (lane : DLane)
  | laneEcho (die : Die) (bundle : Bundle) (lane : DLane) (word : BitVec 20)
  | prbs (die : Die) (bundle : Bundle) (word : BitVec 20)
  | whit (die : Die) (rec : HitRec) (wid : Addr)
  | wlate (die : Die) (rec : HitRec) (wid : Addr)
  | wcls (die : Die) (ev : CloseEv)
  | wsum (die : Die) (first last : Bool) (beat : BitVec 512)
  | ctap (die : Die) (item : TapItem)
  | portStatus (die : Die) (port : Nat) (status handle op : Nat)
  | mbxResp (die : Die) (port : Nat) (a : Reply)
  | mbxNotify (die : Die) (port : Nat) (mbx : Nat)
  | netp (die : Die) (port : Nat) (tag : BitVec 6) (status : Nat) (bytes : List (Option Byte))
  | regp (die : Die) (addr : BitVec 23) (write : Bool) (data : Word) (cls : Cls) (rnum : BitVec 8)
  | pane (die : Die) (block : Nat) (port : Bool) (data : BitVec 39) (ce ue : Bool)
  | paneFlags (die : Die) (block : Nat) (full empty almostFull almostEmpty : Bool)
  | flit (node : BitVec 12) (f : Flit)
  | mark (bank : Fin 2) (pin : Fin 24)
  | tdo (v : Nat)
  | aer (bit : Nat) (corrected : Bool)
  deriving DecidableEq, Repr

/-- A request that waits at a die's Glint port (R118, R322): op 0 ISSUE, 1 CONFIRM, 2 CANCEL, 3 ACCEPT. -/
structure GltReq where
  op : BitVec 2
  handle : BitVec 16 := 0
  wid : Addr := 0
  countM1 : BitVec 4 := 0
  type : Byte := 0
  deriving DecidableEq, Repr

/-- What z of a MAC slice selects (R314). -/
inductive MacZ where
  | zero | p | c | pcin | pcinShift
  deriving DecidableEq, Repr

/-- The inputs and controls of one MAC operation (R314). -/
structure MacIn where
  a : BitVec 24 := 0
  b : BitVec 18 := 0
  c : BitVec 64 := 0
  d : BitVec 24 := 0
  pcin : BitVec 64 := 0
  preEn : Bool := false
  subD : Bool := false
  subM : Bool := false
  cin : Bool := false
  z : MacZ := .zero
  deriving DecidableEq, Repr

/-- A MAC slice (R314, R315): its input register, its multiplier register with the operation that it belongs to, and P with
ovf. -/
structure MacSt where
  input : MacIn := {}
  op : MacIn := {}
  m : Int := 0
  p : BitVec 64 := 0
  ovf : Bool := false
  deriving DecidableEq, Repr

/-- A logic element (R305): its two flip-flops, and what its LUT holds, which changes where the element acts as a RAM or a
shift register. -/
structure ElemSt where
  ff0 : Bool
  ff1 : Bool
  lut : BitVec 64
  deriving DecidableEq, Repr

/-- A die's samples of its span signals at one span-clock edge (R327–R329): whether they are live, and the values. -/
structure SpanSample where
  live : Bool
  values : List Bool
  deriving DecidableEq, Repr

/-- A fabric die's programmable fabric (R304–R334). -/
structure Fabric where
  /-- Logic elements, by number, that no longer stand as the image set them (R305). -/
  elems : Tbl (Option ElemSt) := []
  /-- MAC slices, by number (R314). -/
  macs : Tbl MacSt := []
  /-- What is left over of an edge, by global clock (R307). -/
  gcRest : Tbl Nat := []
  /-- The span channels (R326–R329): quadrants whose signals are live; the samples on their way, newest first, where none is
  one lost in a live retrain; and what each source die's signals deliver here, with whether they are live. -/
  spanLive : BitVec 4 := 0
  /-- Quadrants whose fabric is held in reset without a configuration (R429). -/
  held : BitVec 4 := 15
  spanPipe : List (Option SpanSample) := []
  spanIn : Tbl (Option SpanSample) := []
  /-- The level of LIRQ (R317). -/
  lirq : Bool := false
  /-- Port cycles that user logic has had for the REGP access that it was offered (R324). -/
  regpWait : Nat := 0
  plls : Tbl PllSt := []
  /-- Global clocks with a switch pending, and the source that each leaves (R402). -/
  gcPending : BitVec 30 := 0
  gcOld : Tbl Nat := []
  /-- CLK_SPAN_STAT.sel, as the image chose it (R326, R334). -/
  spanSel : BitVec 2 := 0
  /-- Quadrants whose MBXP and NETP have been detached since by the quadrant's power-off (R319). -/
  netpOff : BitVec 4 := 0
  outUsed : BitVec 13 := 0
  inUsed : BitVec 13 := 0
  /-- Taps whose channel had a gap since their last item (R321). -/
  tapGap : BitVec 64 := 0
  ctap : List TapItem := []
  /-- REGP accesses, oldest first (R324): the first is with user logic, which has not answered it. -/
  regp : List RegpReq := []
  /-- Requests that wait at the Glint port and descriptors that wait at the scheduler port, at most 16 each (R118, R279). -/
  gltQueue : List GltReq := []
  schQueue : List (Fin 64 × List Word) := []
  /-- Responses that a port's shell holds, and the port cycles for which the first has waited (R320): port 0 GLT, 1 SCHP,
  2–5 MBXP0–MBXP3, 6–9 NETP0–NETP3. -/
  resp : Tbl (List Output) := []
  waited : Tbl Nat := []
  /-- What is left over of a port cycle, by port group (R318). -/
  portRest : Tbl Nat := []
  /-- Pane RAM words that have been written since the quadrant took its image, and stored bits in error, by
  block × 2,048 + word; 39 bits in RAW mode (R310, R311). -/
  pane : Tbl (Option (BitVec 39)) := []
  /-- The word that each port of a block last read out, by block × 2 + port (R312); and the read pointer and the number of words
  of a block in FIFO mode (R310). -/
  paneOut : Tbl (BitVec 39) := []
  paneFifo : Tbl (Nat × Nat) := []
  /-- By quadrant: the number of the free value that stands for the first of its initial contents (R313; log entry 1). -/
  paneFrom : Tbl (Option Nat) := []
  paneErr : Tbl Nat := []
  deriving DecidableEq, Repr

-- 12_bexzil_bridges

/-- A bridge spare wire (R343, R356). -/
structure Spare where
  bundle : BitVec 5 := 0
  wire : BitVec 7 := 0
  source : BitVec 2 := 0
  valid : Bool := false
  bad : Bool := false
  deriving DecidableEq, Repr

/-- A bridge wire (R340–R342, R356). -/
structure WireSt where
  delay : BitVec 6 := 0
  run : BitVec 7 := 0
  /-- Its transfer shift where it has been deskewed apart from the other wires. -/
  shift : Option (BitVec 3) := none
  bad : Bool := false
  errors : BitVec 15 := 0
  suspect : Bool := false
  /-- The bridge clock cycle of its last error (R340). -/
  errAt : Nat := 0
  deriving DecidableEq, Repr

/-- A die's Bexzil bridge (R335–R357). -/
structure Bridge where
  state : BitVec 4 := 0
  tries : BitVec 2 := 0
  upCks : Bool := false
  downCks : Bool := false
  rtBundle : BitVec 5 := 0
  rtDir : Bool := false
  rtClock : Bool := false
  lastDur : BitVec 16 := 0
  lastBundle : BitVec 5 := 0
  lastDir : Bool := false
  lastClock : Bool := false
  lastSpare : Bool := false
  lastOk : Bool := false
  /-- Spares by direction × 4 + number. -/
  spares : Tbl Spare := []
  /-- A sweep of every wire has run since the bridge was DOWN: an unlisted wire passed it clean throughout. -/
  swept : Bool := false
  /-- Wires by direction × 8,192 + bundle × 128 + wire; spares at 4,096 + k; CK and CKS at 4,100 and 4,101. -/
  wires : Tbl WireSt := []
  /-- The number of the free value that stands for the first wire's shift since the last DESKEW (R341; log entry 1). -/
  shiftFrom : Option Nat := none
  /-- Corrected errors and uncorrectable codewords of the last 1,024 bridge clock cycles, newest first: the cycle, and the
  wire's key or direction × 32 + bundle (R345). -/
  ces : List (Nat × Nat) := []
  ues : List (Nat × Nat) := []
  /-- What started the retrain that runs: a wire, where one is named. -/
  rtWire : Option Nat := none
  /-- The capability word of the last EXCHANGE, and that of the first training (R351, R352). -/
  capWord : Option Word := none
  firstWord : Option Word := none
  reported : Bool := false
  deriving DecidableEq, Repr

/-- The bridges and what the package settles from them (R352, R357): the package level, and wires fused bad at assembly
test: (die, direction, bundle, wire, spare). -/
structure Bridges where
  dies : Tbl Bridge := []
  level : BitVec 2 := 0
  fuses : List (Nat × Bool × Nat × Nat × Nat) := []
  deriving DecidableEq, Repr

-- 13_network

/-- Where a flit waits (R363–R367): at a router port of a die's mesh, which an endpoint or a bridge attachment uses; at a mesh
router, having left (x, y) in a direction (0 to higher x, 1 to lower x, 2 to higher y, 3 to lower y); at the hub's end of a
die's bridge, before or after the spine; at a spine port; or at the central switch, from a spine port. -/
inductive NocIn where
  | port (d p : Nat)
  | mesh (d x y dir : Nat)
  | up (d : Nat)
  | down (d : Nat)
  | spine (p : Nat)
  | switch (p : Nat)
  deriving DecidableEq, Repr

/-- A flit in the network (R367, R373): where it waits, the link that the router before has chosen for it here, the spine cycles
that it has waited in routers, and the first in which it may leave. -/
structure NetFlit where
  flit : Flit
  at_ : NocIn
  out : Nat
  waited : Nat := 0
  ready : Nat
  deriving DecidableEq, Repr

/-- The on-chip network's tables and traffic (R358–R385). -/
structure Noc where
  active : Bool := false
  flipPending : Bool := false
  lastRefused : Bool := false
  /-- The flits in the network, in order of arrival where they wait; and the place that each link last served (R373). -/
  flits : List NetFlit := []
  turn : Tbl Nat := []
  /-- Best-effort flits that their endpoints have injected onto a link in the present frame (R418). -/
  injected : Tbl Nat := []
  /-- The epoch that each die uses for injecting, and the dies whose EPOCH mark is still to come (R376). -/
  dieEpoch : BitVec 4 := 0
  marksDue : BitVec 4 := 0
  /-- Slot tables computed for each copy: reservation by kind × 4,096 + place. -/
  res0 : Tbl Nat := []
  res1 : Tbl Nat := []
  /-- Unanswered invalidations of the snoop filter: (cluster, line) (R230). -/
  snoops : List (Nat × Nat) := []
  /-- Answers of writes that wait for invalidations (R230). -/
  held : List (List (Nat × Nat) × Output) := []
  deriving DecidableEq, Repr

-- 14_clocks

/-- The clock monitor, its oscillators and muxes (R386–R411). -/
structure Clocks where
  glowOk : Bool := false
  lanternOk : Bool := false
  refOk : Bool := false
  onLantern : Bool := false
  lanternLost : Bool := false
  glowLost : Bool := false
  frozen : Bool := false
  refsel : BitVec 2 := 0
  cause : BitVec 3 := 0
  lastTrip : Stamp := 0
  refCount : BitVec 16 := 0
  refExpected : BitVec 16 := 0
  glowCount : BitVec 16 := 0
  g : BitVec 16 := 0
  lanErr : Word := 0
  /-- The fused estimate of LANTERN's frequency, and f_L, in Hz (R387). -/
  fused : Nat := 400000000
  fL : Nat := 400000000
  lanternOn : Bool := false
  qualifying : Bool := false
  checkPass : Nat := 0
  monPass : Nat := 0
  monFail : Nat := 0
  deciding : Bool := false
  mclkSub : Bool := false
  aonBackup : Bool := false
  outPending : Bool := false
  /-- The CLKOUT source that a pending switch leaves. -/
  outOld : Byte := 0
  /-- The held group is stopped for a failover (R391), or held with no fallback (R395). -/
  holding : Bool := false
  noFallback : Bool := false
  holdover : Bool := false
  reverting : Bool := false
  /-- Spine PLLs of F0–F3 and the hub locked. -/
  locked : BitVec 5 := 0
  relocking : Bool := false
  /-- Edges of the span clock, and what is left over of one (R326). -/
  span : Nat := 0
  spanRest : Nat := 0
  /-- Cycles of the bridge clock since reset, and what is left over of one (R336). -/
  bridge : Nat := 0
  bridgeRest : Nat := 0
  /-- Spine cycles since reset; and the fractions of a spine cycle and of MCLK's microsecond that idle ticks have left over
  (log entry 2). -/
  spine : Nat := 0
  /-- Spine edges that the Facets pass (R418). -/
  facet : Nat := 0
  spineRest : Nat := 0
  usRest : Nat := 0
  deriving DecidableEq, Repr

-- 15_power

/-- A temperature sensor (R412, R413). -/
structure Sensor where
  temp : BitVec 12 := 0
  failed : Bool := false
  missed : Nat := 0
  deriving DecidableEq, Repr

/-- An Eclipse in progress (R424): its scope and cause, its drain, and whether the domain comes up again (R444). -/
structure EclSeq where
  whole : Bool
  cause : BitVec 3
  forced : Bool := false
  drain : BitVec 11 := 0
  back : Bool := false
  deriving DecidableEq, Repr

/-- The power manager (R412–R434) and the domains' state (R30, R31). -/
structure Power where
  on : BitVec 48 := 0
  fenced : BitVec 48 := 0
  isolated : BitVec 48 := 0
  /-- Eclipses in progress, by domain; a whole die's by its BRG domain. -/
  ecl : Tbl (Option EclSeq) := []
  running : BitVec 2 := 0
  chosen : BitVec 2 := 0
  step : BitVec 3 := 0
  overLimit : Bool := false
  warn : Bool := false
  changing : Bool := false
  power : BitVec 20 := 0
  sensors : Tbl Sensor := []
  /-- Each domain's voltage in steps of 0.5 mV (R414). -/
  voltage : Tbl Nat := []
  /-- Consecutive checks since power fell below 90 % of the limit (R419). -/
  lowChecks : Option Nat := none
  /-- Domains whose requests are in progress (R433), and the last request's. -/
  reqRuns : List Nat := []
  reqDom : BitVec 6 := 0
  reqOn : Bool := false
  reqResult : Byte := 0
  eclDom : BitVec 6 := 0
  eclDie : Bool := false
  eclCause : BitVec 3 := 0
  eclForced : Bool := false
  eclDrain : BitVec 11 := 0
  deriving DecidableEq, Repr

-- 16_startup_and_reset

/-- The contacts and rails that start-up follows (R435–R445, R563–R565). -/
structure Rails where
  vaux : Bool := false
  vinMain : Bool := false
  vioDdr : Bool := false
  vioGa : Bool := false
  vioGb : Bool := false
  vbat : Bool := false
  resetN : Bool := false
  perstN : Bool := false
  deriving DecidableEq, Repr

/-- Start-up and reset (R435–R454, R598). -/
structure StartUp where
  /-- Phases 0–5 that have ended; RST_STAT.phase is the lowest that has not (R435). -/
  ended : BitVec 6 := 0
  fwOk : Bool := false
  imgOk : Bool := false
  restoreOk : Bool := false
  dieState : BitVec 8 := 0
  start : BitVec 3 := 0
  cPerst : Bool := false
  cFlr : Bool := false
  cLamp : Bool := false
  cDie : Bool := false
  boot : BitVec 24 := 0
  /-- The boot record's slots, primary and fallback, for images and for firmware (R468). -/
  bootImg : List Nat := []
  bootFw : List Nat := []
  dark : Bool := false
  thermalOff : Bool := false
  /-- VIN_MAIN has been lost and every switched domain is off (R565). -/
  vinOff : Bool := false
  /-- PERST_N has been asserted in DARK (R395). -/
  darkPerst : Bool := false
  dieBusy : Bool := false
  dieResult : Byte := 0
  domBusy : Bool := false
  domResult : Byte := 0
  coreResult : Byte := 0
  marks : Tbl Word := []
  deriving DecidableEq, Repr

-- 18_errors_and_counters

/-- A fault record (R490). -/
structure FaultRec where
  ts : Stamp
  source : BitVec 16
  cls : BitVec 2
  deg : Bool
  inj : Bool
  seqPend : Bool := false
  rep : BitVec 16 := 0
  code : Byte
  syndrome : BitVec 64
  addr : Addr
  seq : BitVec 16 := 0
  /-- While it waits in a die FIFO: the detection times of the records merged into it there (R492, R494). -/
  merged : List Stamp := []
  deriving DecidableEq, Repr

/-- The fault path (R491–R498, R510). -/
structure Faults where
  /-- Die fault FIFOs, oldest first, and the records each has lost since its last report (R491, R493). -/
  fifos : Tbl (List FaultRec) := []
  fifoLost : Tbl (List FaultRec) := []
  queue : List FaultRec := []
  seq : BitVec 16 := 0
  firstV : BitVec 64 := 0
  first : Tbl (Option FaultRec) := []
  last : Tbl (Option FaultRec) := []
  /-- Each detector's latest record that has taken its sequence number: what FLT_LAST falls back to (R494). -/
  lastTaken : Tbl (Option FaultRec) := []
  prod : Word := 0
  cons : Word := 0
  stopped : Bool := false
  logOk : Bool := false
  /-- The last record written to the log (R492). -/
  logged : Option FaultRec := none
  aon : List FaultRec := []
  nmeRef : Bool := false
  nmeFatal : Bool := false
  nmeThermal : Bool := false
  injMode : BitVec 2 := 0
  injFired : Bool := false
  injFires : BitVec 16 := 0
  deriving DecidableEq, Repr

/-- A counter leaf (R503, R512). -/
structure Leaf where
  value : BitVec 48 := 0
  floorInvalid : Bool := false
  wrapped : Bool := false
  deriving DecidableEq, Repr

/-- A counter node (R504, R512). -/
structure CNode where
  value : BitVec 48 := 0
  inexact : Bool := false
  deriving DecidableEq, Repr

/-- The counter tree (R503–R508): leaves, die nodes and package nodes by the keys of `Machine/Ops.lean`. -/
structure Counters where
  leaves : Tbl Leaf := []
  dieNodes : Tbl CNode := []
  pkgNodes : Tbl CNode := []
  /-- Words found in error and not yet reported: place (die 0–3, hub 4), register offset, and whether uncorrectable (R506). -/
  found : List (Nat × Nat × Bool) := []
  deriving DecidableEq, Repr

-- 17_configuration

/-- A configuration frame: its payload, and whether its record marks it volatile (R457). -/
abbrev Frame := BitVec 8192 × Bool

/-- What a FULL image holds beside its header (R455, R465): frames by die × 344,064 + index, where they are not all zeros
and checked; and each string's (offset, word) pairs in string order, by die 0–3, 4 the hub. -/
structure Image where
  imgId : Word := 0
  frames : Tbl Frame := []
  sets : Tbl (List (Nat × Word)) := []
  /-- Bytes of its plaintext in the staging region (R475). -/
  bytes : Nat := 0
  deriving DecidableEq, Repr

/-- A partial image in the partial store (R474, R475): its region, its frames and its plaintext's length. -/
structure PartImage where
  region : BitVec 6
  imgId : Word
  frames : List (Nat × Frame)
  bytes : Nat
  deriving DecidableEq, Repr

/-- A stream that has been staged and verified and waits for its apply (R471): what it came from (0 start-up, 1 the command
port, 2 the test port), and its contents. -/
structure Staged where
  type : BitVec 2
  src : BitVec 2
  slot : Nat
  region : BitVec 6 := 0
  image : Image := {}
  part : Option PartImage := none
  /-- A firmware's load part and resource part (R478). -/
  fw : List Byte × List Byte := ([], [])
  deriving DecidableEq, Repr

/-- The configuration controller and Mirror (R455–R487). -/
structure Cfg where
  state : BitVec 3 := 0
  tp : Bool := false
  type : BitVec 2 := 0
  lastCode : Byte := 0
  lastType : BitVec 2 := 0
  lastTp : Bool := false
  lastRegion : BitVec 6 := 0
  imgId : Word := 0
  tpActive : Bool := false
  tpCode : Byte := 0
  /-- Words of the test-port stream so far (R477). -/
  stream : List Word := []
  /-- The stream that waits for its apply. -/
  staged : Option Staged := none
  /-- The restore copy (R447, R475), and the partial store in application order. -/
  copy : Image := {}
  parts : List PartImage := []
  /-- Configuration frames in the fabric dies, by die × 344,064 + index, where they are not all zeros. -/
  frames : Tbl Frame := []
  /-- By frame, in what its stored code differs from that of its stored payload (R458, R481). -/
  codeErr : Tbl (BitVec 16) := []
  /-- CFG_PREG words as the applied image sets them, by region − 1; the applied bit follows the partial store (R486). -/
  preg : Tbl (Word × Word) := []
  fwOfs : BitVec 27 := 0
  fwRes : List Byte := []
  /-- Key words written to BBRAM and not committed, and the committed key. -/
  bbWritten : Tbl (Option Word) := []
  bbKey : Option (List Word) := none
  /-- Fused keys K_F and K_A and the digest H_D, once programmed (R525). -/
  fuseKf : Option (BitVec 256) := none
  fuseKa : Option (BitVec 384) := none
  fuseHd : Option (BitVec 384) := none
  fuseNoObserve : Bool := false
  mirActive : Bool := false
  mirDie : BitVec 2 := 0
  mirSkipping : Bool := false
  mirLast : Word := 0
  mirPassUs : Word := 0
  deriving DecidableEq, Repr

/-- The non-volatile die (R46, R467–R469): its bytes (an unlisted byte is erased, 0xFF) and erase counts by slot. -/
structure Nv where
  mem : Tbl Byte := []
  /-- Targets whose erased mark is clear, by kind × 64 + index (R548). -/
  used : Tbl Bool := []
  erases : Tbl Nat := []
  deriving DecidableEq, Repr

-- 19_debug_and_test

/-- A virtual-terminal byte register with its full flag (R524). -/
abbrev VtReg := Option Byte

/-- The debug block, test port and last-records ring (R514–R539). -/
structure Debug where
  level : BitVec 2 := 1
  chalValid : Bool := false
  /-- Microseconds of MCLK for which the challenge and the lockout still last, and the fuse programming may (R516, R517,
  R530). -/
  chalLeft : Nat := 0
  lockLeft : Nat := 0
  fuseLeft : Nat := 0
  chal : Tbl Word := []
  resp : Tbl Word := []
  lockout : Bool := false
  lastOk : Bool := false
  extest : Bool := false
  fuseProg : BitVec 4 := 0
  keysVoid : Bool := false
  winStat : BitVec 3 := 0
  freeze : Tbl (BitVec 4) := []
  vtTx : Tbl VtReg := []
  vtRx : Tbl VtReg := []
  records : List FaultRec := []
  /-- Captures since the Dark Record area was last erased (R532). -/
  drSeq : Word := 0
  tapIr : BitVec 8 := 1
  /-- The number of the free value that stands for the boundary cells since they last captured the contacts (R528; log entry
  1): the register's length and order lie in the BSDL files, outside the manual. -/
  boundary : Option Nat := none
  tapData : BitVec 64 := 0
  tapStat : BitVec 3 := 0
  deriving DecidableEq, Repr

-- 20_host_interface

/-- A readout ring (R550–R554, R561) but for its settings. -/
structure Ring where
  prod : BitVec 64 := 0
  cons : BitVec 64 := 0
  truncSeen : Bool := false
  holdoff : Bool := false
  /-- Microseconds that the holdoff still lasts. -/
  left : Nat := 0
  msgDue : Bool := false
  deriving DecidableEq, Repr

/-- The PCI Express function, command port and MSI-X table (R540–R561). -/
structure Hif where
  up : Bool := false
  width : BitVec 4 := 0
  speed : BitVec 3 := 0
  d3hot : Bool := false
  bme : Bool := false
  /-- The rest of configuration space that the host writes (R541). -/
  conf : HostConf := {}
  opcode : Byte := 0
  busy : Bool := false
  ownerLamp : Bool := false
  status : Byte := 0
  time : Word := 0
  /-- The running command's argument bank as copied at its start (R545), and the code with which it is to end. -/
  args : List Word := []
  endCode : Option Byte := none
  argHost : Tbl Word := []
  argLamp : Tbl Word := []
  mbxPend : BitVec 128 := 0
  rings : Tbl Ring := []
  vecMask : BitVec 64 := BitVec.allOnes 64
  vecPend : BitVec 64 := 0
  vecAddr : Tbl (BitVec 96) := []
  /-- Status bits logged in AER, corrected and uncorrected (R556). -/
  aerCe : Word := 0
  aerUe : Word := 0
  deriving DecidableEq, Repr

-- 21_pins_and_electrical

/-- A captured input edge (R579, R583). -/
structure Edge where
  tick : BitVec 58
  pin : BitVec 6
  rising : Bool
  deriving DecidableEq, Repr

/-- The GPIO banks (R576–R584). -/
structure Gpio where
  levels : BitVec 48 := 0
  edges : List Edge := []
  ovf : Bool := false
  deriving DecidableEq, Repr

/-- A capture that waits in AON (R531, R533): what triggered it, the frozen copy of the last-records ring, and the parts of
the state that its snapshot shows, as they stood when it was taken. -/
structure Capture where
  /-- Taken ahead of the record that triggers it. -/
  ahead : Bool := false
  trig : Option FaultRec := none
  recs : List FaultRec := []
  regs : Tbl Word := []
  tb : Timebase := {}
  clk : Clocks := {}
  pw : Power := {}
  rails : Rails := {}
  su : StartUp := {}
  brg : Bridges := {}
  dbm : Dbm := {}
  sre : Sre := {}
  glint : Glint := {}
  cfg : Cfg := {}
  flt : Faults := {}
  dbg : Debug := {}
  deriving DecidableEq, Repr

/-- The machine. -/
structure State where
  /-- Commands that wait, first in, first out. -/
  pending : List Instr := []
  /-- The MODEL's own field: the number of the next free value (log entry 1). -/
  freeCtr : Nat := 0
  /-- The Glint whose speculative access is under way: the counts that the access causes are held for it (R15, R126). -/
  holdFor : Option Gid := none
  /-- Everything that has left the part at its contacts, link or hardened ports, oldest first. -/
  outbox : List Output := []
  /-- Registers that hold what software last wrote: words by offset in the register space, where they differ from Cold. -/
  regs : Tbl Word := []
  /-- R9: held low words and latched high words, by requester number × 2^26 + offset of the low word. -/
  heldLow : Tbl (Option Word) := []
  latched : Tbl (Option Word) := []
  /-- The near and far buffers' contents. -/
  mem : Memory := []
  tb : Timebase := {}
  clk : Clocks := {}
  pw : Power := {}
  rails : Rails := {}
  su : StartUp := {}
  /-- Data lanes by die × 112 + bundle × 7 + lane; bundles by die × 16 + bundle. -/
  lanes : Tbl LaneSt := []
  bundles : Tbl BundleSt := []
  /-- LANE_LSM_CTRL.active_epoch of each die. -/
  lsmActive : BitVec 4 := 0
  board : BoardTable := {}
  /-- CFE lane blocks by die × 112 + lane, channels by die × 1,792 + channel, hit queues by die × 16 + bundle. -/
  cfeLanes : Tbl CfeLane := []
  chans : Tbl ChanSt := []
  hitq : Tbl (List HitRec) := []
  wsus : Tbl Wsu := []
  merge : Merge := {}
  glint : Glint := {}
  dbm : Dbm := {}
  sre : Sre := {}
  /-- Cores by global number (1,024 the Lamp) and clusters by global number. -/
  cores : Tbl CoreSt := []
  clusters : Tbl ClusterSt := []
  wdg : Watchdog := {}
  scheds : Tbl Sched := []
  mbxs : Tbl Mailbox := []
  locks : Tbl Lock := []
  fabs : Tbl Fabric := []
  brg : Bridges := {}
  noc : Noc := {}
  cfg : Cfg := {}
  nv : Nv := {}
  flt : Faults := {}
  cnt : Counters := {}
  dbg : Debug := {}
  /-- The capture that waits to be written to the Dark Record (R531). -/
  capture : Option Capture := none
  hif : Hif := {}
  gpio : Gpio := {}
  deriving DecidableEq, Repr

/-- Why a step can stop with a fault. -/
inductive Fault where
  /-- Raised by no command: every behaviour that the manual gives is modelled as a next state, and a value that it leaves
  open is a free value. Kept so that the type has a name to match on. Safe. -/
  | stuck
  deriving DecidableEq, Repr

/-- Why a step can refuse a command. -/
inductive Refusal where
  /-- Raised by `Dispatch` for a command that has no meaning yet, by its name in the table. Safe. -/
  | notModelled (mnemonic : String)
  deriving DecidableEq, Repr

/-- The outcome of a command. -/
abbrev Out := Host.Outcome State Fault Refusal

/-- The state after reset: VAUX is at power-good and the cold start is in phase AON (R435); every switched domain is off,
every register is at its Cold value, nothing is stored and nothing waits. -/
def State.reset : State :=
  { rails := { vaux := true, vbat := true, resetN := true } }

end Sys2Proof.Machine
end

