-- ==== Sys2Proof/Machine/Ops.lean ====
section
/-! DEFINITION. The named operations that the meanings share: sparse tables, registers, memory bytes, free values, counters
and violations (18_errors_and_counters), fault records (R490–R498), interrupts and messages, and the domains' state. -/

namespace Sys2Proof.Machine

-- bit fields

/-- Bits [lo + len − 1 : lo] of a word, as a number. -/
def fld {n : Nat} (w : BitVec n) (lo len : Nat) : Nat := (w.toNat >>> lo) % 2 ^ len

/-- Bit i of a word. -/
def bitOf {n : Nat} (w : BitVec n) (i : Nat) : Bool := w.getLsbD i

/-- A Bool as a number. -/
def b2n (b : Bool) : Nat := if b then 1 else 0

/-- A word from fields: each a (low bit, value). -/
def pack : List (Nat × Nat) → Nat
  | [] => 0
  | (lo, v) :: t => v * 2 ^ lo + pack t

/-- Bit i of a bit vector set to b. -/
def setBit {n : Nat} (w : BitVec n) (i : Nat) (b : Bool) : BitVec n :=
  if b then w ||| BitVec.ofNat n (2 ^ i) else w &&& ~~~ BitVec.ofNat n (2 ^ i)

/-- The number of ones in the low n bits. -/
def popCount (w : Nat) : Nat → Nat
  | 0 => 0
  | n + 1 => popCount (w / 2) n + w % 2

/-- Clamp of an integer between two bounds. -/
def clampInt (v lo hi : Int) : Int := if v < lo then lo else if hi < v then hi else v

/-- Saturation of a count. -/
def satNat (v hi : Nat) : Nat := if hi < v then hi else v

/-- The 32-bit word of little-endian bytes. -/
def wordOfBytes : List Byte → Nat
  | [] => 0
  | b :: t => b.toNat + 256 * wordOfBytes t

/-- n little-endian bytes of a number. -/
def bytesOf (v : Nat) : Nat → List Byte
  | 0 => []
  | n + 1 => BitVec.ofNat 8 v :: bytesOf (v / 256) n

-- sparse tables

/-- What a table holds at a key: its entry, or the default. -/
def Tbl.get {α : Type} (d : α) : Tbl α → Nat → α
  | [], _ => d
  | (j, w) :: t, k => if j = k then w else Tbl.get d t k

/-- The table with an entry at key k that is no default. -/
def Tbl.put {α : Type} : Tbl α → Nat → α → Tbl α
  | [], k, v => [(k, v)]
  | (j, w) :: t, k, v =>
    if j < k then (j, w) :: Tbl.put t k v
    else if j = k then (k, v) :: t
    else (k, v) :: (j, w) :: t

/-- The table with v at key k, in canonical form. -/
def Tbl.set {α : Type} [DecidableEq α] (d : α) (t : Tbl α) (k : Nat) (v : α) : Tbl α :=
  if v = d then t.filter (fun e => e.1 != k) else Tbl.put t k v

/-- The entries whose key satisfies a test, removed. -/
def Tbl.drop {α : Type} (p : Nat → Bool) (t : Tbl α) : Tbl α := t.filter (fun e => !p e.1)

/-- Every key of the table is above k. -/
def Tbl.above {α : Type} (k : Nat) : Tbl α → Bool
  | [] => true
  | (j, _) :: _ => k < j

/-- The canonical form: keys strictly rising, no default entry. -/
def Tbl.wf {α : Type} [DecidableEq α] (d : α) : Tbl α → Bool
  | [] => true
  | (j, w) :: t => (w ≠ d) && Tbl.above j t && Tbl.wf d t

/-- Apply an update for each index below n, highest first. -/
def upTo {σ : Type} (f : Nat → σ → σ) : Nat → σ → σ
  | 0, s => s
  | n + 1, s => f n (upTo f n s)

/-- The indexes below n that satisfy a test, rising. -/
def idxs (p : Nat → Bool) (n : Nat) : List Nat := (List.range n).filter p

-- memory bytes

/-- One byte of the buffers' contents; an unlisted byte is 0 (log entry 7). -/
def Memory.byte (m : Memory) (a : Nat) : Byte := Tbl.get 0 m a

/-- A byte written. -/
def Memory.put (m : Memory) (a : Nat) (b : Byte) : Memory := Tbl.set 0 m a b

/-- Bytes written from an address on. -/
def Memory.putAll (m : Memory) (a : Nat) : List Byte → Memory
  | [] => m
  | b :: t => Memory.putAll (Memory.put m a b) (a + 1) t

/-- n bytes from an address on. -/
def Memory.bytes (m : Memory) (a : Nat) : Nat → List Byte
  | 0 => []
  | n + 1 => Memory.byte m a :: Memory.bytes m (a + 1) n

/-- The canonical form of the buffers' contents. -/
def Memory.wf (m : Memory) : Bool := Tbl.wf (0 : Byte) m

-- free values

/-- A value that the manual leaves open, and the state in which the next one will differ (log entry 1). -/
def State.free (s : State) (w : Nat) : BitVec w × State :=
  (Config.freeValue w s.freeCtr, { s with freeCtr := s.freeCtr + 1 })

-- what leaves the part

-- domains (15_power, Domain numbers)

/-- Domain number of part i of die d: FQ0–FQ3, LG0, LG1, CFE, FCA, BRG. -/
def domDie (d i : Nat) : Nat := 9 * d + i

abbrev domCFE (d : Nat) : Nat := domDie d 6
abbrev domFCA (d : Nat) : Nat := domDie d 7
abbrev domBRG (d : Nat) : Nat := domDie d 8
abbrev domSPN : Nat := 36
abbrev domLMP : Nat := 37
abbrev domPCI : Nat := 38
abbrev domFBC (h : Nat) : Nat := 39 + h
abbrev domNBC (n : Nat) : Nat := 41 + n
abbrev domSEC : Nat := 45
abbrev domCFG : Nat := 46
abbrev domGPI : Nat := 47

/-- LG0 or LG1 of a die, by bundle (R33). -/
def domLG (d b : Nat) : Nat := domDie d (if b < 8 then 4 else 5)

/-- A domain is on. -/
def State.on (s : State) (dom : Nat) : Bool := bitOf s.pw.on dom

/-- A domain is on and not fenced: requests to it are served (R378). -/
def State.live (s : State) (dom : Nat) : Bool := bitOf s.pw.on dom && !bitOf s.pw.fenced dom

-- registers

/-- A step of the default LSM table (R53): its three words. -/
def lsmCold (st w : Nat) : Nat :=
  match st, w with
  | 0, 0 => 0x00000048
  | 0, 1 => 0x88038102
  | 0, 2 => 0x8A058904
  | 1, 0 => 0x00000008
  | 1, 1 => 0x82078B11
  | 2, 0 => 0x10C80024
  | 2, 1 => 0x83098108
  | 2, 2 => 0x0000810A
  | 3, 0 => 0x10140008
  | 3, 1 => 0x840B8108
  | 4, 0 => 0x30040000
  | 4, 1 => 0x830E8108
  | 4, 2 => 0x0000850D
  | 5, 0 => 0x00000010
  | 5, 1 => 0x830F8108
  | 5, 2 => 0x8610830C
  | 6, 0 => 0x00000041
  | 6, 1 => 0x870F8708
  | 6, 2 => 0x0000870C
  | 7, 0 => 0x10320082
  | 7, 1 => 0x830C840B
  | 8, 0 => 0x00000104
  | 8, 1 => 0x0000880A
  | 9, 0 => 0x00000100
  | 10, 0 => 0x00000100
  | 11, 0 => 0x00000080
  | _, _ => 0

/-- A gain entry's Cold value (R81). -/
def gainCold (e : Nat) : Nat :=
  if e < 16 then 0x40 else if e < 32 then 0x20 else if e < 48 then 0x10 else 0x8000 >>> (e - 48)

/-- A step entry's Cold value (R81), in 16 bits. -/
def stepCold (e : Nat) : Nat :=
  if 31 ≤ e ∧ e ≤ 33 then 0 else (2 * e + 65536 - 64) % 65536

/-- Cold TBMUL and TBDIV by REFSEL (R386). -/
def tbCold (refsel : Nat) : Nat :=
  match refsel with
  | 0 => 0x108
  | 1 => 0x105
  | 2 => 0x104
  | _ => 0x102

/-- A register word's value after power-up: the Cold column, where it depends on the index. -/
def RegName.cold (n : RegName) (ix : List Nat) : Nat :=
  match n, ix with
  | .lsmTbl, [_, _, st, w] => lsmCold st w
  | .cfeGain, [_, _, j] => gainCold (2 * j) + 65536 * gainCold (2 * j + 1)
  | .cfeStep, [_, _, j] => stepCold (2 * j) + 65536 * stepCold (2 * j + 1)
  | .cfeLaneCfg, [_, l] => 64 * (16 * (l % 7))
  | .cfePeriod, [_, _, 1] => 8
  | .wsuGroup, [_, j] =>
    (4 * j / 7) + 256 * ((4 * j + 1) / 7) + 65536 * ((4 * j + 2) / 7) + 16777216 * ((4 * j + 3) / 7)
  | .schList, [_, _, 0] => 0x10040
  | _, _ => n.row.cold

/-- The bits that a plain write stores, where they differ between the words of a register. -/
def RegName.mask (n : RegName) (ix : List Nat) : Nat :=
  match n, ix with
  | .cfeFmt, [_, _, 0] => 0x3FF1FFF
  | .cfeFmt, [_, _, 1] => 0x1FFFFFF
  | .clkTbLoad, [1] => 0x3FFFFFF
  | .nocFlow, [_, _, 0] => 0x7FFFFFF
  | .nocFlow, [_, _, 1] => 0xFF
  | .fpll, [_, _, 0] => 0x1FFF
  | .fpll, [_, _, 2] => 0
  | .schList, [_, _, 1] => 0
  | .schCringBase, [_, _, 1] => 0xFFFF
  | .cluLdSrc, [_, _, 1] => 0xFFFF
  | .fltInjAddr, [1] => 0xFFFF
  | .dbgWinAddr, [1] => 0x1FFFF
  | _, _ => n.row.rw

/-- Offset of a register word in the register space. -/
def offOf : List (Nat × Nat) → List Nat → Nat
  | (stride, _) :: t, i :: ix => stride * i + offOf t ix
  | _, _ => 0

/-- Offset of a register word. -/
def RegName.off (n : RegName) (ix : List Nat) : Nat := n.row.base + offOf n.row.dims ix

/-- The Cold word in this package (CLK_TB's follows REFSEL, R386). -/
def State.coldWord (s : State) (n : RegName) (ix : List Nat) : Word :=
  match n with
  | .clkTb => BitVec.ofNat 32 (tbCold s.clk.refsel.toNat)
  | _ => BitVec.ofNat 32 (n.cold ix)

/-- The stored word of a register. -/
def State.rd (s : State) (n : RegName) (ix : List Nat) : Word := Tbl.get (s.coldWord n ix) s.regs (n.off ix)

/-- A register's stored word replaced. -/
def State.wr (s : State) (n : RegName) (ix : List Nat) (v : Word) : State :=
  { s with regs := Tbl.set (s.coldWord n ix) s.regs (n.off ix) v }

/-- A plain write: only the stored bits change (R8). -/
def State.store (s : State) (n : RegName) (ix : List Nat) (v : Word) : State :=
  s.wr n ix (v &&& BitVec.ofNat 32 (n.mask ix))

/-- A field of a stored register. -/
def State.rf (s : State) (n : RegName) (ix : List Nat) (lo len : Nat) : Nat := fld (s.rd n ix) lo len

/-- A bit of a stored register. -/
def State.rb (s : State) (n : RegName) (ix : List Nat) (i : Nat) : Bool := bitOf (s.rd n ix) i

/-- The two words of a register that follows R9, as one value. -/
def State.rd64 (s : State) (n : RegName) (ix : List Nat) : Nat :=
  (s.rd n (ix ++ [0])).toNat + 4294967296 * (s.rd n (ix ++ [1])).toNat

/-- Registers of an offset range [lo, hi) return to Cold; the latches and held words that they keep (R9) are lost with
them. -/
def State.coldRange (s : State) (lo hi : Nat) : State :=
  let inside (k : Nat) : Bool := lo ≤ k && k < hi
  { s with
    regs := Tbl.drop inside s.regs,
    heldLow := Tbl.drop (fun k => inside (k % 67108864)) s.heldLow,
    latched := Tbl.drop (fun k => inside (k % 67108864)) s.latched }

-- typed state by key

def laneKey (l : LaneId) : Nat := l.die.val * 112 + l.bundle.val * 7 + l.lane.val
def laneIx (l : LaneId) : Nat := l.bundle.val * 7 + l.lane.val

def State.lane (s : State) (k : Nat) : LaneSt := Tbl.get {} s.lanes k
def State.setLane (s : State) (k : Nat) (v : LaneSt) : State := { s with lanes := Tbl.set {} s.lanes k v }
def State.bundle (s : State) (k : Nat) : BundleSt := Tbl.get {} s.bundles k
def State.setBundle (s : State) (k : Nat) (v : BundleSt) : State := { s with bundles := Tbl.set {} s.bundles k v }
def State.cfeLane (s : State) (k : Nat) : CfeLane := Tbl.get {} s.cfeLanes k
def State.setCfeLane (s : State) (k : Nat) (v : CfeLane) : State := { s with cfeLanes := Tbl.set {} s.cfeLanes k v }
def State.chan (s : State) (k : Nat) : ChanSt := Tbl.get {} s.chans k
def State.setChan (s : State) (k : Nat) (v : ChanSt) : State := { s with chans := Tbl.set {} s.chans k v }
def State.hitQueue (s : State) (k : Nat) : List HitRec := Tbl.get [] s.hitq k
def State.setHitQueue (s : State) (k : Nat) (v : List HitRec) : State := { s with hitq := Tbl.set [] s.hitq k v }
def State.wsu (s : State) (d : Nat) : Wsu := Tbl.get {} s.wsus d
def State.setWsu (s : State) (d : Nat) (v : Wsu) : State := { s with wsus := Tbl.set {} s.wsus d v }
def State.slot (s : State) (g : Nat) : GlintSlot := Tbl.get {} s.glint.slots g
def State.setSlot (s : State) (g : Nat) (v : GlintSlot) : State :=
  { s with glint := { s.glint with slots := Tbl.set {} s.glint.slots g v } }
def State.rings (s : State) (d : Nat) : DieRings := Tbl.get {} s.dbm.rings d
def State.setRings (s : State) (d : Nat) (v : DieRings) : State :=
  { s with dbm := { s.dbm with rings := Tbl.set {} s.dbm.rings d v } }
def State.core (s : State) (c : Nat) : CoreSt := Tbl.get {} s.cores c
def State.setCore (s : State) (c : Nat) (v : CoreSt) : State := { s with cores := Tbl.set {} s.cores c v }
def State.cluster (s : State) (c : Nat) : ClusterSt := Tbl.get {} s.clusters c
def State.setCluster (s : State) (c : Nat) (v : ClusterSt) : State := { s with clusters := Tbl.set {} s.clusters c v }
def State.sched (s : State) (d : Nat) : Sched := Tbl.get {} s.scheds d
def State.setSched (s : State) (d : Nat) (v : Sched) : State := { s with scheds := Tbl.set {} s.scheds d v }
def State.fab (s : State) (d : Nat) : Fabric := Tbl.get {} s.fabs d
def State.setFab (s : State) (d : Nat) (v : Fabric) : State := { s with fabs := Tbl.set {} s.fabs d v }

-- outputs, and the responses of the fabric's ports (R316–R322)

/-- A port of a die and group is attached (R319). -/
def State.portAttached (s : State) (d group quad : Nat) : Bool :=
  s.on (domDie d quad) && s.rb .portSel [d, group] 5 && !(group == 2 && bitOf (s.fab d).netpOff quad)

/-- The die and port whose response channel carries an output: 0 GLT, 1 SCHP, 2–5 MBXP, 6–9 NETP; requesters 80–95 are NETP
ports where no mailbox answers (R7, R317, R322). -/
def Output.port? : Output → Option (Nat × Nat)
  | .portStatus d p _ _ _ => some (d.val, p)
  | .mbxResp d j _ => some (d.val, 2 + j)
  | .mbxNotify d j _ => some (d.val, 2 + j)
  | .netp d j _ _ _ => some (d.val, 6 + j)
  | .reply r _ =>
    if r.cls = .fabric ∧ 80 ≤ r.rnum.toNat ∧ r.rnum.toNat < 96 then
      some ((r.rnum.toNat - 80) / 4, 6 + (r.rnum.toNat - 80) % 4)
    else none
  | _ => none

/-- A port with a response channel is attached (R319). -/
def State.respAttached (s : State) (d p : Nat) : Bool :=
  if p < 2 then s.portAttached d 1 0 else s.portAttached d 2 ((p - 2) % 4)

/-- Responses that a port's shell holds. -/
def State.portResp (s : State) (d p : Nat) : List Output := Tbl.get [] (s.fab d).resp p
def State.setPortResp (s : State) (d p : Nat) (l : List Output) : State :=
  s.setFab d { s.fab d with resp := Tbl.set [] (s.fab d).resp p l }

/-- The shell has room for a response (R320): it holds 64. -/
def State.respRoom (s : State) (d p : Nat) : Bool := decide ((s.portResp d p).length < 64)

/-- Something leaves the part, or waits as a response in its port's shell; one due to a detached port is discarded (R319). -/
def State.emit (s : State) (o : Output) : State :=
  { s with
    outbox := match o.port? with
      | none => s.outbox ++ [o]
      | some _ => s.outbox,
    fabs := match o.port? with
      | none => s.fabs
      | some (d, p) => if s.respAttached d p then (s.setPortResp d p (s.portResp d p ++ [o])).fabs else s.fabs }

def State.bridge (s : State) (d : Nat) : Bridge := Tbl.get {} s.brg.dies d
def State.setBridge (s : State) (d : Nat) (v : Bridge) : State :=
  { s with brg := { s.brg with dies := Tbl.set {} s.brg.dies d v } }
def State.lock (s : State) (n : Nat) : Lock := Tbl.get {} s.locks n
def State.setLock (s : State) (n : Nat) (v : Lock) : State := { s with locks := Tbl.set {} s.locks n v }
def State.ring (s : State) (r : Nat) : Ring := Tbl.get {} s.hif.rings r
def State.setRing (s : State) (r : Nat) (v : Ring) : State :=
  { s with hif := { s.hif with rings := Tbl.set {} s.hif.rings r v } }
def State.region (s : State) (r : Nat) : Region := Tbl.get {} s.dbm.regions r
def State.setRegion (s : State) (r : Nat) (v : Region) : State :=
  { s with dbm := { s.dbm with regions := Tbl.set {} s.dbm.regions r v } }
def State.keySlot (s : State) (k : Nat) : KeySlot := Tbl.get {} s.sre.keys k
def State.setKeySlot (s : State) (k : Nat) (v : KeySlot) : State :=
  { s with sre := { s.sre with keys := Tbl.set {} s.sre.keys k v } }

/-- Mailbox 0 is fixed (R290): the host, the Lamp, ACK_REG. -/
def mbxCold (n : Nat) : Mailbox :=
  if n = 0 then { sideA := 1, sideB := 2, mode := true, valid := true } else {}
def State.mbx (s : State) (n : Nat) : Mailbox := Tbl.get (mbxCold n) s.mbxs n
def State.setMbx (s : State) (n : Nat) (v : Mailbox) : State := { s with mbxs := Tbl.set (mbxCold n) s.mbxs n v }

/-- The Lamp's core number (R211). -/
abbrev lampCore : Nat := 1024

-- time

/-- The current timestamp, fine time 0 (R17). -/
def State.now (s : State) : Stamp := BitVec.ofNat 64 (s.tb.tick.toNat * 64)

/-- REFCLK's frequency in Hz by REFSEL (R386). -/
def refHz (refsel : Nat) : Nat :=
  match refsel with
  | 0 => 100000000
  | 1 => 156250000
  | 2 => 200000000
  | _ => 400000000

/-- The nominal TBCLK in Hz: REFCLK × TBMUL / TBDIV (R397). -/
def State.tbHz (s : State) : Nat := refHz s.clk.refsel.toNat * s.rf .clkTb [] 0 8 / s.rf .clkTb [] 8 8

/-- Ticks of a number of µs at the programmed TBCLK. -/
def State.usTicks (s : State) (us : Nat) : Nat := us * s.tbHz / 1000000

-- messages and interrupts

/-- MSI-X messages may be sent: the link is up, the function is in D0 and masters the bus (R555, R558). -/
def State.canMaster (s : State) : Bool := s.on domPCI && s.hif.up && !s.hif.d3hot && s.hif.bme

/-- The largest payload of a memory write (R540, R552). -/
def State.maxPayload (s : State) : Nat := 128 * 2 ^ s.hif.conf.payload.val

/-- A vector is masked, by its own mask bit or for the whole function (R555). -/
def State.vecMasked (s : State) (v : Nat) : Bool := bitOf s.hif.vecMask v || !s.hif.conf.msixEnable || s.hif.conf.msixMask

/-- Counter leaves of a name at a place: die 0–3, or 4 for the hub. -/
def leafKey (n loc inst : Nat) : Nat := (n * 8 + loc) * 4096 + inst

/-- The pseudo-names of the violation counters and of the sink leaves, above every n of R508. -/
abbrev vioName : Nat := 1000
abbrev sinkName : Nat := 1001

def State.leaf (s : State) (k : Nat) : Leaf := Tbl.get {} s.cnt.leaves k
def State.dieNode (s : State) (n d : Nat) : CNode := Tbl.get {} s.cnt.dieNodes (n * 8 + d)
def State.pkgNode (s : State) (n : Nat) : CNode := Tbl.get {} s.cnt.pkgNodes n

/-- A leaf with k added modulo 2^48 (R503). -/
def Leaf.add (l : Leaf) (k : Nat) : Leaf :=
  { l with value := l.value + BitVec.ofNat 48 k, wrapped := l.wrapped || decide (2 ^ 48 ≤ l.value.toNat + k) }

/-- A node with k added modulo 2^48 (R504). -/
def CNode.add (n : CNode) (k : Nat) : CNode := { n with value := n.value + BitVec.ofNat 48 k }

/-- k is added to a leaf and, in the same step, to its die node and package node (R503, R504). -/
def State.countRaw (s : State) (n loc inst k : Nat) : State :=
  let c := s.cnt
  let leaves := Tbl.set {} c.leaves (leafKey n loc inst) ((Tbl.get {} c.leaves (leafKey n loc inst)).add k)
  let dieNodes := if loc < 4 then Tbl.set {} c.dieNodes (n * 8 + loc) ((Tbl.get {} c.dieNodes (n * 8 + loc)).add k)
    else c.dieNodes
  let pkgNodes := Tbl.set {} c.pkgNodes n ((Tbl.get {} c.pkgNodes n).add k)
  { s with cnt := { c with leaves := leaves, dieNodes := dieNodes, pkgNodes := pkgNodes } }

/-- A node's word is lost: it restarts from 0 with INEXACT set (R506). -/
def cnodeLost : CNode := { value := 0, inexact := true }

/-- A counter's word is uncorrectable (R506): the counter restarts from 0, and every ancestor sets INEXACT. `node` is 0 for
the leaf, 1 for its die node and 2 for its package node. -/
def Counters.poison (c : Counters) (n loc inst node : Nat) : Counters :=
  let inexactPkg : Tbl CNode := Tbl.set {} c.pkgNodes n { Tbl.get ({} : CNode) c.pkgNodes n with inexact := true }
  let k := n * 8 + loc
  match node with
  | 0 =>
    { c with
      leaves := Tbl.set {} c.leaves (leafKey n loc inst) { floorInvalid := true },
      dieNodes := if loc < 4 then Tbl.set {} c.dieNodes k { Tbl.get ({} : CNode) c.dieNodes k with inexact := true } else c.dieNodes,
      pkgNodes := inexactPkg }
  | 1 => { c with dieNodes := Tbl.set {} c.dieNodes k cnodeLost, pkgNodes := inexactPkg }
  | _ => { c with pkgNodes := Tbl.set {} c.pkgNodes n cnodeLost }

/-- A counter's value is replaced, as `node` names the counter. -/
def Counters.spoil (c : Counters) (n loc inst node : Nat) (v : BitVec 48) : Counters :=
  let k := n * 8 + loc
  match node with
  | 0 => { c with leaves := Tbl.set {} c.leaves (leafKey n loc inst) { Tbl.get ({} : Leaf) c.leaves (leafKey n loc inst) with value := v } }
  | 1 => { c with dieNodes := Tbl.set {} c.dieNodes k { Tbl.get ({} : CNode) c.dieNodes k with value := v } }
  | _ => { c with pkgNodes := Tbl.set {} c.pkgNodes n { Tbl.get ({} : CNode) c.pkgNodes n with value := v } }

/-- The words that an increment writes: register offset, and which of the three counters it belongs to. -/
def countWords (n loc inst : Nat) : List (Nat × Nat) :=
  [(leafReg n loc inst, 0), (leafReg n loc inst + 4, 0)] ++
    (if loc < 4 then [(dieNodeReg n loc, 1), (dieNodeReg n loc + 4, 1)] else []) ++ [(pkgNodeReg n, 2), (pkgNodeReg n + 4, 2)]

/-- The place of a word's storage: the die's counters, or the hub's. -/
def wordPlace (loc node : Nat) : Nat := if node = 2 then 4 else loc

/-- An injection into counter words (R488 detector 21, R499): the word written is found in error at once. One bit is
corrected; more are uncorrectable (of three and more the code may miss some: a free value tells, and what the word then holds). -/
def State.countInject (s : State) (n loc inst : Nat) : State :=
  let sel := s.rd .fltInjSel []
  let hit := (countWords n loc inst).find? fun w =>
    wordPlace loc w.2 == fld sel 6 10 && (!bitOf sel 25 || s.rd64 .fltInjAddr [] == w.1)
  match hit with
  | none => s
  | some (off, node) =>
    let s := { s with flt := { s.flt with
      injFired := true,
      injFires := if s.flt.injFires == 0xFFFF then 0xFFFF else s.flt.injFires + 1,
      injMode := if s.flt.injMode == 1 then 0 else s.flt.injMode } }
    let s := s.countRaw (32 * 15 + 4) 4 21 1
    let bits := popCount (s.rd64 .fltInjPat []) 39
    let (f, s) := if bits < 3 then ((1 : BitVec 1), s) else s.free 1
    let place := wordPlace loc node
    if bits = 0 then s
    else if f = 0 then
      -- more errors than the code tells: the word holds what is then read of it
      let (v, s) := s.free 48
      { s with cnt := s.cnt.spoil n loc inst node v }
    else if bits = 1 then
      { s with cnt := { s.cnt with found := s.cnt.found ++ [(place, off, false)] } }.countRaw (32 * 15 + 5) place 0 1
    else
      let c := s.cnt.poison n loc inst node
      { s with cnt := { c with found := c.found ++ [(place, off, true)] } }.countRaw (32 * 15 + 6) place 0 1

/-- A count that moves at once (R503): an injection into counter words may fire on it. -/
def State.countNow (s : State) (n loc inst k : Nat) : State :=
  let s := s.countRaw n loc inst k
  if s.flt.injMode = 0 ∨ fld (s.rd .fltInjSel []) 0 6 ≠ 21 then s else s.countInject n loc inst

/-- The counters that a Glint moves before its confirmation (R137): the leaves of the Glint block, whose name numbers are
96 to 127, and CNT_VIO_GLT_CFG. -/
def glintCounter (n inst : Nat) : Bool := n / 32 == 3 || (n == vioName && inst == 61)

/-- A count held in a Glint's slot until its publication (R126); one for a slot that is FREE again is discarded, as the
release discards those that came before. -/
def State.countHeld (s : State) (g n loc inst k : Nat) : State :=
  let sl := s.slot g
  if sl.state = 0 then s
  else
    s.setSlot g { sl with
      held := Tbl.set 0 sl.held (leafKey n loc inst) (Tbl.get 0 sl.held (leafKey n loc inst) + k) }

/-- A count: on behalf of a speculative access it is held per Glint (R15, R124, R126, R137); any other moves at once. -/
def State.count (s : State) (n loc inst k : Nat) : State :=
  match s.holdFor with
  | some g => if glintCounter n inst then s.countNow n loc inst k else s.countHeld g.val n loc inst k
  | none => s.countNow n loc inst k

/-- An access on behalf of a Glint's speculative item, or of none. -/
def State.onBehalf {α : Type} (s : State) (g : Option Gid) (f : State → α × State) : α × State :=
  match g with
  | none => f s
  | some g =>
    let x := f { s with holdFor := some g }
    (x.1, { x.2 with holdFor := s.holdFor })

/-- The same for a step with no answer. -/
def State.onBehalfOf (s : State) (g : Option Gid) (f : State → State) : State :=
  match g with
  | none => f s
  | some g => { f { s with holdFor := some g } with holdFor := s.holdFor }

/-- The hub's place in the counter tree. -/
abbrev hub : Nat := 4

/-- A violation is counted (R27, R501); nothing else happens for it. -/
def State.vio (s : State) (v : Nat) : State := s.count vioName hub v 1

/-- A sink-rule violation of port p of die d: its leaf and the node CNT_VIO_FAB_SINK of the die (R502). -/
def State.vioSink (s : State) (d p : Nat) : State :=
  let k := leafKey sinkName hub (d * 32 + p)
  let leaves := Tbl.set {} s.cnt.leaves k ((Tbl.get {} s.cnt.leaves k).add 1)
  ({ s with cnt := { s.cnt with leaves := leaves } }).vio (44 + d)

/-- A count that a Glint's speculative work causes is held in its slot (R126); any other is counted at once. -/
def State.countFor (s : State) (g : Option Gid) (n loc inst k : Nat) : State :=
  s.onBehalfOf g fun s => s.count n loc inst k

/-- A memory-error detector's count (R126): held apart for a Glint, whose release adds it to CNT_GLT_SPEC_ERR. -/
def State.countErr (s : State) (g : Option Gid) (n loc inst k : Nat) : State :=
  match g.orElse fun _ => s.holdFor with
  | none => s.count n loc inst k
  | some g =>
    let sl := s.slot g.val
    if sl.state = 0 then s.countNow (32 * 3 + 13) hub 0 k
    else
      s.setSlot g.val { sl with
        heldErr := Tbl.set 0 sl.heldErr (leafKey n loc inst) (Tbl.get 0 sl.heldErr (leafKey n loc inst) + k) }

/-- Counts held under leaf keys reach their counters (R126, R503). -/
def State.countKeys (s : State) : Tbl Nat → State
  | [] => s
  | (k, v) :: t => (s.count (k / 4096 / 8) (k / 4096 % 8) (k % 4096) v).countKeys t

/-- The name number n = 32 b + r (R508). -/
abbrev cn (b r : Nat) : Nat := 32 * b + r

/-- A completion to the host that carries EP (R543). -/
def epReply (r : Req) (a : Reply) : Bool := r.cls == .host && (a == .error || a == .poisoned)

/-- A requester is answered; a host read that fails is completed with EP, and counted (R543, R559). -/
def State.answer (s : State) (r : Req) (a : Reply) : State :=
  let s := s.emit (.reply r a)
  if epReply r a then s.count (cn 16 4) hub 0 1 else s

/-- The host's requests reach the part: its link is up, its function in D0 and memory space enabled (R541, R558, R598). -/
def State.hostReaches (s : State) : Bool := s.live domPCI && s.hif.up && !s.hif.d3hot && s.hif.conf.memSpace

/-- A request reaches the part. -/
def State.reaches (s : State) (r : Req) : Bool := r.cls != .host || s.hostReaches

/-- A request acts where it reaches the part. -/
def State.byReq (s : State) (r : Req) (f : State → State) : State := if s.reaches r then f s else s

/-- A speculative item's write to a register is not performed (R125, R228). -/
def State.guarded (s : State) (r : Req) (f : State → State) : State :=
  s.byReq r fun s => if r.spec.isSome then s.count (cn 3 8) hub 0 1 else f s

/-- An MSI-X vector is raised (R555): sent where it may be, else marked pending. -/
def State.sendVector (s : State) (v : Nat) : State :=
  if s.canMaster && !s.vecMasked v then
    (s.emit (.msix v)).count (cn 16 7) hub 0 1
  else { s with hif := { s.hif with vecPend := setBit s.hif.vecPend v true } }

/-- A Lamp interrupt line is raised (R244): its pending bit is set. -/
def State.raiseLine (s : State) (n : Nat) : State :=
  let c := s.core lampCore
  if s.on domLMP then s.setCore lampCore { c with ipend := setBit c.ipend n true } else s

/-- The non-maskable event (R498): vector 0 together with one Lamp NMI. -/
def State.nonMaskable (s : State) : State :=
  let c := s.core lampCore
  (if s.on domLMP then s.setCore lampCore { c with nmiPend := true } else s).sendVector 0

/-- Events that raise an MSI-X vector and a Lamp line together (R244, R555). -/
def State.pmgEvent (s : State) : State := (s.sendVector 3).raiseLine 6
def State.glintEvent (s : State) : State := (s.sendVector 4).raiseLine 8
def State.clkEvent (s : State) : State := (s.sendVector 5).raiseLine 9
def State.retrainEvent (s : State) : State := (s.sendVector 6).raiseLine 10
def State.eclipseEvent (s : State) : State := (s.sendVector 7).raiseLine 11

-- writes that other requesters see (R230, R267)

/-- A core loses a reservation of a line that is written (R267). -/
def State.resvLost (s : State) (lo hi : Nat) : List (Nat × CoreSt) → State
  | [] => s
  | (k, c) :: t =>
    match c.resv with
    | some (.remote l) => (if lo ≤ l ∧ l < hi then s.setCore k { c with resv := none } else s).resvLost lo hi t
    | _ => s.resvLost lo hi t

/-- Bytes [a, a + n) of the buffers are written (R230, R267): the snoop filter sends an invalidation to every cluster that
holds a line of them, and reservations of the lines are lost. -/
def State.snoopWrite (s : State) (a n : Nat) : State :=
  let lo := a / 64
  let hi := (a + n + 63) / 64
  let due := s.clusters.flatMap fun e => (e.2.lines.filter fun l => lo ≤ l && l < hi).map fun l => (e.1, l)
  let new := due.filter fun x => !s.noc.snoops.contains x
  ({ s with noc := { s.noc with snoops := s.noc.snoops ++ new } }).resvLost lo hi s.cores

/-- The invalidations of bytes [a, a + n) that are unanswered. -/
def State.dueOf (s : State) (a n : Nat) : List (Nat × Nat) :=
  s.noc.snoops.filter fun x => a / 64 ≤ x.2 && x.2 < (a + n + 63) / 64

/-- Invalidations are not answered yet. -/
def State.waitsFor (s : State) (due : List (Nat × Nat)) : Bool := due.any fun x => s.noc.snoops.contains x

/-- The answer of a write of bytes [a, a + n): it waits for every invalidation of them (R230). -/
def State.answerAfter (s : State) (a n : Nat) (o : Output) : State :=
  let due := s.dueOf a n
  if due = [] then s.emit o else { s with noc := { s.noc with held := s.noc.held ++ [(due, o)] } }

/-- Invalidations end; the answers that waited for them alone leave. -/
def State.snoopsEnd (s : State) (p : Nat × Nat → Bool) : State :=
  let s := { s with noc := { s.noc with snoops := s.noc.snoops.filter fun x => !p x } }
  let go := s.noc.held.filter fun h => !s.waitsFor h.1
  go.foldl (fun (s : State) h => s.emit h.2)
    { s with noc := { s.noc with held := s.noc.held.filter fun h => s.waitsFor h.1 } }

-- fault records

/-- Source ID: detector and place among its copies (R488). -/
def sourceId (det inst : Nat) : BitVec 16 := BitVec.ofNat 16 (det * 1024 + inst)

/-- Two records that merge (R492). -/
def FaultRec.same (a b : FaultRec) : Bool :=
  a.source == b.source && a.cls == b.cls && a.deg == b.deg && a.inj == b.inj && a.code == b.code &&
    a.syndrome == b.syndrome && a.addr == b.addr

/-- A record merges into the previous one that the path accepted (R492). -/
def State.merges (s : State) (prev : Option FaultRec) (r : FaultRec) : Bool :=
  match prev with
  | none => false
  | some p => s.rb .fltCtrl [] 1 && p.same r && decide (p.rep.toNat + r.rep.toNat < 0xFFFF)

/-- A record r, and what has merged into it, merges into p. -/
def FaultRec.again (p r : FaultRec) : FaultRec := { p with rep := p.rep + r.rep + 1 }

/-- The last element of a list replaced. -/
def setLast {α : Type} (l : List α) (v : α) : List α := l.dropLast ++ [v]

/-- The record's 32 bytes (R490). -/
def FaultRec.bits (r : FaultRec) : BitVec 256 :=
  BitVec.ofNat 256 (pack [(0, r.ts.toNat), (64, r.source.toNat), (80, r.cls.toNat), (82, b2n r.deg), (83, b2n r.inj),
    (84, b2n r.seqPend), (96, r.rep.toNat), (112, r.code.toNat), (128, r.syndrome.toNat), (192, r.addr.toNat),
    (240, r.seq.toNat)])

/-- The LOG region's base (R145, R495). -/
abbrev logBase : Nat := 0x5F9FC00000

/-- The sideband of a page encoded under strength t (R159): its tag names the page within its stack, with mark 0b101. -/
def pageCode (t page : Nat) : PageCode := { t := t, page := BitVec.ofNat 28 (page % 50331648), mark := 5 }

/-- A record written to the log at count i: its bytes, in a page that the drain writes whole (R161, R495). -/
def State.logWrite (s : State) (i : Nat) (r : FaultRec) : State :=
  let a := logBase + (i % 131072) * 32
  ({ s with
    mem := Memory.putAll s.mem a (bytesOf r.bits.toNat 32),
    dbm := { s.dbm with pages := Tbl.set {} s.dbm.pages (a / 2048) (pageCode 32 (a / 2048)) } }).snoopWrite a 32

/-- FLT_LAST, and FLT_FIRST where it still holds nothing, take an offered record (R494). -/
def State.firstLast (s : State) (det : Nat) (r : FaultRec) : State :=
  let f := s.flt
  let r := { r with rep := 0 }
  if bitOf f.firstV det then { s with flt := { f with last := Tbl.set none f.last det (some r) } }
  else { s with flt := { f with
    firstV := setBit f.firstV det true,
    first := Tbl.set none f.first det (some r),
    last := Tbl.set none f.last det (some r) } }

/-- The sequence number that the occurrence of a record at a time takes, where the record itself takes `seq` (R493). -/
def FaultRec.seqAt (r : FaultRec) (seq : BitVec 16) (ts : Stamp) : Option (BitVec 16) :=
  ((r.ts :: r.merged).findIdx? (· == ts)).map fun i => seq + BitVec.ofNat 16 i

/-- A register of a detector whose record takes its sequence number. -/
def FaultRec.fill (r : FaultRec) (seq : BitVec 16) (o : Option FaultRec) : Option FaultRec :=
  match o with
  | none => none
  | some x =>
    match (if x.seqPend && x.same r then r.seqAt seq x.ts else none) with
    | some q => some { x with seqPend := false, seq := q }
    | none => some x

/-- seq filled in where FLT_FIRST or FLT_LAST still holds the record that has just taken it (R494). -/
def State.fillSeq (s : State) (r : FaultRec) (seq : BitVec 16) : State :=
  let det := fld r.source 10 6
  let newest := { r with
    seqPend := false, rep := 0, ts := (r.merged.getLast?.getD r.ts), seq := seq + r.rep, merged := [] }
  { s with flt := { s.flt with
    first := Tbl.set none s.flt.first det (r.fill seq (Tbl.get none s.flt.first det)),
    last := Tbl.set none s.flt.last det (r.fill seq (Tbl.get none s.flt.last det)),
    lastTaken := Tbl.set none s.flt.lastTaken det (some newest) } }

/-- The last-records ring of the debug block takes each record that reaches the queue (R531): the newest 256. -/
def State.recordRing (s : State) (r : FaultRec) : State :=
  { s with dbg := { s.dbg with records := (s.dbg.records ++ [r]).drop (s.dbg.records.length + 1 - 256) } }

/-- A merge updates the repeat field of the copy (R531). -/
def State.recordAgain (s : State) (r : FaultRec) : State :=
  match s.dbg.records.getLast? with
  | some p => { s with dbg := { s.dbg with records := setLast s.dbg.records (p.again r) } }
  | none => s

/-- A record reaches the fault queue's stage (R491–R495): it, and each record merged into it on its die, takes the next sequence number and merges, is stored, or is
lost. -/
def State.enqueue (s : State) (r : FaultRec) : State :=
  let seq := s.flt.seq
  let det := fld r.source 10 6
  let s := { s with flt := { s.flt with seq := seq + r.rep + 1 } }
  let s := s.fillSeq r seq
  let r := { r with seqPend := false, seq := seq, merged := [] }
  match s.flt.queue.getLast? with
  | some p =>
    if s.merges (some p) r then
      (({ s with flt := { s.flt with queue := setLast s.flt.queue (p.again r) } }).count (cn 15 1) hub 0 1).recordAgain r
    else if s.flt.queue.length < 120 || (s.flt.queue.length < 128 && 2 ≤ r.cls.toNat) then
      (({ s with flt := { s.flt with queue := s.flt.queue ++ [r] } }).count (cn 15 0) hub r.cls.toNat 1).recordRing r
    else s.count (cn 15 2) hub det 1
  | none =>
    if s.merges s.flt.logged r then
      let p := (s.flt.logged.getD r).again r
      let s := (s.count (cn 15 1) hub 0 1).recordAgain r
      if s.flt.prod == s.flt.cons then
        -- already consumed: written again as a new record (R495)
        if s.flt.logOk then
          ({ s with flt := { s.flt with logged := some p, prod := s.flt.prod + 1 } }).logWrite s.flt.prod.toNat p
        else { s with flt := { s.flt with queue := [p] } }
      else ({ s with flt := { s.flt with logged := some p } }).logWrite (s.flt.prod.toNat + (2 ^ 32 - 1)) p
    else (({ s with flt := { s.flt with queue := [r] } }).count (cn 15 0) hub r.cls.toNat 1).recordRing r

/-- A die's traffic to the hub is held: a live retrain, or the REFCLK hold (R346, R391). -/
def State.dieHeld (s : State) (d : Nat) : Bool := (s.bridge d).state == 8 || s.clk.holding

/-- Lost records take sequence numbers (R493, R494). -/
def State.lostTake (s : State) : List FaultRec → State
  | [] => s
  | r :: t => (({ s with flt := { s.flt with seq := s.flt.seq + 1 } }).fillSeq r s.flt.seq).lostTake t

/-- The records that the die's FIFO lost are reported (R493). -/
def State.reportLost (s : State) (d : Nat) : State :=
  ({ s with flt := { s.flt with fifoLost := Tbl.set [] s.flt.fifoLost d [] } }).lostTake (Tbl.get [] s.flt.fifoLost d)

/-- Records move from a list to the queue, in order. -/
def State.enqueueAll (s : State) : List FaultRec → State
  | [] => s
  | r :: t => (s.enqueue r).enqueueAll t

/-- A die's FIFO empties into the queue (R491). -/
def State.sendFifo (s : State) (d : Nat) : State :=
  let rs := Tbl.get [] s.flt.fifos d
  let s := { s with flt := { s.flt with fifos := Tbl.set [] s.flt.fifos d [] } }
  match rs with
  | [] => s
  | rs => (s.reportLost d).enqueueAll rs

/-- A merge in a die FIFO keeps the merged record's time (R494). -/
def FaultRec.mergedAt (p r : FaultRec) : FaultRec := { p with merged := p.merged ++ [r.ts] }

/-- A record enters a die's 16-entry FIFO: it merges at the tail, is stored, or is lost (R491, R492, R494). -/
def State.fifoPut (s : State) (d : Nat) (r : FaultRec) : State :=
  let q := Tbl.get [] s.flt.fifos d
  if s.merges q.getLast? r then
    ({ s with flt := { s.flt with
      fifos := Tbl.set [] s.flt.fifos d (setLast q (((q.getLast?.getD r).again r).mergedAt r)) } }).count (cn 15 1) hub 0 1
  else if q.length < 16 then { s with flt := { s.flt with fifos := Tbl.set [] s.flt.fifos d (q ++ [r]) } }
  else ({ s with flt := { s.flt with
    fifoLost := Tbl.set [] s.flt.fifoLost d (Tbl.get [] s.flt.fifoLost d ++ [r]) } }).count (cn 15 2) hub (fld r.source 10 6) 1

/-- A FATAL record's non-maskable event, at the bit's change from 0 to 1 (R498). -/
def State.nmeFatal (s : State) : State :=
  if s.flt.nmeFatal then s
  else ({ s with flt := { s.flt with nmeFatal := true } }).nonMaskable

/-- A FATAL record is placed in AON's store of 4, replacing the oldest when full (R497). -/
def State.aonPut (s : State) (r : FaultRec) : State :=
  { s with flt := { s.flt with aon := (s.flt.aon ++ [r]).drop (s.flt.aon.length + 1 - 4) } }

/-- Stored FATAL records written to the log, in order (R497). -/
def State.logAll (s : State) : List FaultRec → State
  | [] => s
  | r :: t => (({ s with flt := { s.flt with logged := some r, prod := s.flt.prod + 1 } }).logWrite s.flt.prod.toNat r).logAll t

/-- AON's store is written to the log once the log accepts writes, and cleared (R497). -/
def State.flushAon (s : State) : State :=
  let rs := s.flt.aon
  { s with flt := { s.flt with aon := [] } }.logAll rs

/-- Where a detector lies. -/
inductive DetAt where
  | hub
  | die (d : Nat)
  deriving DecidableEq, Repr

-- captures (R531)

/-- The frozen ring copy and the parts of the state that a snapshot shows (R533). -/
def State.captureOf (s : State) (ahead : Bool) (trig : Option FaultRec) : Capture :=
  { ahead := ahead, trig := trig, recs := s.dbg.records, regs := s.regs, tb := s.tb, clk := s.clk, pw := s.pw,
    rails := s.rails, su := s.su, brg := s.brg, dbm := s.dbm, sre := s.sre, glint := s.glint, cfg := s.cfg, flt := s.flt,
    dbg := s.dbg }

/-- The capture of a FATAL record that is about to be raised while the domains go off is taken before they do. -/
def State.captureAhead (s : State) : State :=
  match s.capture with
  | none => { s with capture := some (s.captureOf true none) }
  | some _ => s

/-- A FATAL record starts a capture, or joins the one that is pending. -/
def State.captureFatal (s : State) (r : FaultRec) : State :=
  match s.capture with
  | none => { s with capture := some (s.captureOf false (some r)) }
  | some c =>
    if c.ahead then { s with capture := some { c with ahead := false, trig := some r } }
    else { s with capture := some { c with recs := (c.recs ++ [r]).drop (c.recs.length + 1 - 256) } }

/-- A record takes its way to the queue (R491), or, where the hub's domains are off, to AON's store if it is FATAL (R497). -/
def State.route (s : State) (place : DetAt) (det : Nat) (r : FaultRec) : State :=
  if s.on domSPN then
    let s := s.firstLast det r
    match place with
    | .hub => s.enqueue r
    | .die d => if s.dieHeld d then s.fifoPut d r else ((s.sendFifo d).reportLost d).enqueue r
  else if r.cls == 2 then s.aonPut { r with seqPend := false }
  else s

/-- A detector offers a record (R490–R494): class 0 CORRECTED, 1 UNCORRECTED, 2 FATAL, 3 ALARM. -/
def State.offer (s : State) (place : DetAt) (det inst cls : Nat) (code : Byte) (syn : BitVec 64) (addr : Addr)
    (inj : Bool) : State :=
  let r : FaultRec := {
    ts := s.now, source := sourceId det inst, cls := BitVec.ofNat 2 cls, deg := s.tb.degraded, inj := inj, seqPend := true, code := code, syndrome := syn, addr := addr }
  if cls = 2 then ((s.nmeFatal.route place det r).captureFatal r) else s.route place det r

-- fault injection (R499)

/-- An event at an injection point: whether the injection in force fires on it, its pattern, and the state after. -/
def State.inject (s : State) (det inst : Nat) (addr : Nat) : Option Nat × State :=
  let sel := s.rd .fltInjSel []
  if s.flt.injMode != 0 && fld sel 0 6 == det && fld sel 6 10 == inst &&
      (!bitOf sel 25 || s.rd64 .fltInjAddr [] == addr) then
    let s := { s with flt := { s.flt with
      injFired := true,
      injFires := if s.flt.injFires == 0xFFFF then 0xFFFF else s.flt.injFires + 1,
      injMode := if s.flt.injMode == 1 then 0 else s.flt.injMode } }
    (some (s.rd64 .fltInjPat []), s.count (cn 15 4) hub det 1)
  else (none, s)

/-- The domain of a detector's instance (R488); none for AON. -/
def injDomain (det inst : Nat) : Option Nat :=
  match det with
  | 0 => some (domLG (inst / 112) (inst % 112 / 7))
  | 2 => some (domNBC inst)
  | 3 => some (domFBC (inst / 4))
  | 4 => some domSEC
  | 5 => some (domFCA (inst / 256))
  | 6 | 7 => some domLMP
  | 8 | 14 | 20 => some (domBRG inst)
  | 9 => some (domBRG (inst / 2))
  | 10 | 11 | 21 => some (if inst < 4 then domBRG inst else domSPN)
  | 12 | 16 => some inst
  | 13 | 15 => none
  | 17 => some (domFBC inst)
  | 18 | 19 => some domCFG
  | 23 => some domPCI
  | _ => some domSPN

/-- A continuous injection ends when its instance's domain goes off (R499). -/
def State.injectEnds (s : State) (dom : Nat) : State :=
  let sel := s.rd .fltInjSel []
  if s.flt.injMode = 2 ∧ injDomain (fld sel 0 6) (fld sel 6 10) = some dom then { s with flt := { s.flt with injMode := 0 } } else s

-- the package

/-- The package runs at FL2 (R352, R353). -/
def State.fl2 (s : State) : Bool := s.brg.level == 2

/-- The running profile is DUSK (R431). -/
def State.dusk (s : State) : Bool := s.pw.running == 2

/-- die_state of a die (R452), two bits: 0 OFF, 1 START … as 16_startup_and_reset gives. -/
def State.dieState (s : State) (d : Nat) : Nat := fld s.su.dieState (2 * d) 2

/-- IDCODE (R3, R439): the version reads 0 until the package level is fixed. -/
def State.idcodeWord (s : State) : Nat :=
  let b0 (d : Nat) : Bool := (((s.bridge d).firstWord.getD 0).toNat % 256) == 0xB0
  let all (v : Bool) : Bool := (List.range 4).all fun d => b0 d == v
  let ver : Nat := if s.brg.level = 0 then 0 else if all false then 1 else if all true then 2 else 3
  ver * 0x10000000 + 0x04512C6B

-- packets in flight (R377)

/-- Packets of the epoch that is not in use that are in flight, by their last flits (R377). -/
def State.oldPackets (s : State) : Nat := (s.noc.flits.filter fun x => x.flit.last && x.flit.epoch != s.noc.active).length

/-- The die in whose BRG domain a flit waits, or whose bridge it waits for at the hub. -/
def NocIn.die? : NocIn → Option Nat
  | .port d _ | .mesh d _ _ _ | .up d | .down d => some d
  | .spine _ | .switch _ => none

/-- A die's flits, and those that wait for its bridge, go with its domain (R380). -/
def State.dropFlits (s : State) (d : Nat) : State :=
  { s with noc := { s.noc with flits := s.noc.flits.filter fun x => x.at_.die? != some d } }

end Sys2Proof.Machine
end

