-- ==== Sys2Proof/Machine/Crypto.lean ====
section
/-! DEFINITION. The cryptographic functions that the manual names by their standards: SHA-384 and HMAC (FIPS 180-4, FIPS 198-1),
AES-256 (FIPS 197), its GCM (NIST SP 800-38D) and its key unwrap (SP 800-38F); R459–R462, R516 (PRESUMED: the manual gives the
names, the standards the functions; log entry 9). -/

namespace Sys2Proof.Machine

-- SHA-384

/-- The greatest n of at most b more bits above acc whose k-th power does not pass v, found bit by bit. -/
def rootBits (k v : Nat) : Nat → Nat → Nat
  | 0, acc => acc
  | b + 1, acc => rootBits k v b (if (acc + 2 ^ b) ^ k ≤ v then acc + 2 ^ b else acc)

/-- The first 64 bits of the fraction of p's k-th root. -/
def rootFraction (k p : Nat) : BitVec 64 := BitVec.ofNat 64 (rootBits k (p * 2 ^ (64 * k)) 70 0)

/-- The primes below 410: the first 80. -/
def firstPrimes : List Nat :=
  (List.range 410).filter fun n => decide (1 < n) && (List.range 20).all fun d => d < 2 || n % d != 0 || n == d

/-- The round constants of SHA-384: FIPS 180-4 takes them from the cube roots of the first 80 primes. -/
def shaK : List (BitVec 64) := firstPrimes.map (rootFraction 3)

/-- The initial hash value of SHA-384: from the square roots of the ninth to the sixteenth prime. -/
def sha384Init : List (BitVec 64) := ((firstPrimes.drop 8).take 8).map (rootFraction 2)

/-- Bytes as one number, most significant first. -/
def beNat (l : List Byte) : Nat := l.foldl (fun n b => 256 * n + b.toNat) 0

/-- A list cut into chunksOf of k. -/
def chunksOf {α : Type} (k : Nat) : Nat → List α → List (List α)
  | 0, _ => []
  | n + 1, l => l.take k :: chunksOf k n (l.drop k)

/-- The padding of a message of n bytes: a one bit, zeros, and the length in bits as 16 bytes. -/
def shaPad (n : Nat) : List Byte :=
  [0x80] ++ List.replicate ((239 - n % 128) % 128) 0 ++ (bytesOf (8 * n) 16).reverse

/-- The exclusive or of a word rotated right by each amount. -/
def rotXor (x : BitVec 64) (ns : List Nat) : BitVec 64 := (ns.map x.rotateRight).foldl (· ^^^ ·) 0

/-- The message schedule: w holds the last 16 words, newest first; n more are made. -/
def shaMore : Nat → List (BitVec 64) → List (BitVec 64)
  | 0, w => w
  | n + 1, w =>
    let x := w.getD 1 0
    let y := w.getD 14 0
    let s1 := rotXor x [19, 61] ^^^ (x >>> 6)
    let s0 := rotXor y [1, 8] ^^^ (y >>> 7)
    shaMore n ((s1 + w.getD 6 0 + s0 + w.getD 15 0) :: w)

/-- One round on the working variables, numbered 0–7: each moves up one place, and 0 and 4 take the new sums. -/
def shaRound (v : List (BitVec 64)) (kw : BitVec 64 × BitVec 64) : List (BitVec 64) :=
  let at_ (i : Nat) : BitVec 64 := v.getD i 0
  let choose := at_ 6 ^^^ (at_ 4 &&& (at_ 5 ^^^ at_ 6))
  let most := (at_ 0 &&& (at_ 1 ||| at_ 2)) ||| (at_ 1 &&& at_ 2)
  let add := at_ 7 + rotXor (at_ 4) [14, 18, 41] + choose + kw.1 + kw.2
  (add + rotXor (at_ 0) [28, 34, 39] + most) :: (v.take 3 ++ (at_ 3 + add) :: (v.drop 4).take 3)

/-- One block of 128 bytes: 80 rounds, and the hash value added. -/
def shaBlock (h : List (BitVec 64)) (block : List Byte) : List (BitVec 64) :=
  let w := (shaMore 64 ((chunksOf 8 16 block).map fun l => BitVec.ofNat 64 (beNat l)).reverse).reverse
  List.zipWith (· + ·) h ((shaK.zip w).foldl shaRound h)

/-- SHA-384. -/
def sha384 (m : List Byte) : List Byte :=
  let l := m ++ shaPad m.length
  let h := (chunksOf 128 (l.length / 128) l).foldl shaBlock sha384Init
  (h.take 6).flatMap fun x => (bytesOf x.toNat 8).reverse

/-- HMAC-SHA-384. -/
def hmac384 (key m : List Byte) : List Byte :=
  let k0 := if 128 < key.length then sha384 key else key
  let k := k0 ++ List.replicate (128 - k0.length) 0
  sha384 ((k.map fun b => b ^^^ 0x5C) ++ sha384 ((k.map fun b => b ^^^ 0x36) ++ m))

-- AES-256

/-- The S-box, a row of 16 bytes to a number, its first byte most significant. -/
def aesSbox : List Nat :=
  [0x637c777bf26b6fc53001672bfed7ab76,
   0xca82c97dfa5947f0add4a2af9ca472c0,
   0xb7fd9326363ff7cc34a5e5f171d83115,
   0x04c723c31896059a071280e2eb27b275,
   0x09832c1a1b6e5aa0523bd6b329e32f84,
   0x53d100ed20fcb15b6acbbe394a4c58cf,
   0xd0efaafb434d338545f9027f503c9fa8,
   0x51a3408f929d38f5bcb6da2110fff3d2,
   0xcd0c13ec5f974417c4a77e3d645d1973,
   0x60814fdc222a908846eeb814de5e0bdb,
   0xe0323a0a4906245cc2d3ac629195e479,
   0xe7c8376d8dd54ea96c56f4ea657aae08,
   0xba78252e1ca6b4c6e8dd741f4bbd8b8a,
   0x703eb5664803f60e613557b986c11d9e,
   0xe1f8981169d98e949b1e87e9ce5528df,
   0x8ca1890dbfe6426841992d0fb054bb16]

/-- The inverse S-box, likewise. -/
def aesInvSbox : List Nat :=
  [0x52096ad53036a538bf40a39e81f3d7fb,
   0x7ce339829b2fff87348e4344c4dee9cb,
   0x547b9432a6c2233dee4c950b42fac34e,
   0x082ea16628d924b2765ba2496d8bd125,
   0x72f8f66486689816d4a45ccc5d65b692,
   0x6c704850fdedb9da5e154657a78d9d84,
   0x90d8ab008cbcd30af7e45805b8b34506,
   0xd02c1e8fca3f0f02c1afbd0301138a6b,
   0x3a9111414f67dcea97f2cfcef0b4e673,
   0x96ac7422e7ad3585e2f937e81c75df6e,
   0x47f11a711d29c5896fb7620eaa18be1b,
   0xfc563e4bc6d279209adbc0fe78cd5af4,
   0x1fdda8338807c731b11210592780ec5f,
   0x60517fa919b54a0d2de57a9f93c99cef,
   0xa0e03b4dae2af5b0c8ebbb3c83539961,
   0x172b047eba77d626e169146355210c7d]

/-- A table's byte for x. -/
def boxAt (t : List Nat) (x : Byte) : Byte := BitVec.ofNat 8 (t.getD (x.toNat / 16) 0 / 256 ^ (15 - x.toNat % 16))

/-- x times the byte y in AES's field. -/
def xtime (x : Byte) : Byte := (x <<< 1) ^^^ (if x.msb then 0x1B else 0)

/-- A product in AES's field, by the low four bits of n. -/
def aesMul (n : Nat) (x : Byte) : Byte :=
  let t (k : Nat) (y : Byte) : Byte := if Nat.testBit n k then y else 0
  t 0 x ^^^ t 1 (xtime x) ^^^ t 2 (xtime (xtime x)) ^^^ t 3 (xtime (xtime (xtime x)))

/-- Two lists of bytes, added. -/
def xorBytes (a b : List Byte) : List Byte := List.zipWith (fun x y => x ^^^ y) a b

/-- The key schedule: w holds the last eight words, newest first; the words from number i on, n of them. -/
def aesWords : Nat → Nat → List (List Byte) → List (List Byte)
  | 0, _, w => w
  | n + 1, i, w =>
    let t := w.getD 0 []
    let t :=
      if i % 8 = 0 then xorBytes ((t.drop 1 ++ t.take 1).map (boxAt aesSbox)) [BitVec.ofNat 8 (2 ^ (i / 8 - 1)), 0, 0, 0]
      else if i % 8 = 4 then t.map (boxAt aesSbox)
      else t
    aesWords n (i + 1) (xorBytes (w.getD 7 []) t :: w)

/-- The 15 round keys of a 32-byte key. -/
def aesKeys (key : List Byte) : List (List Byte) := (chunksOf 4 15 (aesWords 52 8 (chunksOf 4 8 key).reverse).reverse).map List.flatten

/-- The state's rows shifted by k places a row: byte 4c + r comes from column c + k·r. -/
def aesShift (k : Nat) (s : List Byte) : List Byte := (List.range 16).map fun i => s.getD ((i + 4 * k * (i % 4)) % 16) 0

/-- A column mixed by the circulant matrix whose first row is m. -/
def aesMix (m : List Nat) (s : List Byte) : List Byte :=
  (List.range 16).map fun i => (List.range 4).foldl (fun x j => x ^^^ aesMul (m.getD ((j + 4 - i % 4) % 4) 0) (s.getD (i / 4 * 4 + j) 0)) 0

/-- A block encrypted with its round keys. -/
def aesEncrypt (ks : List (List Byte)) (b : List Byte) : List Byte :=
  let s := ((ks.drop 1).take 13).foldl (fun s k => xorBytes (aesMix [2, 3, 1, 1] (aesShift 1 (s.map (boxAt aesSbox)))) k)
    (xorBytes b (ks.getD 0 []))
  xorBytes (aesShift 1 (s.map (boxAt aesSbox))) (ks.getD 14 [])

/-- A block decrypted with its round keys. -/
def aesDecrypt (ks : List (List Byte)) (b : List Byte) : List Byte :=
  let s := ((ks.drop 1).take 13).reverse.foldl (fun s k => aesMix [14, 11, 13, 9] (xorBytes ((aesShift 3 s).map (boxAt aesInvSbox)) k))
    (xorBytes b (ks.getD 14 []))
  xorBytes ((aesShift 3 s).map (boxAt aesInvSbox)) (ks.getD 0 [])

-- GCM

/-- A product in GCM's field: bits are numbered from the most significant. -/
def gcmMul (x y : BitVec 128) : BitVec 128 :=
  (upTo (fun i (z : BitVec 128 × BitVec 128) =>
    (if x.getMsbD i then z.1 ^^^ z.2 else z.1, (z.2 >>> 1) ^^^ (if z.2.getLsbD 0 then 0xE1000000000000000000000000000000 else 0))) 128 (0, y)).1

/-- Bytes with zeros after them up to whole blocks. -/
def pad16 (l : List Byte) : List Byte := l ++ List.replicate ((16 - l.length % 16) % 16) 0

/-- GHASH of whole blocks under h. -/
def ghash (h : BitVec 128) (l : List Byte) : BitVec 128 :=
  (chunksOf 16 (l.length / 16) l).foldl (fun y b => gcmMul (y ^^^ BitVec.ofNat 128 (beNat b)) h) 0

/-- A block of GCM as bytes. -/
def block16 (x : BitVec 128) : List Byte := (bytesOf x.toNat 16).reverse

/-- The counter block n places on. -/
def ctrBlock (j : List Byte) (n : Nat) : List Byte := j.take 12 ++ (bytesOf ((beNat (j.drop 12) + n) % 2 ^ 32) 4).reverse

/-- The first counter block of an IV. -/
def gcmJ0 (h : BitVec 128) (iv : List Byte) : List Byte :=
  if iv.length = 12 then iv ++ [0, 0, 0, 1]
  else block16 (ghash h (pad16 iv ++ (bytesOf (8 * iv.length) 16).reverse))

/-- Counter mode from the block after j. -/
def ctrCrypt (ks : List (List Byte)) (j data : List Byte) : List Byte :=
  ((chunksOf 16 ((data.length + 15) / 16) data).zipIdx 1).flatMap fun x => xorBytes x.1 (aesEncrypt ks (ctrBlock j x.2))

/-- The GCM tag of a ciphertext and its additional data. -/
def gcmTag (ks : List (List Byte)) (iv aad data : List Byte) : List Byte :=
  let h := BitVec.ofNat 128 (beNat (aesEncrypt ks (List.replicate 16 0)))
  let s := ghash h (pad16 aad ++ pad16 data ++ (bytesOf (8 * aad.length) 8).reverse ++ (bytesOf (8 * data.length) 8).reverse)
  xorBytes (block16 s) (aesEncrypt ks (gcmJ0 h iv))

/-- AES-256-GCM decryption of a body that ends in its 16-byte tag; none where the tag fails. -/
def gcmOpen (key iv aad body : List Byte) : Option (List Byte) :=
  let ks := aesKeys key
  let data := body.take (body.length - 16)
  let h := BitVec.ofNat 128 (beNat (aesEncrypt ks (List.replicate 16 0)))
  if gcmTag ks iv aad data = body.drop (body.length - 16) then some (ctrCrypt ks (gcmJ0 h iv) data) else none

-- key unwrap

/-- The steps of KW from number t down to 1, on the integrity register and n blocks. -/
def unwrapSteps (ks : List (List Byte)) (n : Nat) : Nat → List Byte × List (List Byte) → List Byte × List (List Byte)
  | 0, x => x
  | t + 1, (a, r) =>
    let i := t % n
    let b := aesDecrypt ks (xorBytes a (bytesOf (t + 1) 8).reverse ++ r.getD i [])
    unwrapSteps ks n t (b.take 8, r.set i (b.drop 8))

/-- AES key unwrap (KW); none where the integrity check fails. -/
def keyUnwrap (key c : List Byte) : Option (List Byte) :=
  let n := c.length / 8 - 1
  let (a, r) := unwrapSteps (aesKeys key) n (6 * n) (c.take 8, chunksOf 8 n (c.drop 8))
  if a = List.replicate 8 0xA6 then some r.flatten else none

end Sys2Proof.Machine
end

