-- ==== Sys2Proof/Machine/Buffer.lean ====
section
/-! DEFINITION. Near and far buffer (06_deep_buffer): the address map, the region table, page and word codes, reads and
writes of storage with failed granules, the raw and hit rings, FILL, SCRUB_RANGE, REPAIR and the reservations. -/

namespace Sys2Proof.Machine

-- the address map (R143)

abbrev stackBytes : Nat := 0x1800000000
abbrev nearEnd : Nat := 0x6000000000
abbrev farBase (h : Nat) : Nat := (h + 1) * 0x10000000000
abbrev itemBase : Nat := 0x30000000000
abbrev itemEnd : Nat := 0x30040000000
abbrev regBase : Nat := 0xFF0000000000
abbrev regEnd : Nat := 0xFF0004000000
abbrev mib : Nat := 1048576

/-- Page-code strength by tcode (R177). -/
def strength (tcode : Nat) : Nat :=
  match tcode with
  | 0 => 8
  | 1 => 16
  | 2 => 24
  | 3 => 32
  | 4 => 48
  | _ => 64

/-- Region entry r: entries 0 and 1 are fixed (R145). -/
def State.regionAt (s : State) (r : Nat) : Region :=
  if r = 0 then { base := 0x5FA00, size := 1536, type := 1, tcode := 3, valid := true }
  else if r = 1 then { base := 0x5F9FC, size := 4, type := 2, tcode := 3, valid := true }
  else s.region r

def Region.lo (r : Region) : Nat := r.base.toNat * mib
def Region.bytes (r : Region) : Nat := r.size.toNat * mib
def Region.hi (r : Region) : Nat := r.lo + r.bytes

/-- A valid region holds an address. -/
def Region.covers (r : Region) (a : Nat) : Bool := r.valid && decide (r.lo ≤ a ∧ a < r.hi)

/-- Bytes of a region below its parity area (R160). -/
def Region.dataBytes (r : Region) : Nat := if r.tcode.toNat < 4 then r.bytes else r.bytes - r.bytes / 32

/-- The region entry that holds an address. -/
def State.regionOf (s : State) (a : Nat) : Option Nat :=
  (List.range 32).find? (fun r => (s.regionAt r).covers a)

/-- The far half's state. -/
def State.half (s : State) (h : Nat) : FarHalf := if h = 0 then s.dbm.half0 else s.dbm.half1

/-- Populated capacity of a far half in bytes (R163). -/
def State.farCap (s : State) (h : Nat) : Nat :=
  let f := s.half h
  if f.mismatch || !f.trained then 0 else 4 * f.dimms.toNat * (32 * 2 ^ f.size.toNat) * 1073741824

/-- Item window size in bytes (R156). -/
def State.itemBytes (s : State) : Nat := s.rf .dbmEvtCtrl [] 0 11 * 1024

/-- Where an address leads. -/
inductive Place where
  | near (stack region : Nat)
  | far (half region : Nat)
  | item (g : Nat)
  | regs (off : Nat)
  | unmapped
  deriving DecidableEq, Repr

/-- The address map in force (R143, R151, R156, R160, R585). -/
def State.place (s : State) (a : Nat) : Place :=
  if a < nearEnd then
    match s.regionOf a with
    | none => .unmapped
    | some r =>
      let rg := s.regionAt r
      let n := a / stackBytes
      if rg.dataBytes ≤ a - rg.lo then .unmapped
      else if (rg.type = 3 ∨ rg.type = 4) ∧ s.live (domNBC n) = false then .unmapped
      else .near n r
  else if farBase 0 ≤ a ∧ a < farBase 2 then
    let h := if a < farBase 1 then 0 else 1
    match s.regionOf a with
    | none => .unmapped
    | some r => if a - farBase h < s.farCap h then .far h r else .unmapped
  else if itemBase ≤ a ∧ a < itemEnd then
    let g := (a - itemBase) / 0x1000000
    if (s.slot g).state ≠ 0 ∧ (a - itemBase) % 0x1000000 < s.itemBytes then .item g else .unmapped
  else if regBase ≤ a ∧ a < regEnd then .regs (a - regBase)
  else .unmapped

-- results by byte (R173)

/-- Why a part of a request is refused: the rights of its class (R185), a retired or an empty key slot (R189), a
speculative item's limits (R125), or a condemned block (R194). -/
inductive Denied where
  | rights
  | retired
  | key
  | spec
  | condemned
  deriving DecidableEq, Repr

/-- What one byte of a request meets: good storage, a failed granule of storage, a sealed block whose tag check failed, no
mapping, a refusal, or a domain that is off or fenced. -/
inductive ByteRes where
  | ok (b : Byte)
  | bad
  | badBlock
  | unmapped
  | refused (w : Denied)
  | dark
  deriving DecidableEq, Repr

/-- No mapping, or a refusal: both are answered as an unmapped access (R144, R185). -/
def ByteRes.denied : ByteRes → Bool
  | .unmapped => true
  | .refused _ => true
  | _ => false

/-- A failed granule (R173, R189). -/
def ByteRes.failed : ByteRes → Bool
  | .bad => true
  | .badBlock => true
  | _ => false

/-- A byte for the requester. -/
def ByteRes.byte? : ByteRes → Option Byte
  | .ok b => some b
  | _ => none

/-- The pieces of a request, cut at 2 KiB pages in near space and 64-byte bursts elsewhere: (address, length). -/
def pieces : Nat → Nat → Nat → List (Nat × Nat)
  | 0, _, _ => []
  | fuel + 1, a, len =>
    if len = 0 then []
    else
      let g := if a < nearEnd then 2048 else 64
      let n := min len (g - a % g)
      (a, n) :: pieces fuel (a + n) (len - n)

/-- The pieces of [a, a + len). -/
def piecesOf (a len : Nat) : List (Nat × Nat) := pieces (len / 64 + 2) a len

/-- The parts of a request, cut at 2 KiB pages in near space and at the 256-byte blocks of R180 elsewhere. -/
def parts : Nat → Nat → Nat → List (Nat × Nat)
  | 0, _, _ => []
  | fuel + 1, a, len =>
    if len = 0 then []
    else
      let g := if a < nearEnd then 2048 else 256
      let n := min len (g - a % g)
      (a, n) :: parts fuel (a + n) (len - n)

/-- The parts of [a, a + len). -/
def partsOf (a len : Nat) : List (Nat × Nat) := parts (len / 256 + 2) a len

/-- k free bytes (log entry 1). -/
def State.freeBytes (s : State) : Nat → List Byte × State
  | 0 => ([], s)
  | k + 1 =>
    let (b, s) := s.free 8
    let (bs, s) := s.freeBytes k
    (b :: bs, s)

-- near pages (R159–R162)

/-- Bits in error that `Dbm.stuck` holds for a unit, whether the stored address parity is wrong, and whether an injection
put them there. -/
def State.stuckBits (s : State) (u : Nat) : Nat := Tbl.get 0 s.dbm.stuck u % 2 ^ 20
def State.stuckParity (s : State) (u : Nat) : Bool := Tbl.get 0 s.dbm.stuck u / 2 ^ 20 % 2 == 1
def State.stuckInj (s : State) (u : Nat) : Bool := Tbl.get 0 s.dbm.stuck u / 2 ^ 21 % 2 == 1
def State.setStuck (s : State) (u v : Nat) : State :=
  { s with dbm := { s.dbm with stuck := Tbl.set 0 s.dbm.stuck u v } }

/-- Bit errors that the environment reports for a near page, and whether a pattern beyond t + 1 is detected. -/
def nearErrs (page : Nat) : MemErrs → Nat × Bool
  | [] => (0, true)
  | (a, .nearBits n d) :: t =>
    let (m, e) := nearErrs page t
    if a / 2048 = page ∧ a < nearEnd then (n + m, d && e) else (m, e)
  | _ :: t => nearErrs page t

/-- The page and mark that the environment reports a near page's tag to decode to. -/
def nearTagErr (page : Nat) : MemErrs → Option (BitVec 28 × BitVec 3)
  | [] => none
  | (a, .nearTag p m) :: t => if a / 2048 = page ∧ a < nearEnd then some (p, m) else nearTagErr page t
  | _ :: t => nearTagErr page t

/-- How a page or word reads. -/
inductive UnitRes where
  | good
  | failed
  | wild
  deriving DecidableEq, Repr

/-- The stack of a page, and its strength. -/
def stackOfPage (page : Nat) : Nat := page * 2048 / stackBytes

/-- Strength of the region that holds a page. -/
def State.pageT (s : State) (page : Nat) : Nat :=
  match s.regionOf (page * 2048) with
  | some r => strength (s.regionAt r).tcode.toNat
  | none => 32

/-- A detector of memory errors counts, for its Glint or at once (R126), and offers its record. -/
def State.memFault (s : State) (g : Option Gid) (name inst det cls code : Nat) (datum addr : Nat) (inj : Bool) : State :=
  (s.countErr g name hub inst 1).offer .hub det inst cls (BitVec.ofNat 8 code) (Config.syndrome det cls datum)
    (BitVec.ofNat 48 addr) inj

/-- A page has been written since its stack was cleared (R162). -/
def State.pageWritten (s : State) (page : Nat) : Bool :=
  (Tbl.get {} s.dbm.pages page).t != 0 && bitOf s.dbm.cleared (stackOfPage page)

/-- The tag of a page, as it decodes, names the page and carries the mark 0b101 (R159). -/
def State.tagOk (s : State) (page : Nat) (errs : MemErrs) : Bool :=
  let c := Tbl.get {} s.dbm.pages page
  (nearTagErr page errs).getD (c.page, c.mark) == (BitVec.ofNat 28 (page % 50331648), (5 : BitVec 3))

/-- A near page is read and decoded (R159, R161, R162): unwritten, written under another strength, clean, corrected, or in
error beyond t; a page whose decoded tag is wrong is uncorrectable. -/
def State.readPage (s : State) (g : Option Gid) (page : Nat) (errs : MemErrs) : UnitRes × State :=
  let n := stackOfPage page
  let a := page * 2048
  let t := s.pageT page
  let (ne, found) := nearErrs page errs
  let e := ne + s.stuckBits page
  let inj := s.stuckInj page
  let ue := (UnitRes.failed, s.memFault g (cn 4 4) n 2 1 (Config.detCode 2 1).toNat e a inj)
  if s.pageWritten page = false then (.failed, s.memFault g (cn 4 5) n 2 1 1 0 a false)
  else if (Tbl.get {} s.dbm.pages page).t ≠ t then ue
  else if t < e then (if e = t + 1 ∨ found = true then ue else (.wild, s))
  else if s.tagOk page errs = false then ue
  else if e = 0 then (.good, s)
  else (.good, s.memFault g (cn 4 3) n 2 0 (Config.detCode 2 0).toNat e a inj)

/-- A page stored whole with a fresh code (R161): the pattern of an injection on it stays stored (R499). -/
def State.encodePage (s : State) (page : Nat) : State :=
  let s := { s with dbm := { s.dbm with pages := Tbl.set {} s.dbm.pages page (pageCode (s.pageT page) page) } }
  match s.inject 2 (stackOfPage page) (page * 2048) with
  | (none, s) => s.setStuck page 0
  | (some p, s) => s.setStuck page (popCount p 64 + 2 ^ 21)

/-- Bytes of one page stored, and the page encoded. -/
def State.storeNear (s : State) (a : Nat) (bs : List Byte) : State :=
  (({ s with mem := Memory.putAll s.mem a bs }).encodePage (a / 2048)).snoopWrite a bs.length

-- far words (R163, R164)

/-- The unit key of a far word. -/
def farUnit (a : Nat) : Nat := 2 ^ 40 + a / 4

/-- The channel of a far address (R163): 256-byte blocks rotate over the half's four channels. -/
def farChannel (a : Nat) : Nat := (if a < farBase 1 then 0 else 4) + a % 0x10000000000 / 256 % 4

/-- What the environment reports for a far word: errors, and wrong address parity. -/
def farErrs (word : Nat) : MemErrs → Nat × Bool
  | [] => (0, false)
  | (a, e) :: t =>
    let (m, p) := farErrs word t
    if a / 4 = word ∧ nearEnd ≤ a then
      match e with
      | .farOne => (m + 1, p)
      | .farTwo => (m + 2, p)
      | .farParity => (m, true)
      | .nearBits _ _ | .nearTag _ _ => (m, p)
    else (m, p)

/-- A far word is read and checked (R164); where both the address parity is wrong and two bits are in error, the parity alone
is reported (log entry 156). -/
def State.readWord (s : State) (g : Option Gid) (a : Nat) (errs : MemErrs) : UnitRes × State :=
  let u := farUnit a
  let e := (farErrs (a / 4) errs).1 + s.stuckBits u
  let p := (farErrs (a / 4) errs).2 || s.stuckParity u
  let inj := s.stuckInj u
  let wa := a / 4 * 4
  if p then (.failed, s.memFault g (cn 4 8) (farChannel a) 3 1 2 e wa inj)
  else if e = 0 then (if Tbl.get false s.dbm.farWords (a / 4) then .good else .wild, s)
  else if e = 1 then (.good, s.memFault g (cn 4 6) (farChannel a) 3 0 (Config.detCode 3 0).toNat e wa inj)
  else if e = 2 then (.failed, s.memFault g (cn 4 7) (farChannel a) 3 1 (Config.detCode 3 1).toNat e wa inj)
  else
    -- more than two errors: what a (39,32) code reports is open
    let (f, s) := s.free 1
    if f = 1 then (.failed, s.memFault g (cn 4 7) (farChannel a) 3 1 (Config.detCode 3 1).toNat e wa inj) else (.wild, s)

/-- A far word written: its contents are valid, and an injection's pattern stays stored (R499). -/
def State.encodeWord (s : State) (a : Nat) : State :=
  let s := { s with dbm := { s.dbm with farWords := Tbl.set false s.dbm.farWords (a / 4) true } }
  match s.inject 3 (farChannel a) (a / 4 * 4) with
  | (none, s) => s.setStuck (farUnit a) 0
  | (some p, s) => s.setStuck (farUnit a) (popCount p 39 + 2 ^ 20 * (p / 2 ^ 39 % 2) + 2 ^ 21)

/-- The words that [a, a + n) touches: (word address, first byte, bytes). -/
def wordsOf (a n : Nat) : List (Nat × Nat × Nat) :=
  ((List.range (n / 4 + 2)).map fun i =>
    let w := (a / 4 + i) * 4
    (w, max a w, min (a + n) (w + 4) - max a w)).filter fun e => decide (0 < e.2.2)

/-- Far words read in order: each word's bytes, and whether every word was readable. -/
def State.readWords (s : State) (g : Option Gid) (errs : MemErrs) : List (Nat × Nat × Nat) → List Byte × Bool × State
  | [] => ([], true, s)
  | (w, f, n) :: t =>
    let (u, s) := s.readWord g w errs
    let (bs, s) := match u with
      | .wild => s.freeBytes n
      | _ => (Memory.bytes s.mem f n, s)
    let (rest, ok, s) := s.readWords g errs t
    (bs ++ rest, ok && u != .failed, s)

-- reads and writes by piece

/-- One piece read: its bytes as the requester meets them. -/
def State.readPiece (s : State) (g : Option Gid) (a n : Nat) (errs : MemErrs) : List ByteRes × State :=
  match s.place a with
  | .near st _ =>
    if s.live (domNBC st) = false then (List.replicate n .dark, s)
    else
      match s.readPage g (a / 2048) errs with
      | (.good, s) => ((Memory.bytes s.mem a n).map .ok, s)
      | (.failed, s) => (List.replicate n .bad, s)
      | (.wild, s) => let (bs, s) := s.freeBytes n; (bs.map .ok, s)
  | .far h _ =>
    if s.live (domFBC h) = false then (List.replicate n .dark, s)
    else
      let (bs, ok, s) := s.readWords g errs (wordsOf a n)
      if ok then (bs.map .ok, s) else (List.replicate n .bad, s)
  | .item w => ((Memory.bytes (s.slot w).items ((a - itemBase) % 0x1000000) n).map .ok, s)
  | _ => (List.replicate n .unmapped, s)

/-- A request's pieces read in order. -/
def State.readPieces (s : State) (g : Option Gid) (errs : MemErrs) : List (Nat × Nat) → List ByteRes × State
  | [] => ([], s)
  | (a, n) :: t =>
    let (x, s) := s.readPiece g a n errs
    let (y, s) := s.readPieces g errs t
    (x ++ y, s)

/-- What a request met that is counted once for the whole of it (R125, R144, R185, R189). -/
def State.countDenied (s : State) (l : List ByteRes) : State :=
  let s := if l.contains .unmapped then s.vio 62 else s
  let s := if l.contains (.refused .rights) then s.vio 64 else s
  let s := if l.contains (.refused .retired) then s.vio 65 else s
  let s := if l.contains (.refused .key) then s.vio 66 else s
  if l.contains (.refused .spec) then s.count (cn 3 8) hub 0 1 else s

/-- Whole far words and part words of a write, in order; a part word reads its old bytes first (R164). The result tells
whether every word was written. -/
def State.writeWords (s : State) (g : Option Gid) (errs : MemErrs) (a : Nat) (bs : List Byte) :
    List (Nat × Nat × Nat) → Bool × State
  | [] => (true, s)
  | (w, f, n) :: t =>
    let new := (bs.drop (f - a)).take n
    if n = 4 then
      ({ s with mem := Memory.putAll s.mem f new }.encodeWord w).writeWords g errs a bs t
    else
      match s.readWord g w errs with
      | (.failed, s) => let (_, s) := s.writeWords g errs a bs t; (false, s)
      | (.wild, s) =>
        let (old, s) := s.freeBytes 4
        let m := Memory.putAll (Memory.putAll s.mem w old) f new
        ({ s with mem := m }.encodeWord w).writeWords g errs a bs t
      | (.good, s) => ({ s with mem := Memory.putAll s.mem f new }.encodeWord w).writeWords g errs a bs t

/-- One result for each byte of a piece. -/
def sameRes (n : Nat) (r : ByteRes) : List ByteRes := List.replicate n r

/-- One piece written (R156, R161, R164). -/
def State.writePiece (s : State) (r : Req) (a : Nat) (bs : List Byte) (errs : MemErrs) : List ByteRes × State :=
  let n := bs.length
  match s.place a with
  | .near st _ =>
    if s.live (domNBC st) = false then (sameRes n .dark, s)
    else if n = 2048 then (bs.map .ok, s.storeNear a bs)
    else
      match s.readPage r.spec (a / 2048) errs with
      | (.good, s) => (bs.map .ok, s.storeNear a bs)
      | (.failed, s) => (sameRes n .bad, s)
      | (.wild, s) =>
        let (old, s) := s.freeBytes 2048
        (bs.map .ok, { s with mem := Memory.putAll s.mem (a / 2048 * 2048) old }.storeNear a bs)
  | .far h _ =>
    if s.live (domFBC h) = false then (sameRes n .dark, s)
    else
      let (ok, s) := s.writeWords r.spec errs a bs (wordsOf a n)
      let s := s.snoopWrite a n
      if ok then (bs.map .ok, s) else (sameRes n .bad, s)
  | .item w =>
    let sl := s.slot w
    let items := Memory.putAll sl.items ((a - itemBase) % 0x1000000) bs
    (bs.map .ok, (s.setSlot w { sl with items := items }).snoopWrite a n)
  | _ => (sameRes n .unmapped, s)

/-- A write's pieces in order. -/
def State.writePieces (s : State) (r : Req) (errs : MemErrs) (base : Nat) (bs : List Byte) :
    List (Nat × Nat) → List ByteRes × State
  | [] => ([], s)
  | (a, n) :: t =>
    let (x, s) := s.writePiece r a ((bs.drop (a - base)).take n) errs
    let (y, s) := s.writePieces r errs base bs t
    (x ++ y, s)

-- the rings (R148–R153)

/-- The segments of a die's raw ring in stack order: (stack, entry). -/
def State.segs (s : State) (d : Nat) : List (Nat × Nat) :=
  (List.range 4).flatMap fun n =>
    ((List.range 32).filter fun r =>
      let g := s.regionAt r
      g.valid && g.type == 3 && g.die.toNat == d && g.lo / stackBytes == n).map fun r => (n, r)

/-- The segments whose stack is in service. -/
def State.liveSegs (s : State) (d : Nat) : List (Nat × Nat) := (s.segs d).filter fun e => s.live (domNBC e.1)

/-- The size S of one segment: its data capacity, below any parity area (R148, R160; log entry 159). -/
def State.segBytes (s : State) (d : Nat) : Nat :=
  match s.segs d with
  | [] => 0
  | (_, r) :: _ => (s.regionAt r).dataBytes

/-- Live size (R150). -/
def State.liveBytes (s : State) (d : Nat) : Nat := s.segBytes d * (s.liveSegs d).length

/-- The raw ring is active (R150). -/
def State.ringActive (s : State) (d : Nat) : Bool :=
  decide (0 < (s.rings d).rawRate.toNat ∧ 262144 < s.liveBytes d)

/-- Retention in µs; 0 while inactive (R150). -/
def State.retention (s : State) (d : Nat) : Nat :=
  if s.ringActive d then (s.liveBytes d - 262144) / (s.rings d).rawRate.toNat else 0

/-- GLT_LIMIT (R129): 5 ms below the smallest retention of the active rings. -/
def State.gltLimit (s : State) : Nat :=
  match ((List.range 4).filter fun d => s.ringActive d).map s.retention with
  | [] => 0
  | r :: t => t.foldl min r - 5000

/-- GLT_DEADLINE follows a limit that has dropped below it (R129). -/
def State.clampDeadline (s : State) : State :=
  let l := s.gltLimit
  if 100 ≤ l ∧ l < s.glint.deadline.toNat then
    { s with glint := { s.glint with deadline := BitVec.ofNat 32 l, clamped := true } }.glintEvent
  else s

/-- The hit ring's entry (R153). -/
def State.hitSeg (s : State) (d : Nat) : Option Nat :=
  (List.range 32).find? fun r => let g := s.regionAt r; g.valid && g.type == 4 && g.die.toNat == d

/-- The hit ring is in service (R153). -/
def State.hitActive (s : State) (d : Nat) : Bool :=
  (s.rings d).hitRate != 0 && match s.hitSeg d with
    | some r => s.live (domNBC ((s.regionAt r).lo / stackBytes))
    | none => false

/-- The gap bit of a raw block set (R149). -/
def RawBlock.withGap (b : RawBlock) (gap : Bool) : RawBlock :=
  if gap then { b with bytes := b.bytes.set 13 ((b.bytes.getD 13 0) ||| 0x20) } else b

/-- Bytes in a die's hold buffer. -/
def DieRings.holdBytes (q : DieRings) : Nat := (q.hold.map fun e => e.1.bytes.length).sum + 16 * q.hitHold.length

/-- The hold buffer of a die, 8 MiB (R372). -/
abbrev holdSize : Nat := 8388608

/-- A raw block arrives at the writer (R149): it waits in the elastic buffer of 256 KiB, or is dropped whole. -/
def State.rawArrive (s : State) (d : Nat) (b : RawBlock) (span : Nat) : State :=
  let q := s.rings d
  let used := (q.elastic.map fun e => e.1.bytes.length).sum
  if s.ringActive d ∧ used + b.bytes.length ≤ 262144 then
    let gap := bitOf q.gapLanes b.lane.toNat
    s.setRings d { q with
      elastic := q.elastic ++ [(b.withGap gap, span)], gapLanes := setBit q.gapLanes b.lane.toNat false }
  else
    (s.setRings d { q with gapLanes := setBit q.gapLanes b.lane.toNat true }).count (cn 4 1) hub d 1

/-- A raw block leaves its die (R372): behind a held bridge it waits in the hold buffer, or is dropped where that is full. -/
def State.rawPush (s : State) (d : Nat) (b : RawBlock) (span : Nat) : State :=
  let q := s.rings d
  let gap := bitOf q.holdGap b.lane.toNat
  if s.dieHeld d || q.hold != [] then
    if q.holdBytes + b.bytes.length ≤ holdSize then
      s.setRings d { q with hold := q.hold ++ [(b.withGap gap, span)], holdGap := setBit q.holdGap b.lane.toNat false }
    else (s.setRings d { q with holdGap := setBit q.holdGap b.lane.toNat true }).count (cn 10 3) d 0 1
  else
    (s.setRings d { q with holdGap := setBit q.holdGap b.lane.toNat false }).rawArrive d (b.withGap gap) span

/-- Held blocks leave for the writer once the bridge is free (R372), as far as the elastic buffer has room. -/
def State.unhold (s : State) (d : Nat) : Nat → State
  | 0 => s
  | fuel + 1 =>
    let q := s.rings d
    match q.hold with
    | [] => s
    | (b, span) :: t =>
      if s.dieHeld d || (s.ringActive d && decide (262144 < (q.elastic.map fun e => e.1.bytes.length).sum + b.bytes.length))
      then s
      else ((s.setRings d { q with hold := t }).rawArrive d b span).unhold d fuel

/-- The 16 bytes of a hit record (R90). -/
def HitRec.bytes (h : HitRec) : List Byte :=
  bytesOf (pack [(0, h.ts.toNat), (64, h.channel.toNat), (77, h.amp.toNat), (93, h.tot.toNat), (104, h.integral.toNat),
    (121, b2n h.uns), (122, b2n h.deg), (123, b2n h.sat), (124, b2n h.long), (125, b2n h.pile), (126, b2n h.pen),
    (127, b2n h.late)]) 16

/-- A hit record arrives at the hit-ring writer (R153). -/
def State.hitArrive (s : State) (d : Nat) (h : HitRec) : State :=
  let q := s.rings d
  if s.hitActive d ∧ q.hitElastic.length < 4096 then s.setRings d { q with hitElastic := q.hitElastic ++ [h] }
  else s.count (cn 4 2) hub d 1

/-- A hit record leaves its die (R372). -/
def State.hitPush (s : State) (d : Nat) (h : HitRec) : State :=
  let q := s.rings d
  if s.dieHeld d || q.hitHold != [] then
    if q.holdBytes + 16 ≤ holdSize then s.setRings d { q with hitHold := q.hitHold ++ [h] } else s.count (cn 10 3) d 0 1
  else s.hitArrive d h

/-- Held hit records leave for the writer once the bridge is free (R372). -/
def State.hitUnhold (s : State) (d : Nat) : Nat → State
  | 0 => s
  | fuel + 1 =>
    let q := s.rings d
    match q.hitHold with
    | [] => s
    | h :: t =>
      if s.dieHeld d || (s.hitActive d && decide (4096 ≤ q.hitElastic.length)) then s
      else ((s.setRings d { q with hitHold := t }).hitArrive d h).hitUnhold d fuel

/-- The write position at which writing of the present 4 MiB of ring space began (R154). -/
def indexCell (pos size : Nat) : Nat := pos - pos % size % 4194304

/-- Index entries after writing at a position: one for each 4 MiB of ring space, from when it was last begun (R154). -/
def indexAt (ix : List (Nat × BitVec 58)) (pos size : Nat) (t : BitVec 58) : List (Nat × BitVec 58) :=
  let p := indexCell pos size
  let ix := ix.filter fun e => decide (p < e.1 + size)
  if ix.any fun e => e.1 == p then ix else (p, t) :: ix

/-- Ring bytes stored at a write position; the pages of a missing segment are skipped (R148, R151). The result is the
position after them, and the (address, length) parts where they lie. -/
def State.ringStore (s : State) (d : Nat) : Nat → Nat → List Byte → (Nat × List (Nat × Nat)) × State
  | 0, pos, _ => ((pos, []), s)
  | _ + 1, pos, [] => ((pos, []), s)
  | fuel + 1, pos, b :: bs =>
    let segs := s.segs d
    let k := segs.length
    let size := k * s.segBytes d
    if size = 0 then ((pos, []), s)
    else
      let o := pos % size
      let j := o / 2048
      match segs[j % k]? with
      | none => ((pos, []), s)
      | some (n, r) =>
        if s.live (domNBC n) = false then s.ringStore d fuel (pos + (2048 - o % 2048)) (b :: bs)
        else
          let m := min (bs.length + 1) (2048 - o % 2048)
          let a := (s.regionAt r).lo + j / k * 2048 + o % 2048
          let ((p, parts), s) := (s.storeNear a ((b :: bs).take m)).ringStore d fuel (pos + m) ((b :: bs).drop m)
          ((p, (a, m) :: parts), s)

/-- The span [ts, ts + span) overlaps the interval [lo, hi), in fine units modulo 2^64 (R122). -/
def overlapsPin (ts : Stamp) (span : Nat) (lo hi : Stamp) : Bool :=
  decide (0 < (hi - ts).toInt ∧ 0 < (ts + BitVec.ofNat 64 span - lo).toInt)

/-- The copy is done with a raw block or a hit record of a die: it is held, or over. -/
def GlintSlot.rawDone (sl : GlintSlot) (d pos : Nat) : Bool :=
  (sl.raws.any fun x => x.1 == d && x.2.1 == pos) || sl.finished.contains (false, d, pos)
def GlintSlot.hitDone (sl : GlintSlot) (d pos : Nat) : Bool :=
  (sl.hits.any fun x => x.1 == d && x.2.1 == pos) || sl.finished.contains (true, d, pos)

/-- The Glints whose copies still need a pinned block of the raw ring lose it when it is overwritten; pins are held until the
slot is FREE again (R123). -/
def State.pinLost (s : State) (d : Nat) (b : RingBlock) : State :=
  upTo (fun g s =>
    let sl := s.slot g
    let overs := overlapsPin b.ts b.span sl.pinLo sl.pinHi
    if sl.state ≠ 0 ∧ overs = true ∧ sl.rawDone d b.pos = false then
      (s.setSlot g { sl with rawLost := true }).count (cn 3 9) hub 0 1
    else s) 64 s

/-- Blocks that the writer has overwritten leave the ring. -/
def State.ringTrim (s : State) (d size : Nat) : State :=
  let q := s.rings d
  let gone := q.blocks.filter fun b => decide (b.pos + size < q.rawPos.toNat)
  let s := s.setRings d { q with blocks := q.blocks.filter fun b => decide (q.rawPos.toNat ≤ b.pos + size) }
  gone.foldl (fun s b => s.pinLost d b) s

/-- The bytes of a raw block, part by part (R148, R154). -/
def State.ringRead (s : State) (g : Option Gid) (errs : MemErrs) : List (Nat × Nat) → List ByteRes × State
  | [] => ([], s)
  | (a, n) :: t =>
    let (x, s) := s.readPiece g a n errs
    let (y, s) := s.ringRead g errs t
    (x ++ y, s)

/-- Raw blocks leave the elastic buffer for the ring, as many bytes as the command names and the rate admits (R149). -/
def State.rawDrain (s : State) (d : Nat) : Nat → Nat → State
  | 0, _ => s
  | fuel + 1, allowance =>
    let q := s.rings d
    match q.elastic with
    | [] => s
    | (b, span) :: t =>
      if s.ringActive d = false then
        -- no live segment left: the block is dropped (R151)
        ((s.setRings d { q with elastic := t, gapLanes := setBit q.gapLanes b.lane.toNat true }).count
          (cn 4 1) hub d 1).rawDrain d fuel allowance
      else if min allowance q.rawRoom < b.bytes.length then s
      else
        let size := (s.segs d).length * s.segBytes d
        let ((p, parts), s) := s.ringStore d 16 q.rawPos.toNat b.bytes
        let blk : RingBlock := {
          pos := q.rawPos.toNat, len := b.bytes.length, parts := parts, lane := b.lane, ts := b.ts, span := span,
          deg := bitOf (b.bytes.getD 13 0) 6 }
        let q := s.rings d
        let s := s.setRings d { q with
          elastic := t, rawPos := BitVec.ofNat 64 p, blocks := q.blocks ++ [blk], rawRoom := q.rawRoom - b.bytes.length,
          rawIndex := indexAt q.rawIndex (p - 1) size s.tb.tick }
        ((s.count (cn 4 0) hub d b.bytes.length).ringTrim d size).rawDrain d fuel (allowance - b.bytes.length)

/-- Hit records leave the elastic buffer for the hit ring (R111, R153). -/
def State.hitDrain (s : State) (d : Nat) : Nat → Nat → State
  | 0, _ => s
  | fuel + 1, allowance =>
    let q := s.rings d
    match q.hitElastic, s.hitSeg d with
    | [], _ => s
    | h :: t, some r =>
      if s.hitActive d = false then
        ((s.setRings d { q with hitElastic := t }).count (cn 4 2) hub d 1).hitDrain d fuel allowance
      else if min allowance q.hitRoom < 16 then s
      else
        let size := (s.regionAt r).dataBytes
        let p := q.hitPos.toNat
        let s := s.storeNear ((s.regionAt r).lo + p % size) h.bytes
        let q := s.rings d
        let log := q.hitLog.filter fun e => decide (p + 16 ≤ e.1 + size)
        (s.setRings d { q with
          hitElastic := t, hitPos := BitVec.ofNat 64 (p + 16), hitLog := log ++ [(p, h)], hitRoom := q.hitRoom - 16,
          hitIndex := indexAt q.hitIndex p size s.tb.tick }).hitDrain d fuel (allowance - 16)
    | _ :: t, none => ((s.setRings d { q with hitElastic := t }).count (cn 4 2) hub d 1).hitDrain d fuel allowance

/-- One tick's worth of a rate in MB/s, with what is left over: the bytes it admits, at most `most` saved up (R149). -/
def rateMore (mb hz most room rest : Nat) : Nat × Nat :=
  let a := mb * 1000000 + rest
  (min most (room + a / hz), a % hz)

/-- The rates of a die's rings admit more bytes as a tick passes (R149, R153): over any interval of τ seconds a ring is written
at most rate × 10^6 × τ bytes and one elastic buffer's size (log entry 163). -/
def State.ringRates (s : State) (d : Nat) : State :=
  let q := s.rings d
  let hz := max 1 s.tbHz
  let (a, b) := rateMore q.rawRate.toNat hz 262144 q.rawRoom q.rawRest
  let (e, f) := rateMore q.hitRate.toNat hz 65536 q.hitRoom q.hitRest
  s.setRings d { q with rawRoom := a, rawRest := b, hitRoom := e, hitRest := f }

/-- RAW_RING_WRITE (R149): blocks reach the ring of the die. -/
def execRawRingWrite (die : Die) (allowance : Nat) (s : State) : Out :=
  let s := s.unhold die.val (s.rings die.val).hold.length
  .next (s.rawDrain die.val ((s.rings die.val).elastic.length) allowance)

/-- HIT_RING_WRITE (R153). -/
def execHitRingWrite (die : Die) (allowance : Nat) (s : State) : Out :=
  let s := s.hitUnhold die.val (s.rings die.val).hitHold.length
  .next (s.hitDrain die.val ((s.rings die.val).hitElastic.length) allowance)

-- reservations (R171, R172)

/-- Ceiling of a quotient. -/
def ceilDiv (a b : Nat) : Nat := if b = 0 then 0 else (a + b - 1) / b

/-- Slots reserved on a stack. -/
def State.nearRes (s : State) (n : Nat) : Nat :=
  let raw := ((List.range 4).map fun d =>
    let live := s.liveSegs d
    if live.any fun e => e.1 == n then ceilDiv (s.rings d).rawRate.toNat (live.length * 6400) else 0).sum
  let hit := ((List.range 4).map fun d =>
    match s.hitSeg d with
    | some r => if (s.regionAt r).lo / stackBytes = n then ceilDiv (s.rings d).hitRate.toNat 6400 else 0
    | none => 0).sum
  let copy := ceilDiv (s.rf .dbmCopyRate [] 0 16 * 1000) (4 * 6400)
  raw + hit + copy + (if n = 3 then 1 else 0)

/-- The event pool's entry. -/
def State.pool (s : State) : Option Nat :=
  (List.range 32).find? fun r => let g := s.regionAt r; g.valid && g.type == 5

/-- Parts reserved on a far half. -/
def State.farRes (s : State) (h : Nat) : Nat :=
  match s.pool with
  | some r => if farBase h ≤ (s.regionAt r).lo ∧ (s.regionAt r).lo < farBase (h + 1) then s.rf .dbmCopyRate [] 0 16 else 0
  | none => 0

/-- Every stack and half stays within 192 (R172). -/
def State.resOk (s : State) : Bool :=
  ((List.range 4).all fun n => decide (s.nearRes n ≤ 192)) && ((List.range 2).all fun h => decide (s.farRes h ≤ 192))

-- the region table's writes (R145, R146)

/-- A lane of the die has CFE_LANE_CFG.en = 1. -/
def State.anyLaneEn (s : State) (d : Nat) : Bool := (List.range 112).any fun l => s.rb .cfeLaneCfg [d, l] 13

/-- Glint is enabled or a slot is not FREE. -/
def State.glintBusy (s : State) : Bool :=
  s.rb .gltCtrl [] 0 || ((List.range 64).any fun g => (s.slot g).state != 0)

/-- An entry is in use (R146). -/
def State.regionInUse (s : State) (g : Region) : Bool :=
  if g.type = 3 ∨ g.type = 4 then s.anyLaneEn g.die.toNat
  else if g.type = 5 then s.glintBusy
  else g.type == 6 && g.valid

/-- A region lies within one stack, or within one half's populated capacity. -/
def State.regionFits (s : State) (g : Region) : Bool :=
  let lo := g.lo
  let hi := g.hi
  if hi ≤ nearEnd then lo / stackBytes == (hi - 1) / stackBytes
  else (decide (farBase 0 ≤ lo ∧ hi ≤ farBase 0 + s.farCap 0)) || (decide (farBase 1 ≤ lo ∧ hi ≤ farBase 1 + s.farCap 1))

/-- Two ranges share a byte. -/
def overlaps (a b c d : Nat) : Bool := decide (a < d ∧ c < b)

/-- What a valid entry must satisfy beside the in-use rules (R145, R146, R148). -/
def State.regionValidOk (s : State) (r : Nat) (g : Region) : Bool :=
  let near := decide (g.hi ≤ nearEnd)
  let others := (List.range 32).filter fun k => k != r && (s.regionAt k).valid
  g.size != 0 && s.regionFits g &&
    (if near then g.type == 3 || g.type == 4 || g.type == 6 || g.type == 0 else g.type == 5 || g.type == 6) &&
    (!near || g.tcode.toNat < 4 || g.size.toNat % 32 == 0) &&
    !(near && overlaps g.lo g.hi 0x5F99C00000 0x5F9FC00000) &&
    (others.all fun k =>
      let o := s.regionAt k
      !overlaps g.lo g.hi o.lo o.hi &&
        !(g.type == 3 && o.type == 3 && g.die == o.die && (g.lo / stackBytes == o.lo / stackBytes || g.size != o.size)) &&
        !(g.type == 4 && o.type == 4 && g.die == o.die) && !(g.type == 5 && o.type == 5))

/-- The word of a region entry that software reads (R177); a RAW entry is always disposable and reads so (R147; log entry
157). -/
def State.regionWord (s : State) (r w : Nat) : Word :=
  let g := s.regionAt r
  let absent := if g.lo < nearEnd then s.live (domNBC (g.lo / stackBytes)) == false
    else s.live (domFBC (if g.lo < farBase 1 then 0 else 1)) == false
  BitVec.ofNat 32 (match w with
    | 0 => g.base.toNat
    | 1 => g.size.toNat
    | 2 => pack [(0, g.type.toNat), (4, g.die.toNat), (6, g.tcode.toNat), (9, b2n (g.disposable || g.type == 3)),
        (10, b2n g.valid)]
    | _ => pack [(0, b2n (s.regionInUse g)), (1, b2n absent)])

/-- The entry with one word replaced. -/
def Region.withWord (g : Region) (w : Nat) (v : Word) : Region :=
  match w with
  | 0 => { g with base := BitVec.ofNat 28 (fld v 0 28) }
  | 1 => { g with size := BitVec.ofNat 28 (fld v 0 28) }
  | 2 => { g with
      type := BitVec.ofNat 4 (fld v 0 4), die := BitVec.ofNat 2 (fld v 4 2), tcode := BitVec.ofNat 3 (fld v 6 3),
      disposable := bitOf v 9, valid := bitOf v 10 }
  | _ => g

/-- A valid seal entry names the region entry: it may be validated only as USER or EVENT_POOL (R179). -/
def State.sealsRegion (s : State) (r : Nat) : Bool :=
  (List.range 15).any fun e =>
    let x := Tbl.get {} s.sre.entries e
    x.valid && x.region.toNat == r

/-- A region entry's word is written (R145, R146, R177, R179). -/
def State.regionWrite (s : State) (r w : Nat) (v : Word) : State :=
  if r < 2 ∨ 3 ≤ w then s
  else
    let old := s.region r
    let new := old.withWord w v
    let s' := s.setRegion r new
    let inUse := s.regionInUse old
    let onlyInvalid := old.type == 6 && w == 2 && new == { old with valid := false }
    let bad :=
      (inUse && !onlyInvalid) ||
      decide (6 < new.type.toNat) || new.type == 1 || new.type == 2 || decide (5 < new.tcode.toNat) ||
      ((new.type == 3 || new.type == 4) && s.anyLaneEn new.die.toNat) ||
      (new.valid && !s.regionValidOk r new) ||
      (new.valid && s.sealsRegion r && new.type != 5 && new.type != 6) ||
      !s'.resOk
    if bad then s.vio 63 else s'.clampDeadline

-- FILL, SCRUB_RANGE and REPAIR (R166–R170)

/-- A unit of FILL and of scrubbing: a near page, or a far burst (R166, R167). -/
def unitSize (a : Nat) : Nat := if a < nearEnd then 2048 else 64

/-- The near pages or far bursts of an aligned range. -/
def unitsOf (base len : Nat) : List Nat :=
  let u := unitSize base
  (List.range (len / u)).map fun i => base + i * u

/-- Every unit of a range is mapped storage. -/
def State.allMapped (s : State) (base len : Nat) : Bool :=
  (unitsOf base len).all fun a => match s.place a with
    | .near _ _ => true
    | .far _ _ => true
    | _ => false

/-- The range tests that FILL and SCRUB_RANGE share (R166, R167, R170); a domain that is off is told before a range that is
unmapped (log entry 158). -/
def State.rangeCode (s : State) (base len : Nat) : Option Nat :=
  let near := decide (base < nearEnd)
  let u := if near then 2048 else 64
  let within := if near then decide (base + len ≤ (base / stackBytes + 1) * stackBytes)
    else decide (farBase 0 ≤ base ∧ (base + len ≤ farBase 1 ∨ (farBase 1 ≤ base ∧ base + len ≤ farBase 2)))
  if len = 0 ∨ base % u ≠ 0 ∨ len % u ≠ 0 ∨ within = false then some 0x20
  else if (if near then s.live (domNBC (base / stackBytes)) else s.live (domFBC (if base < farBase 1 then 0 else 1))) = false
  then some 0x25
  else if s.allMapped base len = false then some 0x20
  else none

/-- The bytes of a 32-bit pattern over n bytes. -/
def patternBytes (p : Word) (n : Nat) : List Byte := (List.replicate (n / 4) (bytesOf p.toNat 4)).flatten

/-- One unit filled: a near page whole, or a far burst (R166). -/
def State.fillUnit (s : State) (p : Word) (a : Nat) : State :=
  if a < nearEnd then s.storeNear a (patternBytes p 2048)
  else
    let s := { s with mem := Memory.putAll s.mem a (patternBytes p 64) }.snoopWrite a 64
    (List.range 16).foldl (fun s i => s.encodeWord (a + 4 * i)) s

/-- The far words of a burst read: corrected words, and whether one is uncorrectable. -/
def State.scrubWords (s : State) (errs : MemErrs) : List Nat → Nat × Bool × State
  | [] => (0, false, s)
  | w :: t =>
    let e := (farErrs (w / 4) errs).1 + s.stuckBits (farUnit w)
    let (u, s) := s.readWord none w errs
    let (n, f, s) := s.scrubWords errs t
    (n + (if u = .good then min e 1 else 0), f || u == .failed, s)

/-- One unit scrubbed (R167, R168). -/
def State.scrubUnit (s : State) (errs : MemErrs) (a : Nat) : State :=
  let sum (s : State) (f : ScrubSum → ScrubSum) : State := { s with dbm := { s.dbm with scrub := f s.dbm.scrub } }
  let s := sum s fun x => { x with units := x.units + 1 }
  let corr (s : State) (e : Nat) : State :=
    sum s fun x => { x with bits := x.bits + e, maxBits := satNat (max x.maxBits e) 255 }
  let fail (s : State) : State :=
    sum s fun x => { x with ue := x.ue + 1, first := some (x.first.getD (BitVec.ofNat 48 a)) }
  if a < nearEnd then
    let page := a / 2048
    let e := (nearErrs page errs).1 + s.stuckBits page
    let unwr := !s.pageWritten page
    match s.readPage none page errs with
    | (.failed, s) => if unwr then sum s fun x => { x with unwr := x.unwr + 1 } else fail s
    | (.good, s) => if e = 0 then s else corr (s.encodePage page) e
    | (.wild, s) =>
      let (bs, s) := s.freeBytes 2048
      s.storeNear a bs
  else
    let ws := (List.range 16).map fun i => a + 4 * i
    match s.scrubWords errs ws with
    | (_, true, s) => fail s
    | (0, false, s) => s
    | (n, false, s) => corr (ws.foldl (fun s w => s.setStuck (farUnit w) 0) s) n

/-- The code that REPAIR is refused with, the first that applies in the order 0x20, 0x25, 0x24, 0x23 (R170; log entry 158). -/
def State.repairCode (s : State) (a : Nat) : Option Nat :=
  let n := a / stackBytes
  let rep := Tbl.get {} s.dbm.repairs n
  if nearEnd ≤ a then some 0x20
  else if s.live (domNBC n) = false then some 0x25
  else if rep.rows.contains (a / 8192) then some 0x24
  else if 64 ≤ rep.rows.length then some 0x23
  else none

/-- A row programmed into the stack's next free field-repair entry (R169). -/
def State.repairAt (s : State) (a : Nat) : State :=
  let n := a / stackBytes
  let rep := Tbl.get {} s.dbm.repairs n
  { s with dbm := { s.dbm with repairs := Tbl.set {} s.dbm.repairs n { rep with rows := rep.rows ++ [a / 8192] } } }

/-- A stack's contents are lost: every page is unwritten, and records not yet written back go too (R162, R202). -/
def State.clearStack (s : State) (n : Nat) : State :=
  let here (a : Nat) : Bool := decide (n * stackBytes ≤ a ∧ a < (n + 1) * stackBytes)
  let d := s.dbm
  { s with
    mem := Tbl.drop here s.mem,
    sre := { s.sre with cache := s.sre.cache.filter fun p => !here p.addr, injected := Tbl.drop (fun b => here (b * 256)) s.sre.injected },
    dbm := { d with
      pages := Tbl.drop (fun p => here (p * 2048)) d.pages,
      stuck := Tbl.drop (fun p => here (p * 2048)) d.stuck,
      cleared := setBit d.cleared n false } }

/-- A stack's pending field repairs take effect as its controller starts (R169). -/
def State.repairsTake (s : State) (n : Nat) : State :=
  let rep := Tbl.get {} s.dbm.repairs n
  { s with dbm := { s.dbm with repairs := Tbl.set {} s.dbm.repairs n { rep with applied := rep.rows.length } } }

/-- SIDEBAND_CLEAR_DONE (R162): every page of the stack is marked unwritten and the stack serves requests. -/
def execSidebandClearDone (stack : Stack) (s : State) : Out :=
  .next (if s.on (domNBC stack.val) && !bitOf s.dbm.cleared stack.val then
    let s := (s.clearStack stack.val).repairsTake stack.val
    let s := { s with dbm := { s.dbm with cleared := setBit s.dbm.cleared stack.val true } }
    if stack.val = 3 then { s with flt := { s.flt with logOk := true } }.flushAon else s
  else s)

/-- The oldest published event leaves the event store (R158). -/
def State.reclaimOldest (s : State) : State :=
  match s.dbm.events with
  | [] => s
  | _ :: t => ({ s with dbm := { s.dbm with events := t } }).count (cn 4 11) hub 0 1

/-- A write of DBM_EVT_RELEASE (R158): event w and every event before it. -/
def State.evtRelease (s : State) (w : Word) : State :=
  let gone := s.dbm.events.filter fun e => decide ((w - e.seq).toNat < 2147483648)
  let s := { s with dbm := { s.dbm with events := s.dbm.events.filter fun e => !decide ((w - e.seq).toNat < 2147483648) } }
  s.count (cn 4 11) hub 0 gone.length

end Sys2Proof.Machine
end

