-- ==== Sys2Proof/Machine/Cfe.lean ====
section
/-! DEFINITION. The Channel Front End (03_channel_front_end): frames cut into samples, sample index and timestamps, raw
blocks, the conditioning loops, hits, and the writes of its registers. -/

namespace Sys2Proof.Machine

-- format descriptors (R68, R69, R93)

/-- A format descriptor. -/
structure Fmt where
  w : Nat
  packed : Bool
  blocked : Bool
  twos : Bool
  invert : Bool
  nch : Nat
  nsamp : Nat
  hdr : Nat
  trl : Nat
  seqPos : Nat
  seqEn : Bool
  deriving DecidableEq, Repr

/-- The descriptor that two words hold (R93). -/
def fmtOf (w0 w1 : Word) : Fmt :=
  { w := 8 + fld w0 0 4, packed := bitOf w0 4, blocked := bitOf w0 5, twos := bitOf w0 6, invert := bitOf w0 7,
    nch := fld w0 8 5 + 1, nsamp := fld w0 16 10 + 1, hdr := fld w1 0 8, trl := fld w1 8 8, seqPos := fld w1 16 8,
    seqEn := bitOf w1 24 }

/-- Bytes of the sample area. -/
def Fmt.area (f : Fmt) : Nat :=
  if f.packed then (f.nch * f.nsamp * f.w + 7) / 8 else f.nch * f.nsamp * ((f.w + 7) / 8)

/-- The payload length L (R69). -/
def Fmt.len (f : Fmt) : Nat := f.hdr + f.area + f.trl

/-- The raw w-bit code of sample t of channel ch, from the sample area read as one little-endian number (R68). -/
def Fmt.code (f : Fmt) (area t ch : Nat) : Nat :=
  let p := if f.blocked then ch * f.nsamp + t else t * f.nch + ch
  let step := if f.packed then f.w else 8 * ((f.w + 7) / 8)
  (area >>> (p * step)) % 2 ^ f.w

/-- The sample value x, and whether the sample is at the rail (R72). -/
def Fmt.value (f : Fmt) (code : Nat) : Nat × Bool :=
  let t := if f.twos then code ^^^ 2 ^ (f.w - 1) else code
  let t := if f.invert then 2 ^ f.w - 1 - t else t
  (t * 2 ^ (16 - f.w), t == 0 || t == 2 ^ f.w - 1)

/-- Descriptor f of a die. -/
def State.fmt (s : State) (d f : Nat) : Fmt := fmtOf (s.rd .cfeFmt [d, f, 0]) (s.rd .cfeFmt [d, f, 1])

/-- The descriptor that a lane selects. -/
def State.laneFmt (s : State) (d l : Nat) : Fmt := s.fmt d (s.rf .cfeLaneCfg [d, l] 0 6)

/-- Payload words of a raw-mode frame (R70). -/
def Fmt.rawWords (f : Fmt) : Nat := (8 * f.len + 19) / 20

-- sample index and timestamps (R73, R74)

/-- CFE_LANE_PERIOD, 32.32 fixed-point ticks. -/
def State.period (s : State) (d l : Nat) : Nat := s.rd64 .cfePeriod [d, l]

/-- The timestamp of sample index n from an anchor (R74). -/
def tsOf (a : Word) (ats : Stamp) (pd : Nat) (n : Word) : Stamp :=
  ats + BitVec.ofNat 64 (((n - a).toNat * pd + 2 ^ 25) / 2 ^ 26)

def cfeKey (d l : Nat) : Nat := d * 112 + l
def chanKey (d c : Nat) : Nat := d * 1792 + c

/-- The die-local channels that a lane feeds (R76). -/
def State.laneChans (s : State) (d l : Nat) : List Nat :=
  let base := l / 7 * 112 + s.rf .cfeLaneCfg [d, l] 6 7
  (List.range (s.laneFmt d l).nch).map fun c => base + c

-- the channel block (R95)

/-- The settings of a channel. -/
structure ChanCfg where
  en : Bool
  freeze : Bool
  set : Nat
  split : Bool
  pre : Nat
  post : Nat
  ishift : Nat
  nshift : Nat
  totMax : Nat
  bmin : Nat
  bmax : Nat
  kmin : Nat
  kmax : Nat
  hyst : Nat
  hold : Nat
  bsetTol : Nat
  target : Nat
  rateLog2 : Nat
  afterLen : Nat
  activeLen : Nat
  tofs : BitVec 64
  drop : Nat
  rise : Nat
  deriving DecidableEq, Repr

/-- A channel's settings from its registers. -/
def State.chanCfg (s : State) (d c : Nat) : ChanCfg :=
  let ix := [d, c]
  { en := s.rb .chCfg ix 0, freeze := s.rb .chCfg ix 1, set := s.rf .chCfg ix 2 2, split := s.rb .chCfg ix 4 && s.fl2,
    pre := s.rf .chCfg ix 5 3, post := s.rf .chCfg ix 8 3, ishift := s.rf .chCfg ix 11 4, nshift := s.rf .chCfg ix 15 4,
    totMax := if s.rf .chCfg ix 20 11 = 0 then 2047 else s.rf .chCfg ix 20 11,
    bmin := s.rf .chBclamp ix 0 16, bmax := s.rf .chBclamp ix 16 16, kmin := s.rf .chKclamp ix 0 16,
    kmax := s.rf .chKclamp ix 16 16, hyst := s.rf .chHyst ix 0 16, hold := s.rf .chHyst ix 16 8,
    bsetTol := s.rf .chHyst ix 24 8, target := s.rf .chRate ix 0 16, rateLog2 := s.rf .chRate ix 16 5,
    afterLen := s.rf .chLen ix 0 16, activeLen := s.rf .chLen ix 16 16,
    tofs := (BitVec.ofNat 16 (s.rf .chTofs ix 0 16)).signExtend 64, drop := s.rf .chSplit ix 0 16,
    rise := s.rf .chSplit ix 16 16 }

/-- Gain entry e of set t (R81). -/
def State.gain (s : State) (d t e : Nat) : Nat := s.rf .cfeGain [d, t, e / 2] (16 * (e % 2)) 16

/-- Step entry e of set t, signed (R81). -/
def State.stepEntry (s : State) (d t e : Nat) : BitVec 16 :=
  BitVec.ofNat 16 (s.rf .cfeStep [d, t, e / 2] (16 * (e % 2)) 16)

/-- A debug halt holds the loops of the die (R79, R525). -/
def State.dbgHold (s : State) (d : Nat) : Bool :=
  s.rb .cfeCtrl [d] 0 && s.cores.any fun e =>
    e.2.dbg.halted && e.2.dbg.groupEn && bitOf (Tbl.get 0 s.dbg.freeze e.2.dbg.group.toNat) d

-- the loops (R78, R80–R83)

/-- The dwell bin of the gain index (R80). -/
def dwellBin (d : Nat) : Nat := if d = 0 then 0 else min 15 (Nat.log2 d + 1)

/-- A channel enters a state (R80). -/
def ChanSt.enter (ch : ChanSt) (st : BitVec 2) : ChanSt := { ch with st := st, dwell := 0, startOk := false }

/-- advance_state of R78: the dwell counts this sample, and the state leaves by R80. -/
def ChanSt.advance (ch : ChanSt) (cfg : ChanCfg) (ended : Bool) : ChanSt :=
  if ended && ch.st != 3 then ch.enter 2
  else
    let ch := { ch with dwell := min (ch.dwell + 1) 65535 }
    if ch.st == 3 then (if ch.startOk then ch.enter 0 else ch)
    else if ch.st == 2 then
      (if cfg.afterLen ≤ ch.dwell then ch.enter (if cfg.activeLen = 0 then 0 else 1) else ch)
    else if ch.st == 1 then (if cfg.activeLen ≤ ch.dwell then ch.enter 0 else ch)
    else ch

/-- apply_step and the threshold status (R82, R83). The first applied step has none before it: UNSETTLED (log entry 151). -/
def ChanSt.applyStep (ch : ChanSt) (cfg : ChanCfg) : ChanSt :=
  match ch.pend with
  | none => ch
  | some step =>
    let k : Int := ch.k.toNat + step.toInt
    let kc := clampInt k cfg.kmin cfg.kmax
    let stat : BitVec 2 := if kc ≠ k then 2 else if step = 0 ∧ ch.prevStep = some 0 then 1 else 0
    { ch with k := BitVec.ofInt 16 kc, pend := none, prevStep := some step, kstat := stat }

/-- The baseline check (R83): the status over the samples since the last check. -/
def ChanSt.baselineCheck (ch : ChanSt) (cfg : ChanCfg) : ChanSt :=
  let b := ch.base.toNat
  let b0 := ch.bStart.toNat
  let dist := (if b0 ≤ b then b - b0 else b0 - b) / 65536
  let stat : BitVec 2 := if ch.bClamped then 2 else if dist ≤ cfg.bsetTol then 1 else 0
  { ch with
    bstat := stat, bStart := ch.base, bCount := 0, bClamped := false,
    startOk := ch.startOk || (stat == 1 && ch.st == 3) }

/-- update_loops of R78. -/
def ChanSt.updateLoops (ch : ChanSt) (cfg : ChanCfg) (gain : Nat → Nat) (x : Nat) : ChanSt :=
  let ch :=
    if ch.first then
      { ch with base := BitVec.ofNat 32 (x * 65536), first := false, bStart := BitVec.ofNat 32 (x * 65536), bCount := 0,
                bClamped := false }
    else
      let ch := ch.applyStep cfg
      let e : Int := (x * 65536 : Nat) - (ch.base.toNat : Int)
      let g : Int := gain (ch.st.toNat * 16 + dwellBin ch.dwell)
      let b : Int := ch.base.toNat + ((e * g + 32768) >>> 16)
      let bc := clampInt b (cfg.bmin * 65536) (cfg.bmax * 65536)
      let a : Int := if e < 0 then -e else e
      let n : Int := ch.noise.toNat
      let n' : Int := if cfg.nshift = 0 then a else n + ((a - n + 2 ^ (cfg.nshift - 1)) >>> cfg.nshift)
      let ch := { ch with
        base := BitVec.ofInt 32 bc, noise := BitVec.ofInt 32 n', bCount := ch.bCount + 1,
        bClamped := ch.bClamped || decide (bc ≠ b) }
      if 1024 ≤ ch.bCount then ch.baselineCheck cfg else ch
  let t := ch.base.toNat + ((ch.k.toNat * ch.noise.toNat + 2048) >>> 12)
  { ch with thr := BitVec.ofNat 32 (min t 0xFFFFFFFF) }

/-- The end of a rate window (R82): the pending step, and whether a pending one was replaced. -/
def ChanSt.rateEnd (ch : ChanSt) (cfg : ChanCfg) (step : Nat → BitVec 16) : ChanSt × Bool :=
  let r := clampInt ((ch.hits : Int) - cfg.target) (-32) 31
  ({ ch with
      pend := some (step (r + 32).toNat), hitsLast := BitVec.ofNat 16 (satNat ch.hits 65535), hits := 0, winCount := 0 },
    ch.pend.isSome)

-- hits (R84–R90)

/-- (B_h + 2^15) >> 16 (R86). -/
def bRound (bh : Nat) : Nat := (bh + 32768) / 65536

/-- The fine time of a crossing (R88): how far before the sample, in fine units. -/
def fineOff (x xPrev th pd : Nat) : Nat :=
  if xPrev < x then
    let q := min ((x * 65536 - th) * 65536 / (x * 65536 - xPrev * 65536)) 0xFFFF
    (q * pd + 2 ^ 41) / 2 ^ 42
  else 0

/-- What one sample of a channel needs beside the channel's state. -/
structure SampleIn where
  x : Nat
  rail : Bool
  ts : Stamp
  pd : Nat
  deg : Bool
  chan : Nat
  hold : Bool
  deriving DecidableEq, Repr

/-- The record of a hit whose last sample is integrated (R86, R90). -/
def hitRecord (p : Pulse) (tot : Nat) (long : Bool) (cfg : ChanCfg) (chan : Nat) : HitRec :=
  let amp : Int := (p.peak : Int) - bRound p.bh
  let i : Int := p.sum >>> cfg.ishift
  let ac := clampInt amp 0 65535
  let ic := clampInt i 0 131071
  { ts := p.ts, channel := BitVec.ofNat 13 chan, amp := BitVec.ofInt 16 ac, tot := BitVec.ofNat 11 tot,
    integral := BitVec.ofInt 17 ic, uns := p.uns, deg := p.deg, sat := p.sat || decide (ac ≠ amp) || decide (ic ≠ i),
    long := long, pile := p.pile, pen := false, late := false }

/-- start_hit (R84, R86, R88). -/
def ChanSt.startHit (ch : ChanSt) (cfg : ChanCfg) (i : SampleIn) : ChanSt :=
  let b := bRound ch.base.toNat
  let pre : Int := ((ch.history.take cfg.pre).map fun (h : Nat) => (h : Int) - b).sum
  let th := ch.thr.toNat
  let p : Pulse := {
    th := th, bh := ch.base.toNat, tot := 1, start := 0, peak := i.x, sum := pre + ((i.x : Int) - b),
    ts := i.ts + cfg.tofs - BitVec.ofNat 64 (fineOff i.x (ch.history.headD 0) th i.pd),
    uns := ch.st == 3 || ch.bstat != 1 || ch.kstat != 1, deg := i.deg, sat := i.rail, pile := false, valley := none }
  { ch with pulse := some p, below := false, hits := ch.hits + 1 }

/-- track_pulse (R86, R89): the peak, the sum and the valley, or a split. The hit that a split starts takes uns and deg at k,
and sat from k on (log entry 152). -/
def ChanSt.trackPulse (ch : ChanSt) (p : Pulse) (cfg : ChanCfg) (i : SampleIn) : ChanSt × List HitRec :=
  let b := bRound p.bh
  let idx := p.tot
  let p := { p with tot := p.tot + 1 }
  let val := match p.valley with
    | none => if p.peak < i.x then none else some (i.x, idx, p.sum, p.sat)
    | some v => if i.x < v.1 then some (i.x, idx, p.sum, p.sat) else some v
  match val with
  | some (v, vi, vsum, vsat) =>
    if cfg.split && decide (v + cfg.rise ≤ i.x) && decide (v + cfg.drop ≤ p.peak) then
      let old := { p with sum := vsum, sat := vsat, pile := true }
      let rec1 := hitRecord old (vi - p.start) false cfg i.chan
      let new := { p with
        start := idx, peak := i.x, sum := p.sum - vsum + ((i.x : Int) - b), pile := true, sat := i.rail, valley := none,
        uns := ch.st == 3 || ch.bstat != 1 || ch.kstat != 1, deg := i.deg,
        ts := i.ts + cfg.tofs - BitVec.ofNat 64 (fineOff i.x (ch.history.headD 0) ((v + cfg.rise) * 65536) i.pd) }
      ({ ch with pulse := some new }, [rec1])
    else
      let p := { p with sum := p.sum + ((i.x : Int) - b), sat := p.sat || i.rail }
      ({ ch with pulse := some (if p.peak < i.x then { p with peak := i.x, valley := none }
        else { p with valley := some (v, vi, vsum, vsat) }) }, [])
  | none =>
    let p := { p with sum := p.sum + ((i.x : Int) - b), sat := p.sat || i.rail }
    ({ ch with pulse := some { p with peak := i.x, valley := none } }, [])

/-- end_hit (R84–R86): the pulse ends on this sample; its post samples start with it. -/
def ChanSt.endHit (ch : ChanSt) (p : Pulse) (long : Bool) (cfg : ChanCfg) (i : SampleIn) : ChanSt × List HitRec :=
  let tot := p.tot - p.start
  let ch := { ch with pulse := none, below := !long, holdLeft := cfg.hold }
  if cfg.post = 0 then ({ ch with post := none }, [hitRecord p tot long cfg i.chan])
  else
    let p := { p with sum := p.sum + ((i.x : Int) - bRound p.bh) }
    if cfg.post = 1 then ({ ch with post := none }, [hitRecord p tot long cfg i.chan])
    else ({ ch with post := some { pulse := p, tot := tot, long := long, left := cfg.post - 1 } }, [])

/-- One more post sample (R86). -/
def ChanSt.postSample (ch : ChanSt) (cfg : ChanCfg) (i : SampleIn) : ChanSt × List HitRec :=
  match ch.post with
  | none => (ch, [])
  | some q =>
    let p := { q.pulse with sum := q.pulse.sum + ((i.x : Int) - bRound q.pulse.bh) }
    if q.left ≤ 1 then ({ ch with post := none }, [hitRecord p q.tot q.long cfg i.chan])
    else ({ ch with post := some { q with pulse := p, left := q.left - 1 } }, [])

/-- The crossing test and the pulse of one sample (R78): the state, the records emitted, and whether a pulse ended. -/
def ChanSt.detect (ch : ChanSt) (cfg : ChanCfg) (i : SampleIn) : ChanSt × List HitRec × Bool :=
  let x := i.x * 65536
  match ch.pulse with
  | none =>
    if ch.below && decide (ch.thr.toNat ≤ x) then
      let early := match ch.post with
        | some q => [hitRecord q.pulse q.tot q.long cfg i.chan]
        | none => []
      ({ ch with post := none }.startHit cfg i, early, false)
    else
      let (ch, r) := { ch with below := decide (x < ch.thr.toNat) }.postSample cfg i
      (ch, r, false)
  | some p =>
    if (x : Int) < (p.th : Int) - (cfg.hyst * 65536 : Nat) then
      let (ch, r) := ch.endHit p false cfg i
      (ch, r, true)
    else if cfg.totMax ≤ p.tot then
      let (ch, r) := ch.endHit p true cfg i
      (ch, r, true)
    else
      let (ch, r) := ch.trackPulse p cfg i
      (ch, r, false)

/-- One sample of an enabled channel (R78, R79, R82): the state, the records emitted, and whether a pending step was
replaced. -/
def ChanSt.sample (ch : ChanSt) (cfg : ChanCfg) (gain : Nat → Nat) (step : Nat → BitVec 16) (i : SampleIn) :
    ChanSt × List HitRec × Bool :=
  let (ch, recs, ended) := ch.detect cfg i
  let ch := ch.advance cfg ended
  let ch :=
    if ch.pulse.isSome then ch
    else if 0 < ch.holdLeft then { ch with holdLeft := ch.holdLeft - 1 }
    else if cfg.freeze || i.hold then ch
    else ch.updateLoops cfg gain i.x
  let ch := { ch with winCount := ch.winCount + 1, history := (i.x :: ch.history).take 8 }
  if 2 ^ cfg.rateLog2 ≤ ch.winCount then
    let (ch, lost) := ch.rateEnd cfg step
    (ch, recs, lost)
  else (ch, recs, false)

-- hit queues, taps and gaps

/-- A record joins its bundle's hit queue of 256, or is lost (R91, R92): a lost one has been emitted too (log entry 153). -/
def State.hitOut (s : State) (d c : Nat) (h : HitRec) : State :=
  let s := s.count (cn 1 0) d c 1
  let s := if h.pile then s.count (cn 1 2) d c 1 else s
  let s := if h.long then s.count (cn 1 3) d c 1 else s
  let b := c / 112
  let q := s.hitQueue (d * 16 + b)
  if q.length < 256 then s.setHitQueue (d * 16 + b) (q ++ [h]) else s.count (cn 1 9) d b 1

/-- CTAP items of a sample (R321): one for each tap on the channel. -/
def State.tapSample (s : State) (d c x : Nat) (idx : Word) (deg : Bool) : State :=
  (idxs (fun t => s.rb .cfeTap [d, t] 15 && s.rf .cfeTap [d, t] 0 11 == c) 64).foldl (fun s t =>
    let f := s.fab d
    let item : TapItem := { tap := BitVec.ofNat 6 t, x := BitVec.ofNat 16 x, idx := idx, gap := bitOf f.tapGap t, deg := deg }
    let f := { f with tapGap := setBit f.tapGap t false }
    if s.portAttached d 0 0 ∧ f.ctap.length < 1024 then s.setFab d { f with ctap := f.ctap ++ [item] }
    else (s.setFab d f).count (cn 8 2) d 0 1) s

/-- A hit under measurement is abandoned and counted (R78, R87). -/
def State.abandonHit (s : State) (d c : Nat) : State :=
  let ch := s.chan (chanKey d c)
  if ch.pulse.isSome || ch.post.isSome then
    (s.setChan (chanKey d c) { ch with pulse := none, post := none }).count (cn 1 1) d c 1
  else s

/-- A gap on one channel (R87). -/
def State.chanGap (s : State) (d c : Nat) : State :=
  let s := s.abandonHit d c
  let ch := s.chan (chanKey d c)
  let taps := idxs (fun t => s.rf .cfeTap [d, t] 0 11 == c) 64
  let f := s.fab d
  (s.setChan (chanKey d c) { ch with below := false, history := [] }).setFab d
    { f with tapGap := taps.foldl (fun g t => setBit g t true) f.tapGap }

/-- A gap on a lane (R73): its channels, and the gap flag of its next raw block. -/
def State.cfeGap (s : State) (d l : Nat) : State :=
  let s := s.setCfeLane (cfeKey d l) { s.cfeLane (cfeKey d l) with gap := true, flowing := false }
  if s.rb .cfeLaneCfg [d, l] 13 then (s.laneChans d l).foldl (fun s c => s.chanGap d c) s else s

/-- A frame dropped at the receiver or the Prism while the lane is LIT (R73): the index moves as if it had been delivered,
and a gap. Without an anchor held nothing happens. -/
def State.frameLost (s : State) (d l : Nat) : State :=
  let cl := s.cfeLane (cfeKey d l)
  if cl.anchor.isSome then
    (s.setCfeLane (cfeKey d l)
      { cl with nextIdx := cl.nextIdx + BitVec.ofNat 32 (s.laneFmt d l).nsamp }).cfeGap d l
  else s

-- frames (R67, R71, R77)

/-- One sample of one channel of a frame. -/
def State.channelSample (s : State) (d l c : Nat) (v : Nat × Bool) (idx : Word) (a : Word) (ats : Stamp) : State :=
  let pd := s.period d l
  let s := s.tapSample d c v.1 idx s.tb.degraded
  let cfg := s.chanCfg d c
  if cfg.en then
    let i : SampleIn := {
      x := v.1, rail := v.2, ts := tsOf a ats pd idx, pd := pd, deg := s.tb.degraded, chan := d * 1792 + c,
      hold := s.dbgHold d }
    let (ch, recs, lost) := (s.chan (chanKey d c)).sample cfg (s.gain d cfg.set) (s.stepEntry d cfg.set) i
    let s := s.setChan (chanKey d c) ch
    let s := recs.foldl (fun s h => s.hitOut d c h) s
    if lost then s.count (cn 1 4) d c 1 else s
  else s

/-- The raw block of a delivered frame (R77). -/
def rawBlockBytes (ts : Stamp) (idx : Word) (lane fmt : Nat) (gap deg : Bool) (payload : List Byte) : List Byte :=
  let n := (payload.length + 15) / 16
  bytesOf (pack [(0, ts.toNat), (64, idx.toNat), (96, lane), (103, fmt), (109, b2n gap), (110, b2n deg),
    (112, (n - 1) % 256)]) 16 ++ payload ++ List.replicate (n * 16 - payload.length) 0

/-- lane_tick (R98): the tick of the last sample that the CFE has processed on the lane. -/
def State.noteLaneTick (s : State) (d l : Nat) (ts : Stamp) : State :=
  let w := s.wsu d
  s.setWsu d { w with laneTick := Tbl.set none w.laneTick l (some (ts.extractLsb' 6 58)) }

/-- A frame that the Prism keeps: the raw block, then every sample in order (R73, R77, R78). -/
def State.cutFrame (s : State) (d l : Nat) (payload : List Byte) (a : Word) (ats : Stamp) : State :=
  let f := s.laneFmt d l
  let cl := s.cfeLane (cfeKey d l)
  let pd := s.period d l
  let first := cl.nextIdx
  let ts := tsOf a ats pd first
  let bytes := rawBlockBytes ts first l (s.rf .cfeLaneCfg [d, l] 0 6) cl.gap s.tb.degraded payload
  let s := s.setCfeLane (cfeKey d l) { cl with nextIdx := first + BitVec.ofNat 32 f.nsamp, gap := false, flowing := true }
  let s := s.rawPush d { lane := BitVec.ofNat 7 l, ts := ts, bytes := bytes } (ceilDiv (f.nsamp * pd) (2 ^ 26))
  let area := wordOfBytes ((payload.drop f.hdr).take f.area)
  let chans := s.laneChans d l
  let s := (List.range f.nsamp).foldl (fun s t =>
    (chans.zipIdx).foldl (fun s e =>
      s.channelSample d l e.1 (f.value (f.code area t e.2)) (first + BitVec.ofNat 32 t) a ats) s) s
  s.noteLaneTick d l (tsOf a ats pd (first + BitVec.ofNat 32 (f.nsamp - 1)))

/-- A whole frame of a LIT lane reaches the Prism (R67, R71, R73). -/
def State.prism (s : State) (d l : Nat) (payload : List Byte) : State :=
  let cl := s.cfeLane (cfeKey d l)
  let f := s.laneFmt d l
  match cl.anchor with
  | none => s
  | some (a, ats) =>
    if s.rb .cfeLaneCfg [d, l] 13 = false then
      s.setCfeLane (cfeKey d l) { cl with nextIdx := cl.nextIdx + BitVec.ofNat 32 f.nsamp }
    else
      if payload.length ≠ f.len then (s.count (cn 1 5) d l 1).frameLost d l
      else
        let seq := BitVec.ofNat 16 (wordOfBytes ((payload.drop f.seqPos).take 2))
        match f.seqEn, cl.prevSeq with
        | true, some prev =>
          let cl := { cl with prevSeq := some seq }
          if seq = prev + 1 then (s.setCfeLane (cfeKey d l) cl).cutFrame d l payload a ats
          else
            let cl := { cl with nextIdx := cl.nextIdx + BitVec.ofNat 32 ((seq - prev - 1).toNat * f.nsamp) }
            (((s.setCfeLane (cfeKey d l) cl).count (cn 1 6) d l 1).cfeGap d l).cutFrame d l payload a ats
        | true, none => (s.setCfeLane (cfeKey d l) { cl with prevSeq := some seq }).cutFrame d l payload a ats
        | false, _ => s.cutFrame d l payload a ats

-- anchors (R73, R75)

/-- The difference of two timestamps as a signed number. -/
def stampDiff (a b : Stamp) : Int := (a - b).toInt

/-- An anchor accepted while the lane is LIT (R73, R75). -/
def State.cfeAnchor (s : State) (d l : Nat) (a : Word) (ts : Stamp) : State :=
  let k := cfeKey d l
  let cl := s.cfeLane k
  match cl.anchor with
  | none => (s.setCfeLane k { cl with anchor := some (a, ts), nextIdx := a, prevSeq := none }).cfeGap d l
  | some (a0, ats) =>
    if a ≠ cl.nextIdx then
      ((s.setCfeLane k { cl with anchor := some (a, ts), nextIdx := a }).count (cn 1 7) d l 1).cfeGap d l
    else
      let diff := stampDiff ts (tsOf a0 ats (s.period d l) a)
      let s := s.setCfeLane k { cl with
        anchor := some (a, ts), drift := BitVec.ofInt 16 (clampInt diff (-32768) 32767) }
      if (s.rf .cfeTol [d, l] 0 16 : Int) < (if diff < 0 then -diff else diff) then s.count (cn 1 8) d l 1 else s

/-- An anchor accepted while the lane is not LIT sets the index and ats (R41, R73); nothing is compared or counted (R75). -/
def State.cfeAnchorSet (s : State) (d l : Nat) (a : Word) (ts : Stamp) : State :=
  let k := cfeKey d l
  let cl := s.cfeLane k
  match cl.anchor with
  | none => (s.setCfeLane k { cl with anchor := some (a, ts), nextIdx := a, prevSeq := none }).cfeGap d l
  | some _ => s.setCfeLane k { cl with anchor := some (a, ts), nextIdx := a }

/-- Every anchor that the CFE holds is forgotten (R73, R397). -/
def State.dropAnchors (s : State) (d : Nat) : State :=
  upTo (fun l s => s.setCfeLane (cfeKey d l) { s.cfeLane (cfeKey d l) with anchor := none, flowing := false }) 112 s

-- register writes (R69, R76, R94, R95)

/-- A write of CFE_FMT (R69): a descriptor in use, or one that breaks a limit, is refused. -/
def State.cfeFmtWrite (s : State) (d f w : Nat) (v : Word) : State :=
  let v := v &&& BitVec.ofNat 32 (RegName.mask .cfeFmt [d, f, w])
  let w0 := if w = 0 then v else s.rd .cfeFmt [d, f, 0]
  let w1 := if w = 1 then v else s.rd .cfeFmt [d, f, 1]
  let n := fmtOf w0 w1
  let used := (List.range 112).any fun l => s.rb .cfeLaneCfg [d, l] 13 && s.rf .cfeLaneCfg [d, l] 0 6 == f
  if 8 < fld w0 0 4 ∨ (n.seqEn = true ∧ n.hdr < n.seqPos + 2) ∨ 2552 < n.len ∨ used = true then s.vio (16 + d)
  else s.wr .cfeFmt [d, f, w] v

/-- The slot range of a lane configuration word overlaps that of another enabled lane of the bundle (R76). -/
def State.slotClash (s : State) (d l : Nat) (v : Word) : Bool :=
  let lo := fld v 6 7
  let hi := lo + (s.fmt d (fld v 0 6)).nch
  (List.range 7).any fun n =>
    let k := l / 7 * 7 + n
    k != l && s.rb .cfeLaneCfg [d, k] 13 &&
      overlaps lo hi (s.rf .cfeLaneCfg [d, k] 6 7) (s.rf .cfeLaneCfg [d, k] 6 7 + (s.laneFmt d k).nch)

/-- A write of CFE_LANE_CFG (R73, R76, R94). -/
def State.cfeLaneCfgWrite (s : State) (d l : Nat) (v : Word) : State :=
  let v := v &&& 0x3FFF
  let old := s.rd .cfeLaneCfg [d, l]
  if bitOf old 13 then
    if bitOf v 13 then (s.vio (24 + d))
    else (s.wr .cfeLaneCfg [d, l] v).setCfeLane (cfeKey d l) { s.cfeLane (cfeKey d l) with flowing := false }
  else if bitOf v 13 then
    if 112 < fld v 6 7 + (s.fmt d (fld v 0 6)).nch ∨ s.slotClash d l v = true then s.vio (20 + d)
    else
      ((s.wr .cfeLaneCfg [d, l] v).setCfeLane (cfeKey d l) { s.cfeLane (cfeKey d l) with prevSeq := none }).cfeGap d l
  else s.wr .cfeLaneCfg [d, l] v

/-- CFE_LANE_PERIOD, both words at once (R9, R94). -/
def State.cfePeriodWrite (s : State) (d l : Nat) (lo hi : Word) : State :=
  if s.rb .cfeLaneCfg [d, l] 13 then s.vio (24 + d)
  else (s.wr .cfePeriod [d, l, 0] lo).wr .cfePeriod [d, l, 1] hi

/-- The loops restart and the channel enters START (R78). -/
def ChanSt.restart (ch : ChanSt) : ChanSt :=
  { ch with first := true, pulse := none, post := none, below := false, holdLeft := 0, bCount := 0, bClamped := false }.enter 3

/-- Writing CFE_CH_CFG.reset_loops (R78, R82). -/
def State.resetLoops (s : State) (d c : Nat) : State :=
  let s := s.abandonHit d c
  s.setChan (chanKey d c) (s.chan (chanKey d c)).restart

/-- CFE_CH_CFG.en changes (R78, R80, R82): an enable restarts the channel and drops a pending step; a disable abandons a hit
under measurement. -/
def State.chanEnable (s : State) (d c : Nat) (en : Bool) : State :=
  let was := s.rb .chCfg [d, c] 0
  let s := s.wr .chCfg [d, c] (setBit (s.rd .chCfg [d, c]) 0 en)
  if en = was then s
  else if en then
    let s := s.abandonHit d c
    let ch := (s.chan (chanKey d c)).restart
    s.setChan (chanKey d c) { ch with pend := none, winCount := 0, hits := 0, history := [] }
  else s.abandonHit d c

/-- A write of CFE_CH_CFG: the stored fields, then en and reset_loops (R89, R95). -/
def State.chCfgWrite (s : State) (d c : Nat) (v : Word) : State :=
  let keep := (s.rd .chCfg [d, c]) &&& 1
  let v' := v &&& BitVec.ofNat 32 (RegName.row .chCfg).rw
  let v' := if s.fl2 then v' else setBit v' 4 (s.rb .chCfg [d, c] 4)
  let s := s.wr .chCfg [d, c] ((v' &&& ~~~(1 : Word)) ||| keep)
  let s := s.chanEnable d c (bitOf v 0)
  if bitOf v 31 then s.resetLoops d c else s

/-- Writes of B, N and k (R95): only while en = 0 or loop_freeze = 1. -/
def State.chLoopWrite (s : State) (d c : Nat) (f : ChanSt → ChanSt) : State :=
  if s.rb .chCfg [d, c] 0 ∧ s.rb .chCfg [d, c] 1 = false then s.vio (24 + d)
  else s.setChan (chanKey d c) (f (s.chan (chanKey d c)))

/-- Writes of CFE_CH_BCLAMP and CFE_CH_KCLAMP (R83). -/
def State.chClampWrite (s : State) (n : RegName) (d c : Nat) (v : Word) : State :=
  if fld v 16 16 < fld v 0 16 then s.vio (24 + d) else s.wr n [d, c] v

/-- A write of CFE_CH_RATE (R95). -/
def State.chRateWrite (s : State) (d c : Nat) (v : Word) : State :=
  let r := fld v 16 5
  if r < 8 ∨ 24 < r then s.vio (24 + d) else s.store .chRate [d, c] v

/-- A write of CFE_TAP_SEL (R334). -/
def State.cfeTapWrite (s : State) (d t : Nat) (v : Word) : State :=
  if 1791 < fld v 0 11 then s.vio (24 + d) else s.store .cfeTap [d, t] v

-- the channel's status words (R95)

/-- The enabled lane that feeds a channel (R76). -/
def State.chanLane (s : State) (d c : Nat) : Option Nat :=
  ((List.range 7).map fun n => c / 112 * 7 + n).find? fun l => s.rb .cfeLaneCfg [d, l] 13 && (s.laneChans d l).contains c

/-- An enabled channel gets no samples: its lane delivers no frames (R79, log entry 150). -/
def State.noSamples (s : State) (d c : Nat) : Bool :=
  s.rb .chCfg [d, c] 0 &&
    (match s.chanLane d c with
    | some l => !(s.cfeLane (cfeKey d l)).flowing
    | none => true)

/-- The loops are frozen (R79). -/
def State.loopFrozen (s : State) (d c : Nat) : Bool :=
  let ch := s.chan (chanKey d c)
  ch.pulse.isSome || decide (0 < ch.holdLeft) || s.rb .chCfg [d, c] 1 || s.dbgHold d || s.noSamples d c

/-- CFE_CH + 0x30. -/
def State.chStatWord (s : State) (d c : Nat) : Word :=
  let ch := s.chan (chanKey d c)
  BitVec.ofNat 32 (pack [(0, ch.bstat.toNat), (2, ch.kstat.toNat), (4, ch.st.toNat), (6, b2n ch.pulse.isSome),
    (7, b2n (s.loopFrozen d c)), (8, dwellBin ch.dwell), (16, ch.hitsLast.toNat)])

-- meanings

/-- RATE_WINDOW_END (R82): the channel has taken 2^rate_log2 samples in its rate window. The last of them ends the window
itself; what is left to end here is a window that a lower rate_log2 has made complete. -/
def execRateWindowEnd (die : Die) (ch : Chan) (s : State) : Out :=
  let cfg := s.chanCfg die.val ch.val
  .next (if s.live (domCFE die.val) = true ∧ cfg.en = true ∧
      2 ^ cfg.rateLog2 ≤ (s.chan (chanKey die.val ch.val)).winCount then
    let (c, lost) := (s.chan (chanKey die.val ch.val)).rateEnd cfg (s.stepEntry die.val cfg.set)
    let s := s.setChan (chanKey die.val ch.val) c
    if lost then s.count (cn 1 4) die.val ch.val 1 else s
  else s)

/-- BASELINE_CHECK (R83): 1,024 samples have updated the loops since the last check. The last of them makes the check
itself, so that none is left to make here before a 1,024th sample. -/
def execBaselineCheck (die : Die) (ch : Chan) (s : State) : Out :=
  .next (if s.live (domCFE die.val) = true ∧ s.rb .chCfg [die.val, ch.val] 0 = true ∧
      1024 ≤ (s.chan (chanKey die.val ch.val)).bCount then
    s.setChan (chanKey die.val ch.val) ((s.chan (chanKey die.val ch.val)).baselineCheck (s.chanCfg die.val ch.val))
  else s)

end Sys2Proof.Machine
end

