-- ==== Sys2Proof/Machine/Seal.lean ====
section
/-! DEFINITION. Sealed regions (07_sealed_regions): rights, blocks and records, the record cache, the security alarm and the
condemned set, key slots and seal entries; and the memory side of every request, which passes through them. The buffers hold
a sealed block's ciphertext and its record, as R181 gives them. -/

namespace Sys2Proof.Machine

-- entries, keys and rights (R178, R184–R188)

/-- Seal entry e: entry 15 is fixed (R178, R205). -/
def State.sealEntry (s : State) (e : Nat) : SealEntry :=
  if e = 15 then { region := 0, key := 15, valid := true, rights := 0x3000 } else Tbl.get {} s.sre.entries e

def State.setSealEntry (s : State) (e : Nat) (v : SealEntry) : State :=
  { s with sre := { s.sre with entries := Tbl.set {} s.sre.entries e v } }

/-- The valid seal entry that names a region entry. -/
def State.sealOf (s : State) (r : Nat) : Option Nat :=
  (List.range 16).find? fun e => (s.sealEntry e).valid && (s.sealEntry e).region.toNat == r

/-- The place of a class in a rights word (R205). -/
def clsField : Cls → Nat
  | .host => 0
  | .lamp => 2
  | .facet => 4
  | .fabric => 6
  | .dma => 8
  | .debug => 10
  | .cfg => 12

/-- The effective right of a class in a seal entry (R185, R186). -/
def State.right (s : State) (c : Cls) (e : Nat) : Nat :=
  let t := fld (s.sealEntry e).rights (clsField c) 2
  if c = .debug then (if s.dbg.level = 0 then 0 else if s.dbg.level = 1 then min t 2 else t) else t

/-- Data part of a sealed region (R180). -/
def sealedBytes (g : Region) (e : Nat) : Nat := if e = 15 then g.dataBytes else g.dataBytes / 16 * 15

/-- The record's address of a block (R180). -/
def State.recordAddr (s : State) (e block : Nat) : Nat :=
  let g := s.regionAt (s.sealEntry e).region.toNat
  let base := if e = 15 then 0x5F99C00000 else g.lo + sealedBytes g e
  base + (block * 256 - g.lo) / 256 * 16

/-- The valid seal entry in whose tag area an address lies (R180). -/
def State.entryOfTag (s : State) (a : Nat) : Option Nat :=
  (List.range 16).find? fun e =>
    let g := s.regionAt (s.sealEntry e).region.toNat
    let base := s.recordAddr e (g.lo / 256)
    (s.sealEntry e).valid && decide (base ≤ a ∧ a < base + sealedBytes g e / 16)

/-- Bytes of storage are changed outside the part: addresses and what they hold afterwards. -/
def State.tamper (s : State) (l : List (Nat × Byte)) : State :=
  { s with mem := l.foldl (fun m e => Memory.put m e.1 e.2) s.mem }

/-- Blocks that [a, a + n) touches. -/
def blocksOf (a n : Nat) : List Nat := (List.range (n / 256 + 2)).filterMap fun i =>
  if (a / 256 + i) * 256 < a + n then some (a / 256 + i) else none

-- the alarm (R193–R195)

/-- A tag failure (R193, R194): counted, for its Glint or at once, recorded, condemned, and the alarm set. A block that the
set holds joins it no second time, and is no 65th failure (log entry 160). -/
def State.sealAlarm (s : State) (g : Option Gid) (e block : Nat) (part inj : Bool) : State :=
  let s := s.countFor g (cn 5 0) hub e 1
  let q := s.sre
  let known := q.fails.any fun f => f.addr.toNat == block * 256
  let full := decide (64 ≤ q.fails.length)
  let f : FailRec := { addr := BitVec.ofNat 48 (block * 256), entry := BitVec.ofNat 4 e, part := part }
  let was := q.alarm
  let s := { s with sre := { q with
    alarm := true, ovf := q.ovf || (full && !known), regionMask := setBit q.regionMask e true,
    fails := if known || full then q.fails else q.fails ++ [f] } }
  let s := if was then s else s.nonMaskable
  s.offer .hub 4 e 3 (Config.detCode 4 0) (Config.syndrome 4 3 block) (BitVec.ofNat 48 (block * 256)) inj

/-- A block counts as condemned (R194). -/
def State.condemned (s : State) (e block : Nat) : Bool :=
  s.sre.alarm && s.rb .sreCtrl [] 0 &&
    ((s.sre.fails.any fun f => f.addr.toNat == block * 256) || (s.sre.ovf && bitOf s.sre.regionMask e))

-- the record cache (R183)

/-- A tag page: 2 KiB in near space, where a page is one codeword, and the 64-byte burst in far space (log entry 164). -/
def tagPageSize (a : Nat) : Nat := if a < nearEnd then 2048 else 64
def tagPageBase (a : Nat) : Nat := a - a % tagPageSize a

/-- Storage fetched as one tag page: its bytes, or none where it is in error. -/
def State.fetchTags (s : State) (g : Option Gid) (a : Nat) (errs : MemErrs) : Option (List Byte) × State :=
  if a < nearEnd then
    match s.readPage g (a / 2048) errs with
    | (.good, s) => (some (Memory.bytes s.mem a 2048), s)
    | (.failed, s) => (none, s)
    | (.wild, s) => let (bs, s) := s.freeBytes 2048; (some bs, s)
  else
    match s.readWords g errs (wordsOf a 64) with
    | (bs, true, s) => (some bs, s)
    | (_, false, s) => (none, s)

/-- A record's place in its page. -/
def recordSlot (a : Nat) : Nat := (a - tagPageBase a) / 16

/-- A page's bytes with its updated records. -/
def overlay (bs : List Byte) : Tbl (List Byte) → List Byte
  | [] => bs
  | (k, r) :: t => overlay (bs.take (16 * k) ++ r ++ bs.drop (16 * k + 16)) t

/-- A page's updated records are written back (R183, R198): a near page whole, with its other records as they are stored, or
free where storage cannot tell them; in far space the records' own words. -/
def State.storeTags (s : State) (p : TagPage) : State :=
  if p.recs = [] then s
  else if p.addr < nearEnd then
    let (bs, s) := match p.held with
      | some bs => (bs, s)
      | none =>
        match s.fetchTags none p.addr [] with
        | (some bs, s) => (bs, s)
        | (none, s) => s.freeBytes 2048
    s.storeNear p.addr (overlay bs p.recs)
  else
    p.recs.foldl (fun (s : State) e =>
      let a := p.addr + 16 * e.1
      let s := { s with mem := Memory.putAll s.mem a e.2 }.snoopWrite a 16
      (List.range 4).foldl (fun s i => s.encodeWord (a + 4 * i)) s) s

/-- A page after its updated records have been written back. -/
def TagPage.clean (p : TagPage) : TagPage := { p with held := p.held.map fun bs => overlay bs p.recs, recs := [] }

/-- Bytes that the cached pages take. -/
def cacheSize (l : List TagPage) : Nat := (l.map fun p => tagPageSize p.addr).sum

/-- Pages beyond 2 MiB leave, the one held longest first (R183; log entry 164). -/
def State.cacheFit (s : State) : Nat → State
  | 0 => s
  | n + 1 =>
    if cacheSize s.sre.cache ≤ 2097152 then s
    else match s.sre.cache with
      | [] => s
      | p :: t => ({ s.storeTags p with sre := { (s.storeTags p).sre with cache := t } }).cacheFit n

/-- The cached page of an address. -/
def State.tagPage (s : State) (a : Nat) : Option TagPage := s.sre.cache.find? fun p => p.addr == tagPageBase a

/-- A page as it is cached from now on. -/
def State.cachePage (s : State) (p : TagPage) : State :=
  let l := if s.sre.cache.any fun q => q.addr == p.addr then s.sre.cache.map fun q => if q.addr = p.addr then p else q
    else s.sre.cache ++ [p]
  ({ s with sre := { s.sre with cache := l } }).cacheFit 4

/-- A record is read through the cache (R183, R189): its 16 bytes, or none where its page is in error. -/
def State.readRecord (s : State) (g : Option Gid) (a : Nat) (errs : MemErrs) : Option (List Byte) × State :=
  let p := (s.tagPage a).getD { addr := tagPageBase a, held := none }
  let at_ (bs : List Byte) : List Byte := (bs.drop (16 * recordSlot a)).take 16
  match Tbl.get [] p.recs (recordSlot a), p.held with
  | [], some bs => (some (at_ bs), s)
  | [], none =>
    (match s.fetchTags g p.addr errs with
    | (some bs, s) => (some (at_ bs), s.cachePage { p with held := some bs })
    | (none, s) => (none, s))
  | r, _ => (some r, s)

/-- A record is updated in the cache. -/
def State.putRecord (s : State) (a : Nat) (r : List Byte) : State :=
  let p := (s.tagPage a).getD { addr := tagPageBase a, held := none }
  s.cachePage { p with recs := Tbl.set [] p.recs (recordSlot a) r }

/-- Pages that satisfy a test are written back (R183, R198). -/
def State.writeBack (s : State) (p : TagPage → Bool) : List TagPage → State
  | [] => s
  | q :: t =>
    let s := if p q ∧ q.recs ≠ [] then (s.storeTags q).cachePage q.clean else s
    s.writeBack p t

/-- The pages of a seal entry's tag area leave the cache, written back, when the entry changes (log entry 164). -/
def State.uncache (s : State) (e : Nat) : State :=
  let mine (s : State) (p : TagPage) : Bool := s.entryOfTag p.addr == some e
  let t := s.writeBack (mine s) s.sre.cache
  { t with sre := { t.sre with cache := t.sre.cache.filter fun p => !mine s p } }

-- blocks (R181, R182, R189–R191)

/-- The round keys of a slot. -/
def State.sealKeys (s : State) (k : Nat) : List (List Byte) := aesKeys (bytesOf (s.keySlot k).key.toNat 32).reverse

/-- The IV of a block under a count (R181): address bits [47:8], then the count, most significant byte first. -/
def sealIv (block count : Nat) : List Byte := (bytesOf block 5).reverse ++ (bytesOf count 8).reverse

/-- The additional data of a seal entry and key ID (R181). -/
def sealAad (e k : Nat) : List Byte := [BitVec.ofNat 8 e, BitVec.ofNat 8 k]

/-- A block's bytes passed through counter mode: plaintext to ciphertext, or back (R181). -/
def sealCrypt (ks : List (List Byte)) (block count : Nat) (bs : List Byte) : List Byte :=
  let h := BitVec.ofNat 128 (beNat (aesEncrypt ks (List.replicate 16 0)))
  ctrCrypt ks (gcmJ0 h (sealIv block count)) bs

/-- The leftmost 64 bits of the tag of a block's ciphertext (R181). -/
def sealTag (ks : List (List Byte)) (e k block count : Nat) (cipher : List Byte) : List Byte :=
  (gcmTag ks (sealIv block count) (sealAad e k) cipher).take 8

/-- How a block read ends (R189). -/
inductive BlockRes where
  | plain (bytes : List Byte)
  | refused (w : Denied)
  | memErr
  | dark
  | tagFail
  deriving DecidableEq, Repr

/-- Why a slot serves no access: it is retired or fenced, or empty (R189, R199). -/
def State.slotDenies (s : State) (k : Nat) : Option Denied :=
  let q := s.keySlot k
  if q.fenced || q.state == 2 then some .retired else if q.state = 1 then none else some .key

/-- A block and its record are fetched, and the block is decrypted and checked (R189); `part` tells that a partial write
asks. -/
def State.readBlock (s : State) (g : Option Gid) (e block : Nat) (part : Bool) (errs : MemErrs) : BlockRes × State :=
  let k := (s.sealEntry e).key.toNat
  match s.slotDenies k with
  | some w => (.refused w, s)
  | none =>
    let (bs, s) := s.readPiece g (block * 256) 256 errs
    if bs.contains .dark then (.dark, s)
    else
      match s.readRecord g (s.recordAddr e block) errs with
      | (none, s) => (.memErr, s)
      | (some r, s) =>
        if bs.any fun b => b.byte?.isNone then (.memErr, s)
        else
          let c := bs.filterMap ByteRes.byte?
          let n := wordOfBytes (r.take 8)
          if sealTag (s.sealKeys k) e k block n c = r.drop 8 then
            (.plain (sealCrypt (s.sealKeys k) block n c), s.countFor g (cn 5 3) hub e 1)
          else (.tagFail, s.sealAlarm g e block part (Tbl.get false s.sre.injected block))

/-- Blocks written under a slot (R182): its counter and dirty bits, and the count of R203. -/
def State.slotWrote (s : State) (g : Option Gid) (e n : Nat) : State :=
  let k := (s.sealEntry e).key.toNat
  let q := s.keySlot k
  (s.setKeySlot k { q with count := q.count + BitVec.ofNat 64 n, dirty := true, again := true }).countFor g (cn 5 4) hub e n

/-- A block is encrypted under the slot's next count and stored, and its record with it (R181, R182, R190); `whole` tells that
the request rewrites the block's whole near page, which is then not read (R161). -/
def State.writeBlock (s : State) (r : Req) (e block : Nat) (bs : List Byte) (whole : Bool) (errs : MemErrs) :
    List ByteRes × State :=
  let k := (s.sealEntry e).key.toNat
  let n := ((s.keySlot k).count + 1).toNat
  let c := sealCrypt (s.sealKeys k) block n bs
  let (res, s) :=
    if whole && decide (block * 256 < nearEnd) && s.live (domNBC (block * 256 / stackBytes)) then
      (bs.map ByteRes.ok, s.storeNear (block * 256) c)
    else s.writePiece { r with spec := none } (block * 256) c errs
  if res.all fun x => x.byte?.isSome then
    let s := s.slotWrote r.spec e 1
    let (inj, s) := s.inject 4 e (block * 256)
    let tag := xorBytes (sealTag (s.sealKeys k) e k block n c) (bytesOf (inj.getD 0) 8)
    let s := s.putRecord (s.recordAddr e block) (bytesOf n 8 ++ tag)
    (bs.map ByteRes.ok, { s with sre := { s.sre with injected := Tbl.set false s.sre.injected block inj.isSome } })
  else (res, s)

/-- One result for n bytes. -/
def allRes (n : Nat) (x : ByteRes) : List ByteRes := List.replicate n x

/-- One block of a write: full or partial (R190, R191, R194). -/
def State.sealedBlockWrite (s : State) (r : Req) (e block a : Nat) (bs : List Byte) (whole : Bool) (errs : MemErrs) :
    List ByteRes × State :=
  let n := bs.length
  if n = 256 then
    match s.slotDenies (s.sealEntry e).key.toNat with
    | some w => (allRes n (.refused w), s)
    | none =>
      if s.condemned e block then (allRes n (.refused .condemned), s.countFor r.spec (cn 5 2) hub e 1)
      else s.writeBlock r e block bs whole errs
  else
    match s.readBlock r.spec e block true errs with
    | (.plain old, s) =>
      let o := a - block * 256
      let (x, s) := s.writeBlock r e block (old.take o ++ bs ++ old.drop (o + n)) false errs
      (if x.all fun y => y.byte?.isSome then bs.map .ok else allRes n .bad, s)
    | (.refused w, s) => (allRes n (.refused w), s)
    | (.memErr, s) => (allRes n .bad, s)
    | (.dark, s) => (allRes n .dark, s)
    | (.tagFail, s) => (allRes n .badBlock, s.countFor r.spec (cn 5 1) hub e 1)

/-- Blocks of a read in a sealed data part: plaintext or what it meets. -/
def State.sealedRead (s : State) (g : Option Gid) (e a n : Nat) (errs : MemErrs) : List Nat → List ByteRes × State
  | [] => ([], s)
  | b :: t =>
    let lo := max a (b * 256)
    let k := min (a + n) (b * 256 + 256) - lo
    let (x, s) := match s.readBlock g e b false errs with
      | (.plain bs, s) => (((bs.drop (lo - b * 256)).take k).map ByteRes.ok, s)
      | (.refused w, s) => (allRes k (.refused w), s)
      | (.memErr, s) => (allRes k .bad, s)
      | (.tagFail, s) => (allRes k .badBlock, s)
      | (.dark, s) => (allRes k .dark, s)
    let (y, s) := s.sealedRead g e a n errs t
    (x ++ y, s)

/-- A ciphertext read of the tag area (R180, R185): the records as storage or, where it has updated them, the cache holds
them (log entry 164). -/
def State.tagRead (s : State) (g : Option Gid) (a n : Nat) (errs : MemErrs) : List ByteRes × State :=
  let (st, s) := s.readPieces g errs (piecesOf a n)
  (st.zipIdx.map fun x =>
    let b := a + x.2
    match (s.tagPage b).map fun p => Tbl.get [] p.recs (recordSlot b) with
    | some (r :: rs) => .ok ((r :: rs).getD (b % 16) 0)
    | _ => x.1, s)

/-- The region entry of the storage at an address. -/
def Place.region : Place → Option Nat
  | .near _ k => some k
  | .far _ k => some k
  | _ => none

-- the staging region (R201, R471, R475)

/-- n bytes written to, or read from, the staging region by the configuration controller: whole blocks under seal entry 15
(R182, R203; log entry 168). -/
def State.stageWrite (s : State) (n : Nat) : State := s.slotWrote none 15 ((n + 255) / 256)
def State.stageRead (s : State) (n : Nat) : State := s.count (cn 5 3) hub 15 ((n + 255) / 256)

-- the event pool (R155, R156, R184)

/-- The valid seal entry over the event pool. -/
def State.poolSeal (s : State) : Option Nat := s.pool.bind s.sealOf

/-- Chunks of the event pool (R155). -/
def State.poolChunks (s : State) : Nat :=
  match s.pool with
  | some r =>
    let g := s.regionAt r
    (match s.sealOf r with
      | some e => sealedBytes g e
      | none => g.dataBytes) / 65536
  | none => 0

/-- Free chunks (R155). -/
def State.freeChunks (s : State) : Nat :=
  let shadow := ((List.range 64).map fun g => (s.slot g).chunks).sum
  s.poolChunks - shadow - (s.dbm.events.map fun e => e.chunks).sum

/-- Blocks of 256 bytes that [a, a + n) covers whole, and those that it covers in part. -/
def blockCounts (a n : Nat) : Nat × Nat :=
  let all := (blocksOf a n).length
  let whole := ((blocksOf a n).filter fun b => decide (a ≤ b * 256 ∧ b * 256 + 256 ≤ a + n)).length
  (whole, all - whole)

/-- A read of a Glint's item window (R156), whose chunks a sealed pool decrypts: any requester may read it. -/
def State.windowRead (s : State) (r : Req) (a n : Nat) (errs : MemErrs) : List ByteRes × State :=
  match s.poolSeal with
  | none => s.readPieces r.spec errs (piecesOf a n)
  | some e =>
    match s.slotDenies (s.sealEntry e).key.toNat with
    | some w => (allRes n (.refused w), s)
    | none => (s.countFor r.spec (cn 5 3) hub e (blocksOf a n).length).readPieces r.spec errs (piecesOf a n)

/-- A write of a Glint's item window (R156): taken while the Glint is OPEN from its own items, and from requesters whose rights
in the pool allow it (log entry 167). -/
def State.windowWrite (s : State) (r : Req) (g a : Nat) (bs : List Byte) (errs : MemErrs) : List ByteRes × State :=
  let n := bs.length
  if (s.slot g).state ≠ 1 then (allRes n .unmapped, s)
  else match s.poolSeal with
    | none => s.writePieces r errs a bs (piecesOf a n)
    | some e =>
      match s.slotDenies (s.sealEntry e).key.toNat with
      | some w => (allRes n (.refused w), s)
      | none =>
        if r.spec.isNone ∧ s.right r.cls e ≠ 3 then (allRes n .unmapped, s)
        else
          let (whole, part) := blockCounts a n
          let s := (s.countFor r.spec (cn 5 3) hub e part).slotWrote r.spec e (whole + part)
          s.writePieces r errs a bs (piecesOf a n)

/-- The Glint copy stores n bytes at an offset of a Glint's shadow space (R184): why it may not, or the state after. -/
def State.poolStore (s : State) (g : Gid) (o n : Nat) : Option Denied × State :=
  match s.poolSeal with
  | none => (none, s)
  | some e =>
    match s.slotDenies (s.sealEntry e).key.toNat with
    | some w => (some w, s)
    | none =>
      if s.right .dma e ≠ 3 then (some .rights, s)
      else (none, s.slotWrote (some g) e ((o + n + 255) / 256 - (o + 255) / 256))

/-- The publication reads n bytes of an event from the pool (R184). -/
def State.poolFetch (s : State) (n : Nat) : Option Denied × State :=
  match s.poolSeal with
  | none => (none, s)
  | some e =>
    match s.slotDenies (s.sealEntry e).key.toNat with
    | some w => (some w, s)
    | none => if s.right .dma e < 2 then (some .rights, s) else (none, s.count (cn 5 3) hub e ((n + 255) / 256))

-- requests

/-- One part of a request's read, with the rights of its class (R180, R185, R199). -/
def State.memReadPart (s : State) (r : Req) (a n : Nat) (errs : MemErrs) : List ByteRes × State :=
  match s.place a with
  | .item _ => s.windowRead r a n errs
  | p =>
    match p.region.bind fun k => (s.sealOf k).map fun e => (k, e) with
    | none => s.readPieces r.spec errs (piecesOf a n)
    | some (k, e) =>
      let rg := s.regionAt k
      let right := s.right r.cls e
      let inTags := decide (sealedBytes rg e ≤ a - rg.lo)
      if inTags && right != 1 then (allRes n .unmapped, s)
      else if right = 0 then (allRes n (.refused .rights), s)
      else if right = 1 then
        match s.slotDenies (s.sealEntry e).key.toNat with
        | some w => (allRes n (.refused w), s)
        | none => if inTags then s.tagRead r.spec a n errs else s.readPieces r.spec errs (piecesOf a n)
      else s.sealedRead r.spec e a n errs (blocksOf a n)

/-- The parts of a read. -/
def State.memReadParts (s : State) (r : Req) (errs : MemErrs) : List (Nat × Nat) → List ByteRes × State
  | [] => ([], s)
  | (a, n) :: t =>
    let (x, s) := s.memReadPart r a n errs
    let (y, s) := s.memReadParts r errs t
    (x ++ y, s)

/-- A memory read of any requester (R144, R173, R185). -/
def State.memRead (s : State) (r : Req) (a len : Nat) (errs : MemErrs) : List ByteRes × State :=
  let (x, s) := s.memReadParts r errs (partsOf a len)
  (x, s.countDenied x)

/-- Blocks of a write in a sealed data part. -/
def State.sealedWrite (s : State) (r : Req) (e a : Nat) (bs : List Byte) (whole : Bool) (errs : MemErrs) :
    List Nat → List ByteRes × State
  | [] => ([], s)
  | b :: t =>
    let lo := max a (b * 256)
    let k := min (a + bs.length) (b * 256 + 256) - lo
    let (x, s) := s.sealedBlockWrite r e b lo ((bs.drop (lo - a)).take k) whole errs
    let (y, s) := s.sealedWrite r e a bs whole errs t
    (x ++ y, s)

/-- One part of a write, with the rights of its class; a speculative write reaches only its own Glint's item window
(R125, R156). -/
def State.memWritePart (s : State) (r : Req) (a : Nat) (bs : List Byte) (errs : MemErrs) : List ByteRes × State :=
  let n := bs.length
  let p := s.place a
  let mine := match p, r.spec with
    | .item w, some g => g.val == w && (s.slot w).state == 1
    | _, some _ => false
    | _, none => true
  if mine = false then (allRes n (.refused .spec), s)
  else
    match p with
    | .item w => s.windowWrite r w a bs errs
    | p =>
      match p.region.bind fun k => (s.sealOf k).map fun e => (k, e) with
      | none => s.writePieces r errs a bs (piecesOf a n)
      | some (k, e) =>
        let rg := s.regionAt k
        let inTags := decide (sealedBytes rg e ≤ a - rg.lo)
        if inTags && s.right r.cls e != 1 then (allRes n .unmapped, s)
        else if s.right r.cls e ≠ 3 then (allRes n (.refused .rights), s)
        else
          let bl := blocksOf a n
          let whole := decide (n = 2048) && (bl.all fun b => !s.condemned e b)
          s.sealedWrite r e a bs whole errs bl

/-- The parts of a write. -/
def State.memWriteParts (s : State) (r : Req) (errs : MemErrs) (base : Nat) (bs : List Byte) :
    List (Nat × Nat) → List ByteRes × State
  | [] => ([], s)
  | (a, n) :: t =>
    let (x, s) := s.memWritePart r a ((bs.drop (a - base)).take n) errs
    let (y, s) := s.memWriteParts r errs base bs t
    (x ++ y, s)

/-- A memory write of any requester (R144, R156, R173, R185). -/
def State.memWrite (s : State) (r : Req) (a : Nat) (bs : List Byte) (errs : MemErrs) : List ByteRes × State :=
  let (x, s) := s.memWriteParts r errs a bs (partsOf a bs.length)
  (x, s.countDenied x)

-- answers (R173)

/-- Every byte of a result is one thing. -/
def allAre (x : ByteRes) (l : List ByteRes) : Bool := l.all fun y => y == x

/-- The failure bitmap of a DMA transfer: one bit for each 4 KiB of it (R173). -/
def failBitmap (l : List ByteRes) : Nat :=
  (l.zipIdx).foldl (fun m e => if e.1.byte?.isSome then m else m ||| 2 ^ (e.2 / 4096)) 0

/-- The answer to a read (R173). -/
def readReply (r : Req) (l : List ByteRes) : Reply :=
  if l.all fun x => x.byte?.isSome then .data (l.map ByteRes.byte?)
  else if r.cls = .dma then .partialDone (failBitmap l)
  else if l.all ByteRes.denied then .error
  else if allAre .dark l then .dark
  else if l.all ByteRes.failed then .poisoned
  else .data (l.map ByteRes.byte?)

/-- The answer to a write (R173). -/
def writeReply (r : Req) (l : List ByteRes) : Reply :=
  if l.all fun x => x.byte?.isSome then .ok
  else if r.cls = .dma then .partialDone (failBitmap l)
  else if allAre .dark l then .dark
  else .error

-- keys and entries (R179, R187, R195–R200)

/-- Only the host and the Lamp write the engine's registers. -/
def sreWriter (r : Req) : Bool := r.cls == .host || r.cls == .lamp

/-- A retired slot that no valid seal entry names is empty (R196, R200). -/
def State.emptySlots (s : State) : State :=
  upTo (fun k s =>
    let named := (List.range 15).any fun e => (s.sealEntry e).valid && (s.sealEntry e).key.toNat == k
    if (s.keySlot k).state = 2 ∧ named = false then s.setKeySlot k {} else s) 15 s

/-- A write of a seal entry's word 0 (R179, R205). An entry names its region and key whether or not it is valid; that a cold
entry names region entry 0 does not stand in the way of its first write (log entry 169). -/
def State.sealEntryWrite (s : State) (r : Req) (e : Nat) (v : Word) : State :=
  if e = 15 then s
  else if sreWriter r = false then s.vio 67
  else
    let old := s.sealEntry e
    let new := { old with region := BitVec.ofNat 5 (fld v 0 5), key := BitVec.ofNat 4 (fld v 5 4), valid := bitOf v 9 }
    let named := (List.range 15).any fun k =>
      k != e && (s.sealEntry k).valid && (s.sealEntry k).region == new.region
    let bad :=
      (decide (2 ≤ old.region.toNat) && (s.regionAt old.region.toNat).valid) || (s.regionAt new.region.toNat).valid ||
      decide (new.region.toNat < 2) || named || new.key == 15 ||
      (new.valid && (s.keySlot new.key.toNat).state == 2)
    if bad then s.vio 67 else ((s.uncache e).setSealEntry e new).emptySlots

/-- SEAL_ENTRY_WRITE (R179). -/
def execSealEntryWrite (r : Req) (entry : Fin 16) (v : Word) (s : State) : Out :=
  .next (if s.live domSEC then s.guarded r fun s => s.sealEntryWrite r entry.val v else s)

/-- A write of a rights word: fields only fall (R187). -/
def State.rightsWrite (s : State) (r : Req) (e : Nat) (v : Word) : State :=
  if e = 15 then s
  else if sreWriter r = false then s.vio 67
  else
    let old := s.sealEntry e
    let raises := (List.range 7).any fun i => decide (fld old.rights (2 * i) 2 < fld v (2 * i) 2)
    if raises then s.vio 67 else s.setSealEntry e { old with rights := BitVec.ofNat 14 (fld v 0 14) }

/-- RIGHTS_WRITE (R187). -/
def execRightsWrite (r : Req) (entry : Fin 16) (v : Word) (s : State) : Out :=
  .next (if s.live domSEC then s.guarded r fun s => s.rightsWrite r entry.val v else s)

/-- SRE_ALARM.alarm is written 1 (R195). -/
def State.alarmClear (s : State) (r : Req) : State :=
  if sreWriter r = false then s.vio 67
  else { s with sre := { s.sre with alarm := false, ovf := false, regionMask := 0, fails := [] } }

/-- ALARM_CLEAR (R195). -/
def execAlarmClear (r : Req) (s : State) : Out := .next (if s.live domSEC then s.guarded r fun s => s.alarmClear r else s)

/-- A fresh key in a slot (R196, R201): a value of the random source, and count 0. -/
def State.freshKey (s : State) (k : Nat) : State :=
  let (v, s) := s.free 256
  s.setKeySlot k { state := 1, key := v }

/-- SRE_KEY_CTRL.op = GENERATE (R197). -/
def State.generate (s : State) (r : Req) (k : Nat) : State :=
  if sreWriter r = false then s.vio 67
  else if k = 15 ∨ (s.keySlot k).state ≠ 0 then s.vio 66
  else s.freshKey k

/-- GENERATE (R197). -/
def execGenerate (r : Req) (key : Fin 16) (s : State) : Out := .next (if s.live domSEC then s.guarded r fun s => s.generate r key.val else s)

/-- A write of SRE_FLUSH (R198). -/
def State.flushStart (s : State) (r : Req) (mask : BitVec 16) : State :=
  if sreWriter r = false then s.vio 67
  else
    let s := upTo (fun k s => if bitOf mask k then s.setKeySlot k { s.keySlot k with again := false } else s) 15 s
    { s with sre := { s.sre with flushing := s.sre.flushing ||| (mask &&& 0x7FFF) } }

/-- FLUSH (R198). -/
def execFlush (r : Req) (mask : BitVec 16) (s : State) : Out :=
  .next (if s.live domSEC then s.guarded r fun s => s.flushStart r mask else s)

/-- The key ID under which a tag page's records are. -/
def State.keyOfTags (s : State) (p : TagPage) : Nat :=
  match s.entryOfTag p.addr with
  | some e => (s.sealEntry e).key.toNat
  | none => 15

/-- FLUSH_DONE (R198): dirty records are written back and the dirty bits follow. -/
def execFlushDone (s : State) : Out :=
  .next (
    let m := s.sre.flushing
    let s := s.writeBack (fun p => bitOf m (s.keyOfTags p)) s.sre.cache
    let s := upTo (fun k s =>
      if bitOf m k then s.setKeySlot k { s.keySlot k with dirty := (s.keySlot k).again, again := false } else s) 15 s
    { s with sre := { s.sre with flushing := 0 } })

/-- RECORD_WRITEBACK (R183): the record cache writes its updated records back. -/
def execRecordWriteback (s : State) : Out := .next (s.writeBack (fun _ => true) s.sre.cache)

/-- KEY_RETIRE's effect and code (R199). -/
def State.keyRetire (s : State) (k : Nat) : Nat × State :=
  if 14 < k then (0x28, s)
  else if (s.keySlot k).state ≠ 1 then (0x29, s)
  else if (s.keySlot k).dirty then (0x2A, s)
  else (0x00, (s.setKeySlot k { s.keySlot k with state := 2, key := 0 }).emptySlots)

end Sys2Proof.Machine
end

