-- ==== Sys2Proof/Machine/Sched.lean ====
section
/-! DEFINITION. Schedulers (10_scheduler_and_mailboxes, R276–R289): descriptors, ready lists, producers and templates,
completion records and rings. -/

namespace Sys2Proof.Machine

-- descriptors (R276, R277)

/-- Word i of a descriptor. -/
def dword (d : List Word) (i : Nat) : Word := d.getD i 0

/-- A descriptor with one word replaced. -/
def setWord (d : List Word) (i : Nat) (v : Word) : List Word := d.set i v

def descMask (d : List Word) : Nat := fld (dword d 0) 16 16
def descSpec (d : List Word) : Bool := bitOf (dword d 5) 16
def descHandle (d : List Word) : Nat := fld (dword d 5) 0 16

/-- A post is not refused as BAD_DESC (R277). -/
def descOk (d : List Word) : Bool :=
  d.length == 16 && descMask d != 0 && dword d 3 != 0 && fld (dword d 0) 14 2 == 0 && fld (dword d 2) 16 16 == 0 &&
    fld (dword d 4) 5 27 == 0 && fld (dword d 5) 17 15 == 0 && !descSpec d && (d.drop 7).all fun w => w == 0

/-- The Glint of a speculative item. -/
def descGlint (d : List Word) : Option Gid :=
  if descSpec d then some (Fin.ofNat 64 (descHandle d)) else none

-- ready lists (R278–R281)

def State.readyList (s : State) (d l : Nat) : List (List Word) := Tbl.get [] (s.sched d).lists l
def State.setReadyList (s : State) (d l : Nat) (v : List (List Word)) : State :=
  let q := s.sched d
  s.setSched d { q with lists := Tbl.set [] q.lists l v }

/-- The items of list l of die d that hold their entries: those that wait in the list and those that wait in prefetch slots,
since an item holds its entry until it starts running (R281). -/
def State.itemsOf (s : State) (d l : Nat) : List (List Word) :=
  s.readyList d l ++ s.cores.filterMap fun e =>
    match e.2.prefetch with
    | some it => if e.1 / 256 = d ∧ it.list.val = l then some it.desc else none
    | none => none

/-- Items that a list holds, Glint items among them (R281, R301). -/
def State.heldItems (s : State) (d l : Nat) : Nat := (s.itemsOf d l).length

/-- Entries of a die's pool in use, and of those reserved for Glint items (R281). -/
def State.poolUsed (s : State) (d : Nat) (glint : Bool) : Nat :=
  (((List.range 64).flatMap fun l => s.itemsOf d l).filter fun x => descSpec x == glint).length

/-- A post of a producer other than Glint (R277, R281): 0 OK, 1 FULL, 2 BAD_DESC (R279). -/
def State.postItem (s : State) (d l : Nat) (desc : List Word) : Nat × State :=
  let q := s.readyList d l
  if descOk desc = false then (2, s.count (cn 7 1) d l 1)
  else if s.rf .schList [d, l, 0] 0 13 ≤ s.heldItems d l then
    let x := s.sched d
    (1, (s.setSched d { x with fullSeen := setBit x.fullSeen l true }).count (cn 7 1) d l 1)
  else (0, (s.setReadyList d l (q ++ [desc])).count (cn 7 0) d l 1)

/-- A 16-word template of a die. -/
def State.template (s : State) (n : RegName) (d : Nat) : List Word := (List.range 16).map fun w => s.rd n [d, w]

/-- A template's descriptor with argument, tag, and spec and handle (R280); every other bit is the template's. -/
def fillTemplate (t : List Word) (arg : Nat) (tag : Word) (spec : Nat) : List Word :=
  setWord (setWord (setWord (setWord t 1 (BitVec.ofNat 32 arg)) 2
    (BitVec.ofNat 32 (fld (dword t 2) 16 16 * 65536 + arg / 4294967296 % 65536))) 5
    (BitVec.ofNat 32 (fld (dword t 5) 17 15 * 131072 + spec))) 6 tag

/-- A close event posts one item from the window template (R278, R280). -/
def State.postWindow (s : State) (d : Nat) (ev : CloseEv) : State :=
  if s.live (domFCA d) && s.rb .schTmplCtrl [d] 7 then
    let tag := BitVec.ofNat 32 (pack [(0, ev.count.toNat), (24, b2n ev.empty), (25, b2n ev.forced), (26, b2n ev.deg),
      (27, b2n ev.ovf)])
    (s.postItem d (s.rf .schTmplCtrl [d] 8 6) (fillTemplate (s.template .schWinTmpl d) ev.wid.toNat tag 0)).2
  else s

/-- A notification to a cluster posts one item from the mailbox template (R280, R293, R294). -/
def State.postMbx (s : State) (d n : Nat) (ack : Bool) : State :=
  if s.live (domFCA d) && s.rb .schTmplCtrl [d] 14 then
    (s.postItem d (s.rf .schTmplCtrl [d] 15 6) (fillTemplate (s.template .schMbxTmpl d) n (BitVec.ofNat 32 (b2n ack)) 0)).2
  else s

/-- The handle of a slot: Glint ID and generation (R116). -/
def State.handleOf (s : State) (g : Nat) : BitVec 16 := BitVec.ofNat 16 (g + 64 * (s.slot g).gen.toNat)

/-- The Glint producer posts one item on a die whose template is enabled (R122, R278, R280); it is never refused, and its
count is held (R126). -/
def State.postGlint (s : State) (d : Nat) (g : Gid) : State :=
  if s.live (domFCA d) && s.rb .schTmplCtrl [d] 0 then
    let l := s.rf .schTmplCtrl [d] 1 6
    let desc := fillTemplate (s.template .schGltTmpl d) (itemBase + g.val * 0x1000000)
      (dword (s.template .schGltTmpl d) 6) ((s.handleOf g.val).toNat + 65536)
    let s := (s.setReadyList d l (s.readyList d l ++ [desc])).countFor (some g) (cn 7 0) d l 1
    let sl := s.slot g.val
    s.setSlot g.val { sl with itemsOut := sl.itemsOut + 1 }
  else s

/-- A post through SCH_POST (R125, R278, R289): the result of a refusal is counted only; one of another size or alignment is
refused, and one that meets the fence of the die is answered for it (R378). -/
def State.postTo (s : State) (r : Req) (d l : Nat) (desc : List Word) (aligned : Bool) : Reply × State :=
  if r.spec.isSome then (.error, s.count (cn 3 8) hub 0 1)
  else if s.live (domFCA d) = false then (.dark, s.count (cn 10 (if r.cls = .host then 5 else 4)) hub (domFCA d) 1)
  else if aligned = false ∨ desc.length ≠ 16 then (.error, s.vio (36 + d))
  else (.ok, (s.postItem d l desc).2)

/-- SCH_POST (R278): one 64-byte write to list l. -/
def execSchPost (r : Req) (die : Die) (list : Fin 64) (desc : Desc) (aligned : Bool) (s : State) : Out :=
  .next (s.byReq r fun s =>
    let (x, s) := s.postTo r die.val list.val desc aligned
    if r.cls = .host then s else s.answer r x)

/-- Descriptors that wait at the scheduler port are taken in order, while its shell has room for a status (R279, R289, R320;
log entry 166). -/
def State.schServe (s : State) (d : Die) : Nat → State
  | 0 => s
  | n + 1 =>
    let f := s.fab d.val
    match f.schQueue with
    | [] => s
    | (l, desc) :: t =>
      if s.portAttached d.val 1 0 && s.live (domFCA d.val) && s.respRoom d.val 1 then
        let (c, s) := (s.setFab d.val { f with schQueue := t }).postItem d.val l.val desc
        (s.emit (.portStatus d 1 c 0 0)).schServe d n
      else s

/-- SCHP_DESCRIPTOR (R279, R289, R319): the scheduler port takes a descriptor into its queue of 16, or is not ready; at a
fenced die it is refused. -/
def execSchpDescriptor (die : Die) (list : Fin 64) (desc : Desc) (s : State) : Out :=
  let f := s.fab die.val
  .next (if s.portAttached die.val 1 0 && s.live (domFCA die.val) && decide (f.schQueue.length < 16) then
    (s.setFab die.val { f with schQueue := f.schQueue ++ [(list, desc)] }).schServe die 16
  else s)

-- completion rings (R285, R286)

def State.cring (s : State) (d r : Nat) : CRing := Tbl.get {} (s.sched d).rings r
def State.setCring (s : State) (d r : Nat) (v : CRing) : State :=
  let q := s.sched d
  s.setSched d { q with rings := Tbl.set {} q.rings r v }

/-- n of a ring of 2^n records. -/
def State.cringLog (s : State) (d r : Nat) : Nat := s.rf .schCringCtl [d, r] 0 5

/-- A ring is full (R286). -/
def State.cringFull (s : State) (d r : Nat) : Bool :=
  let q := s.cring d r
  (q.prod - q.cons).toNat == 2 ^ s.cringLog d r

/-- An engine acting on the part's own behalf (R184). -/
def engine : Req := { cls := .dma, rnum := 0 }

/-- A record is dropped at a full hold queue or a disabled ring. -/
def State.cringDrop (s : State) (d r : Nat) (g : Option Gid) : State :=
  let q := s.cring d r
  (s.setCring d r { q with lost := true }).countFor g (cn 7 3) d r 1

/-- A record is written to its ring; prod advances only after a write that succeeds (R286). -/
def State.cringWrite (s : State) (d r : Nat) (w : List Word) (fails : Bool) : State :=
  let q := s.cring d r
  let a := s.rd64 .schCringBase [d, r] + q.prod.toNat % 2 ^ s.cringLog d r * 32
  let (x, s) := if fails then ([.bad], s) else s.memWrite engine a (w.flatMap fun v => bytesOf v.toNat 4) []
  let q := s.cring d r
  if x.all fun y => y.byte?.isSome then s.setCring d r { q with prod := q.prod + 1 }
  else (s.setCring d r { q with lost := true }).count (cn 7 4) d r 1

/-- A completion record reaches its ring: written, held or dropped (R286). -/
def State.complete (s : State) (d r : Nat) (w : List Word) : State :=
  let q := s.cring d r
  if s.rb .schCringCtl [d, r] 5 = false then s.cringDrop d r none
  else if q.hold = [] ∧ s.cringFull d r = false then s.cringWrite d r w false
  else if q.hold.length < 16 then s.setCring d r { q with hold := q.hold ++ [w] }
  else s.cringDrop d r none

/-- HOLD_QUEUE_RELEASE (R286): the oldest waiting record finds room. -/
def execHoldQueueRelease (die : Die) (ring : Fin 16) (writeFails : Bool) (s : State) : Out :=
  let q := s.cring die.val ring.val
  .next (match q.hold with
    | w :: t =>
      if s.rb .schCringCtl [die.val, ring.val] 5 && !s.cringFull die.val ring.val then
        (s.setCring die.val ring.val { q with hold := t }).cringWrite die.val ring.val w writeFails
      else s
    | [] => s)

/-- A write of cons (R286). -/
def State.cringCons (s : State) (d r : Nat) (v : Word) : State :=
  let q := s.cring d r
  if 2 ^ s.cringLog d r < (q.prod - v).toNat then s.vio (40 + d) else s.setCring d r { q with cons := v }

/-- CRING_CONS_WRITE (R286). -/
def execCringConsWrite (r : Req) (die : Die) (ring : Fin 16) (v : Word) (s : State) : Out :=
  .next (if s.live (domFCA die.val) then s.guarded r fun s => s.cringCons die.val ring.val v else s)

-- the block's other writes (R281, R301)

/-- Sum of the quotas of a die's lists but one. -/
def State.quotasBut (s : State) (d l : Nat) : Nat :=
  ((List.range 64).map fun k => if k = l then 0 else s.rf .schList [d, k, 0] 0 13).sum

/-- A write of SCH_LIST word 0 (R281, R301). -/
def State.schListWrite (s : State) (d l : Nat) (v : Word) : State :=
  if 4096 < s.quotasBut d l + fld v 0 13 ∨ fld v 16 4 = 0 then s.vio (40 + d) else s.store .schList [d, l, 0] v

/-- A write of SCH_CRING + 0x08 (R301). -/
def State.cringCtlWrite (s : State) (d r : Nat) (v : Word) : State :=
  let en := s.rb .schCringCtl [d, r] 5
  let n := fld v 0 5
  if n < 6 ∨ 20 < n ∨ (en = true ∧ n ≠ s.cringLog d r) then s.vio (40 + d) else s.store .schCringCtl [d, r] v

/-- A write of SCH_CRING base (R301). -/
def State.cringBaseWrite (s : State) (d r : Nat) (lo hi : Word) : State :=
  if s.rb .schCringCtl [d, r] 5 ∨ fld lo 0 12 ≠ 0 then s.vio (40 + d)
  else (s.wr .schCringBase [d, r, 0] lo).wr .schCringBase [d, r, 1] (hi &&& 0xFFFF)

/-- SCH_LIST word 1. -/
def State.schListWord1 (s : State) (d l : Nat) : Word :=
  BitVec.ofNat 32 (pack [(0, s.heldItems d l), (13, b2n (bitOf (s.sched d).fullSeen l))])

end Sys2Proof.Machine
end

