-- ==== Sys2Proof/Machine/Mail.lean ====
section
/-! DEFINITION. Mailboxes (R290–R295, R302) and lock registers (R296–R298, R303). -/

namespace Sys2Proof.Machine

-- endpoints

/-- The side of a mailbox whose requester number makes an access: true for B (R291). -/
def Mailbox.sideOf (m : Mailbox) (rnum : Byte) : Option Bool :=
  if m.valid = false then none else if m.sideA == rnum then some false else if m.sideB == rnum then some true else none

/-- The outbound queue of a side, and its inbound one. -/
def Mailbox.out (m : Mailbox) (b : Bool) : MbxQueue := if b then m.ba else m.ab
def Mailbox.setOut (m : Mailbox) (b : Bool) (q : MbxQueue) : Mailbox := if b then { m with ba := q } else { m with ab := q }
def Mailbox.side (m : Mailbox) (b : Bool) : MbxSide := if b then m.b else m.a
def Mailbox.setSide (m : Mailbox) (b : Bool) (v : MbxSide) : Mailbox := if b then { m with b := v } else { m with a := v }
def Mailbox.num (m : Mailbox) (b : Bool) : Byte := if b then m.sideB else m.sideA

/-- Words that a queue holds. -/
def MbxQueue.words (q : MbxQueue) : Nat := (q.msgs.map fun m => m.length).sum + q.opened.length

/-- An endpoint is notified of a message or an acknowledge (R293, R294). -/
def State.notify (s : State) (n : Nat) (rnum : Byte) (ack : Bool) : State :=
  let k := rnum.toNat
  if k = 1 then { s with hif := { s.hif with mbxPend := setBit s.hif.mbxPend n true } }.sendVector 8
  else if k = 2 then s.raiseLine (if ack then 3 else 2)
  else if 16 ≤ k ∧ k < 80 then s.postMbx ((k - 16) / 16) n ack
  else if 80 ≤ k ∧ k < 96 then
    let d := (k - 80) / 4
    let j := (k - 80) % 4
    if s.portAttached d 2 j then s.emit (.mbxNotify (Fin.ofNat 4 d) j n) else s
  else s

/-- The die and mailbox port of a fabric requester (R7, R317). -/
def mbxPort (r : Req) : Option (Nat × Nat) :=
  if r.cls = .fabric ∧ 80 ≤ r.rnum.toNat ∧ r.rnum.toNat < 96 then some ((r.rnum.toNat - 80) / 4, (r.rnum.toNat - 80) % 4)
  else none

/-- A mailbox port is answered; other writers are not. -/
def State.portAnswer (s : State) (r : Req) (a : Reply) : State :=
  match mbxPort r with
  | some (d, j) => s.emit (.mbxResp (Fin.ofNat 4 d) j a)
  | none => s

/-- The part takes a mailbox access now: a fabric port's only while it is attached and its shell has room for the response
(R316, R319, R320; log entry 166). -/
def State.mbxTakes (s : State) (r : Req) : Bool :=
  s.live domSPN && match mbxPort r with
    | some (d, j) => s.respAttached d (2 + j) && s.respRoom d (2 + j)
    | none => true

/-- An access refused to a requester that is no side of the mailbox (R291). -/
def State.mbxRefuse (s : State) (r : Req) (v : Nat) : State := (s.vio v).portAnswer r .error

/-- A write of MBX_DATA or MBX_LAST (R292, R293). -/
def State.mbxPush (s : State) (r : Req) (n : Nat) (w : Word) (last : Bool) : State :=
  let m := s.mbx n
  if r.spec.isSome then s.count (cn 3 8) hub 0 1
  else match m.sideOf r.rnum with
    | none => s.mbxRefuse r 69
    | some b =>
      let q := m.out b
      if 8 ≤ q.words ∨ (last = false ∧ 7 ≤ q.opened.length) then s.mbxRefuse r 70
      else if last then
        let q := { msgs := q.msgs ++ [q.opened ++ [w]], opened := [] }
        let s := (s.setMbx n (m.setOut b q)).count (cn 7 5) hub (2 * n + b2n b) 1
        let s := if (m.side (!b)).ienMsg then s.notify n (m.num (!b)) false else s
        s.portAnswer r .ok
      else (s.setMbx n (m.setOut b { q with opened := q.opened ++ [w] })).portAnswer r .ok

/-- MBX_DATA (R292). -/
def execMbxData (r : Req) (n : Fin 128) (w : Word) (s : State) : Out :=
  .next (s.byReq r fun s => if s.mbxTakes r then s.mbxPush r n.val w false else s)

/-- MBX_LAST (R292, R293). -/
def execMbxLast (r : Req) (n : Fin 128) (w : Word) (s : State) : Out :=
  .next (s.byReq r fun s => if s.mbxTakes r then s.mbxPush r n.val w true else s)

/-- The other side takes an acknowledge or an empty event (R294). -/
def State.mbxEvent (s : State) (n : Nat) (b : Bool) (f : MbxSide → MbxSide) : State :=
  let m := s.mbx n
  let s := s.setMbx n (m.setSide b (f (m.side b)))
  if (m.side b).ienAck then s.notify n (m.num b) true else s

/-- A read of MBX_RX (R292, R294): the word, and the state after. -/
def State.mbxPop (s : State) (r : Req) (n : Nat) (quiet : Bool) : Option Word × State :=
  s.onBehalf r.spec fun s =>
    let m := s.mbx n
    match m.sideOf r.rnum with
    | none => (none, if quiet then s else s.vio 69)
    | some b =>
      let q := m.out (!b)
      match q.msgs with
      | [] => (some 0, if quiet then s else s.vio 71)
      | h :: t =>
        if quiet then (some (h.headD 0), s)
        else
          let rest := if h.length ≤ 1 then t else h.drop 1 :: t
          let s := s.setMbx n (m.setOut (!b) { q with msgs := rest })
          (some (h.headD 0),
            if rest = [] ∧ m.mode = false then s.mbxEvent n (!b) fun x => { x with valid := true, empty := true } else s)

/-- The answer to a mailbox read: a refused read returns 0, and a fabric port sees ok = 0 (R291, R322). -/
def State.mbxAnswer (s : State) (r : Req) (w : Option Word) : State :=
  match w with
  | some w => if (mbxPort r).isSome then s.portAnswer r (.word w) else s.answer r (.word w)
  | none => if (mbxPort r).isSome then s.portAnswer r .error else s.answer r (.word 0)

/-- MBX_RX (R292). -/
def execMbxRx (r : Req) (n : Fin 128) (quiet : Bool) (s : State) : Out :=
  .next (s.byReq r fun s => if s.mbxTakes r then
    let (w, s) := s.mbxPop r n.val quiet
    s.mbxAnswer r w
  else s)

/-- A write of MBX_ACK (R294). -/
def State.mbxAckWrite (s : State) (r : Req) (n : Nat) (code : BitVec 16) : State :=
  let m := s.mbx n
  if r.spec.isSome then s.count (cn 3 8) hub 0 1
  else match m.sideOf r.rnum with
    | none => s.mbxRefuse r 69
    | some b =>
      if m.mode = false then s.mbxRefuse r 69
      else (s.mbxEvent n (!b) fun x => { x with code := code, valid := true, ovf := x.ovf || x.valid }).portAnswer r .ok

/-- MBX_ACK (R294). -/
def execMbxAck (r : Req) (n : Fin 128) (code : BitVec 16) (s : State) : Out :=
  .next (s.byReq r fun s => if s.mbxTakes r then s.mbxAckWrite r n.val code else s)

/-- MBX_ACKRD's word of a side (R302). -/
def MbxSide.word (x : MbxSide) : Word :=
  BitVec.ofNat 32 (pack [(0, x.code.toNat), (16, b2n x.valid), (17, b2n x.ovf), (18, b2n x.empty)])

/-- A read of MBX_ACKRD (R294, R302): it clears valid, ovf, empty and the code. -/
def State.mbxAckRead (s : State) (r : Req) (n : Nat) (quiet : Bool) : Option Word × State :=
  s.onBehalf r.spec fun s =>
    let m := s.mbx n
    match m.sideOf r.rnum with
    | none => (none, if quiet then s else s.vio 69)
    | some b =>
      let x := m.side b
      (some x.word,
        if quiet then s
        else s.setMbx n (m.setSide b { x with code := 0, valid := false, ovf := false, empty := false }))

/-- MBX_ACKRD (R294). -/
def execMbxAckrd (r : Req) (n : Fin 128) (quiet : Bool) (s : State) : Out :=
  .next (s.byReq r fun s => if s.mbxTakes r then
    let (w, s) := s.mbxAckRead r n.val quiet
    s.mbxAnswer r w
  else s)

/-- The view's status word + 0x0C (R302). -/
def Mailbox.stat (m : Mailbox) (b : Bool) : Word :=
  let o := m.out b
  let i := m.out (!b)
  BitVec.ofNat 32 (pack [(0, 8 - o.words), (4, (i.msgs.map fun x => x.length).sum), (8, i.msgs.length),
    (12, (i.msgs.headD []).length), (16, b2n (o.opened != []))])

/-- MBX_CFG (R302). -/
def Mailbox.cfgWord (m : Mailbox) : Word :=
  BitVec.ofNat 32 (pack [(0, m.sideA.toNat), (8, m.sideB.toNat), (16, b2n m.mode), (17, b2n m.valid)])

/-- A write of MBX_IEN (R302). -/
def State.mbxIenWrite (s : State) (r : Req) (n : Nat) (v : Word) : State :=
  let m := s.mbx n
  match m.sideOf r.rnum with
  | none => s.vio 69
  | some b => s.setMbx n (m.setSide b { m.side b with ienMsg := bitOf v 0, ienAck := bitOf v 1 })

/-- An endpoint's open messages are discarded (R295). -/
def State.dropOpen (s : State) (rnum : Byte) : State :=
  upTo (fun n s =>
    let m := s.mbx n
    match m.sideOf rnum with
    | some b =>
      if (m.out b).opened = [] then s
      else (s.setMbx n (m.setOut b { m.out b with opened := [] })).count (cn 7 6) hub n 1
    | none => s) 128 s

-- locks (R296–R298)

/-- Requester q joins the waiters where there is room. -/
def Lock.wait (l : Lock) (q : Byte) : Lock :=
  if l.waiters.contains q ∨ 8 ≤ l.waiters.length then l else { l with waiters := l.waiters ++ [q] }

/-- A read by requester q (R296): the value, and the lock after. -/
def Lock.read (l : Lock) (q : Byte) : Nat × Lock :=
  let head := l.waiters.headD 0
  if l.grace = true ∧ q ≠ head then (head.toNat, l.wait q)
  else if l.owner = 0 then (0, { owner := q, waiters := l.waiters.filter fun w => w != q, grace := false })
  else (l.owner.toNat, if q = l.owner then l else l.wait q)

/-- A release (R297): grace opens for the head waiter. -/
def Lock.free (l : Lock) : Lock := { l with owner := 0, grace := l.waiters != [] }

/-- LOCK_READ (R125, R296, R298). -/
def State.lockRead (s : State) (r : Req) (n : Nat) (quiet : Bool) : Nat × State :=
  if r.spec.isSome then (256, s.count (cn 3 8) hub 0 1)
  else if quiet then ((s.lock n).owner.toNat, s)
  else
    let (v, l) := (s.lock n).read r.rnum
    (v, s.setLock n l)

/-- LOCK_READ (R296). -/
def execLockRead (r : Req) (n : Fin 256) (quiet : Bool) (s : State) : Out :=
  .next (s.byReq r fun s => if s.live domSPN then
    let (v, s) := s.lockRead r n.val quiet
    s.answer r (.word (BitVec.ofNat 32 v))
  else s)

/-- A write of a lock (R297). -/
def State.lockWrite (s : State) (r : Req) (n : Nat) (v : Word) : State :=
  if r.spec.isSome then s.count (cn 3 8) hub 0 1
  else if (s.lock n).owner = r.rnum ∧ v = 0 ∧ r.rnum ≠ 0 then s.setLock n (s.lock n).free
  else s.vio 72

/-- LOCK_RELEASE (R297). -/
def execLockRelease (r : Req) (n : Fin 256) (v : Word) (s : State) : Out :=
  .next (s.byReq r fun s => if s.live domSPN then s.lockWrite r n.val v else s)

/-- GRACE_EXPIRY (R297): the head has not read; the window passes to the next waiter. -/
def execGraceExpiry (n : Fin 256) (s : State) : Out :=
  let l := s.lock n.val
  .next (if l.grace then
    let w := l.waiters.drop 1
    (s.setLock n.val { l with waiters := w, grace := w != [] }).count (cn 7 7) hub 0 1
  else s)

/-- A lock released without its owner's write (R298). -/
def State.lockForce (s : State) (n : Nat) : State := (s.setLock n (s.lock n).free).count (cn 7 8) hub 0 1

/-- An endpoint goes: it leaves every waiter list and its locks are released (R298). -/
def State.lockGone (s : State) (rnum : Byte) : State :=
  upTo (fun n s =>
    let l := s.lock n
    let w := l.waiters.filter fun x => x != rnum
    let s := if w = l.waiters then s else s.setLock n { l with waiters := w, grace := l.grace && w != [] }
    if l.owner = rnum ∧ rnum ≠ 0 then s.lockForce n else s) 256 s

/-- The owner of a lock is halted (R523). -/
def State.ownerHalted (s : State) (n : Nat) : Bool :=
  let k := (s.lock n).owner.toNat
  if k = 2 then (s.core lampCore).dbg.halted
  else if 16 ≤ k ∧ k < 80 then (List.range 16).any fun i => (s.core ((k - 16) * 16 + i)).dbg.halted
  else false

/-- LCK_STAT (R303). -/
def State.lckStatWord (s : State) (n : Nat) : Word :=
  let l := s.lock n
  BitVec.ofNat 32 (pack [(0, l.owner.toNat), (8, b2n l.grace), (9, l.waiters.length), (13, b2n (s.ownerHalted n)),
    (14, (l.waiters.headD 0).toNat)])

/-- LCK_WAIT word k (R303). -/
def State.lckWaitWord (s : State) (n k : Nat) : Word :=
  BitVec.ofNat 32 (wordOfBytes (((s.lock n).waiters.drop (4 * k)).take 4))

end Sys2Proof.Machine
end

