-- ==== Sys2Proof/Machine/CoreTime.lean ====
section
/-! DEFINITION. The cycles of a core (R208, R214–R216, R236, R273–R275): its clock and budget, the pipeline's interlocks, and
what one instruction uses of them. -/

namespace Sys2Proof.Machine

-- the clock and the budget

/-- Cycles of a core's clock since reset: the passed spine edges, and on the Lamp half the spine's (R208, R240, R418). -/
def State.coreNow (s : State) (c : Nat) : Nat := if c = lampCore then s.clk.spine / 2 else s.clk.facet

/-- Every effect of the item is over: END has completed, its stores are acknowledged and its transfers are done (R235). -/
def CoreSt.drained (q : CoreSt) : Bool :=
  q.ending && (q.stores.all fun x => x.old) && (q.dmas.all fun x => x.old)

/-- The budget counts: an item's first instruction has issued, it has not ended, and no debugger halts the core (R236). -/
def CoreSt.counts (q : CoreSt) : Bool := q.item.isSome && q.time.started && !q.drained && !q.dbg.halted

/-- Counting n cycles on, cyc passes tcmp (R244). -/
def CoreSt.timerPassed (q : CoreSt) (n : Nat) : Bool := decide ((q.tcmp - q.cyc).toNat < n)

/-- n cycles of core c pass: cyc counts them, and the budget where it counts; the Lamp's timer is line 4. -/
def CoreSt.pass (q : CoreSt) (c n : Nat) : CoreSt :=
  { q with
    cyc := q.cyc + BitVec.ofNat 32 n,
    ipend := if c = lampCore ∧ q.timerPassed n = true then setBit q.ipend 4 true else q.ipend,
    bleft := if q.counts then BitVec.ofNat 32 (q.bleft.toNat - n) else q.bleft,
    time := { q.time with clock := q.time.clock + n } }

/-- Cycles without a move: the active transfer's rows are moved, one a cycle (R216). -/
def CoreSt.freeRows (q : CoreSt) (n : Nat) : CoreSt :=
  if n = 0 then q else { q with time := { q.time with rows := q.time.rows - n, waited := 0 } }

/-- The clock of a core whose domain is on is brought up to the spine's. -/
def State.sync (s : State) (c : Nat) : State :=
  let q := s.core c
  let n := s.coreNow c - q.time.clock
  if n = 0 ∨ s.on (if c = lampCore then domLMP else domFCA (c / 256)) = false then s else s.setCore c ((q.freeRows n).pass c n)

/-- n cycles of an instruction pass, or, where the item's budget ends before them, as many as it has left; then the
instruction performs nothing (R236). -/
def State.spend (s : State) (c n : Nat) : Bool × State :=
  let q := s.core c
  if q.counts = true ∧ c ≠ lampCore ∧ q.bleft.toNat < n then (false, s.setCore c (q.pass c q.bleft.toNat))
  else (true, s.setCore c (q.pass c n))

-- what an instruction uses of the pipeline (R274, R275)

/-- The flags that a branch reads. -/
inductive Cond where
  | none | integer | accumulator
  deriving DecidableEq, Repr

/-- What an instruction reads in the address stage, the flags that it branches on, the accumulators that it reads or
multiplies into, and what it produces. `code` tells accumulator operations apart: the code of R257, or 32 and that of R260. -/
structure Uses where
  addr : List (Fin 16) := []
  cond : Cond := .none
  into : Option (Fin 4) := none
  reads : List (Fin 4) := []
  /-- An integer-unit result, an extraction or accumulator move, and a result of another kind. -/
  alu : Option (Fin 16) := none
  ext : Option (Fin 16) := none
  other : Option (Fin 16) := none
  flags : Bool := false
  writes : Option (Fin 4) := none
  accFlags : Bool := false
  code : Nat := 0
  /-- It multiplies; it is MACL or MSUL; it is PKN, PKNX, MAXI or MINI. -/
  mul : Bool := false
  long : Bool := false
  search : Bool := false

/-- The registers and the accumulator that a form names as its destination (R257, R258, R260). -/
def aluDest : AluForm → Fin 16
  | .par ua _ _ => ⟨8 + ua.val, by omega⟩
  | .alu3 xd _ _ => xd
  | .alui xd _ _ => xd

def shDest : ShForm → Fin 16
  | .alu3 xd _ _ => xd
  | .alui xd _ _ => xd

def accOf : AccForm → Fin 4
  | .par a _ _ _ => a
  | .full a _ _ => a

def accFirst : AccForm → Fin 16
  | .par _ ua _ _ => ⟨8 + ua.val, by omega⟩
  | .full _ xa _ => xa

/-- An integer operation with its flags. -/
def usesAlu (xd : Fin 16) : Uses := { alu := some xd, flags := true }

/-- A multiplication into an accumulator. -/
def usesMul (f : AccForm) (code : Nat) (long : Bool) : Uses :=
  { into := some (accOf f), writes := some (accOf f), accFlags := true, code := code, mul := true, long := long }

/-- An extraction. -/
def usesExt (f : AccForm) : Uses := { reads := [accOf f], ext := some (accFirst f), flags := true }

/-- A running search. -/
def usesSearch (f : AccForm) (code : Nat) : Uses := { reads := [accOf f], writes := some (accOf f), code := code, search := true }

/-- An operation on accumulators alone. -/
def usesAcc (a : Fin 4) (reads : List (Fin 4)) (code : Nat) : Uses :=
  { reads := reads, writes := some a, accFlags := true, code := code }

/-- The flags of a branch condition (R256). -/
def condOf (cond : BitVec 4) : Cond :=
  if cond = 0 ∨ cond = 0xF then .none else if 9 ≤ cond.toNat ∧ cond.toNat ≤ 13 then .accumulator else .integer

/-- What each instruction uses; its moves apart (R274). -/
def uses : Instr → Uses
  | .add _ f => usesAlu (aluDest f)
  | .sub _ f => usesAlu (aluDest f)
  | .adds _ f => usesAlu (aluDest f)
  | .subs _ f => usesAlu (aluDest f)
  | .add2 _ f => usesAlu (aluDest f)
  | .sub2 _ f => usesAlu (aluDest f)
  | .add2s _ f => usesAlu (aluDest f)
  | .and _ f => usesAlu (aluDest f)
  | .or _ f => usesAlu (aluDest f)
  | .xor _ f => usesAlu (aluDest f)
  | .mov _ f => usesAlu (aluDest f)
  | .abs _ f => usesAlu (aluDest f)
  | .max _ f => usesAlu (aluDest f)
  | .min _ f => usesAlu (aluDest f)
  | .clr _ f => usesAcc (accOf f) [] 0x10
  | .mul _ f => usesMul f 0x11 false
  | .mac _ f => usesMul f 0x12 false
  | .msu _ f => usesMul f 0x13 false
  | .mac2 _ f => usesMul f 0x14 false
  | .msu2 _ f => usesMul f 0x15 false
  | .macl _ f => usesMul f 0x16 true
  | .msul _ f => usesMul f 0x17 true
  | .exth _ f => usesExt f
  | .extw _ f => usesExt f
  | .exts _ xd a _ => { reads := [a], ext := some xd, flags := true }
  | .pkn _ f => usesSearch f 0x1A
  | .pknx _ f => usesSearch f 0x1B
  | .maxi _ f => usesSearch f 0x1C
  | .mini _ f => usesSearch f 0x1D
  | .shl _ f => usesAlu (shDest f)
  | .shr _ f => usesAlu (shDest f)
  | .asr _ f => usesAlu (shDest f)
  | .cmp _ _ => { flags := true }
  | .norm _ xd _ => usesAlu xd
  | .expn _ xd _ => usesAlu xd
  | .mulw _ xd _ _ => { usesAlu xd with mul := true }
  | .movi _ _ xd _ => { alu := some xd }
  | .mtp _ _ x => { addr := [x] }
  | .mtm _ _ x => { addr := [x] }
  | .mfp _ _ x => { other := some x }
  | .mfm _ _ x => { other := some x }
  | .mfal _ xd a => { reads := [a], ext := some xd }
  | .mfah _ xd a => { reads := [a], ext := some xd }
  | .mfag _ xd a => { reads := [a], ext := some xd }
  | .mtal _ a _ => usesAcc a [] 0x24
  | .mtah _ a _ => usesAcc a [] 0x25
  | .mtag _ a _ => usesAcc a [] 0x26
  | .ash _ a _ => usesAcc a [a] 0x27
  | .adda _ a b => usesAcc a [a, b] 0x28
  | .suba _ a b => usesAcc a [a, b] 0x29
  | .mova _ a b => usesAcc a [b] 0x2A
  | .nega _ a b => usesAcc a [b] 0x2B
  | .expa _ xd a => { reads := [a], other := some xd, flags := true }
  | .br _ cond _ => { cond := condOf cond }
  | .call _ _ => { other := some 15 }
  | .rep _ (.reg xs) _ => { addr := [xs] }
  | .jr _ xs => { addr := [xs] }
  | .mfc _ xd _ => { alu := some xd }
  | .sc _ xd xs _ => { addr := [xs], other := some xd }
  | _ => {}

/-- The greatest of some cycles. -/
def latest (l : List Nat) : Nat := l.foldl max 0

/-- The first cycle in which an instruction may issue that uses u and stores the registers `data` (R274, R275). -/
def CoreTime.mayIssue (t : CoreTime) (u : Uses) (data : List (Fin 16)) : Nat :=
  latest ((u.addr.map fun x => Tbl.get 0 t.addrFrom x.val) ++ (data.map fun x => Tbl.get 0 t.storeFrom x.val) ++
    (match u.cond with
      | .none => []
      | .integer => [t.flagsFrom]
      | .accumulator => [t.accFlagsFrom]) ++
    (match u.into with
      | some a => [Tbl.get 0 t.intoFrom a.val]
      | none => []) ++
    (u.reads.map fun a =>
      if u.writes = some a ∧ u.code ≠ 0 ∧ Tbl.get 0 t.writer a.val = u.code then 0 else Tbl.get 0 t.readFrom a.val) ++
    (if u.mul then [t.mulFrom] else []))

/-- Cycles that the instruction waits in DE beyond the next cycle. -/
def CoreSt.stall (q : CoreSt) (u : Uses) (data : List (Fin 16)) : Nat := q.time.mayIssue u data - (q.time.clock + 1)

/-- A result's distances, from a producer that issued in cycle b: as store data and in the address stage. -/
def CoreTime.produce (t : CoreTime) (x : Fin 16) (store addr : Nat) : CoreTime :=
  { t with storeFrom := Tbl.set 0 t.storeFrom x.val store, addrFrom := Tbl.set 0 t.addrFrom x.val addr }

/-- The distances that an instruction leaves (R274): it issued in cycle b, or its window data returned then; `loads` are the
registers that it loads. -/
def CoreTime.leave (t : CoreTime) (u : Uses) (loads : List (Fin 16)) (b : Nat) : CoreTime :=
  let t := (u.alu.map fun x => t.produce x (b + 2) (b + 3)).getD t
  let t := (u.ext.map fun x => t.produce x (b + 2) (b + 1)).getD t
  let t := (u.other.map fun x => t.produce x (b + 1) (b + 1)).getD t
  let t := loads.foldl (fun (t : CoreTime) x => t.produce x (b + 1) (b + 2)) t
  let t := if u.flags then { t with flagsFrom := b + 3 } else t
  let t := if u.accFlags then { t with accFlagsFrom := b + 4 } else t
  let t := match u.writes with
    | some a =>
      { t with
        intoFrom := Tbl.set 0 t.intoFrom a.val (b + (if u.long || u.search then 2 else 1)),
        readFrom := Tbl.set 0 t.readFrom a.val (b + 2),
        writer := Tbl.set 0 t.writer a.val u.code }
    | none => t
  if u.mul then { t with mulFrom := b + (if u.long then 2 else 1) } else t

-- the banks (R214–R216)

/-- The first of the next cycles, from cycle t on, in which no merged word is written into the banks. -/
def CoreTime.freeFrom (q : CoreTime) (banks : List Nat) (t : Nat) : Nat → Nat
  | 0 => t
  | n + 1 => if q.merges.any (fun m => m.1 == t && banks.contains m.2) then q.freeFrom banks (t + 1) n else t

/-- Rows of a transfer (R216). -/
def rowsOf (len : Nat) : Nat := (len + 31) / 32

/-- The cycle in which the last of an instruction's DMEM moves is served, where its first can be in cycle t: a row that has
waited 16 cycles goes before it, a bank that takes a merged word is busy, and a conflict serves slot 1 after slot 0. -/
def CoreTime.served (q : CoreTime) (banks : List Nat) (conflict : Bool) (t : Nat) : Nat :=
  let t := if 16 ≤ q.waited ∧ 0 < q.rows then t + 1 else t
  match banks, conflict with
  | [a, b], true =>
    let first := q.freeFrom [a] t 8
    q.freeFrom [b] (first + 1) 8
  | banks, _ => q.freeFrom banks t 8

/-- What an instruction's cycle does to the transfer that is active: with a DMEM move its row waits, or takes a cycle before
it; without one the row is moved. -/
def CoreTime.rowStep (q : CoreTime) (moves : Bool) : CoreTime :=
  if q.rows = 0 then { q with waited := 0 }
  else if moves = false ∨ 16 ≤ q.waited then { q with rows := q.rows - 1, waited := 0 }
  else { q with waited := q.waited + 1 }

end Sys2Proof.Machine
end

