-- ==== Sys2Proof/Machine/Cores.lean ====
section
/-! DEFINITION. Facet cores and the Lamp (08_facet_cores): their memories, how items start, end and abort, exceptions and
interrupts, clusters, and the watchdog. -/

namespace Sys2Proof.Machine

-- where a core lies (R207)

/-- Die of a Facet core. -/
def coreDie (c : Nat) : Nat := c / 256

/-- Global cluster of a Facet core. -/
def coreCluster (c : Nat) : Nat := c / 16

/-- The core can run: its domain is on and unfenced, and the Lamp is not held in reset (R208, R240, R437). -/
def State.coreLive (s : State) (c : Nat) : Bool :=
  if c = lampCore then s.live domLMP && !s.wdg.lampReset else s.live (domFCA (coreDie c))

/-- The Glint of the core's speculative item. -/
def CoreSt.glint (q : CoreSt) : Option Gid := q.item.bind fun it => descGlint it.desc

/-- The requester that a core's requests name (R207, R224, R228). -/
def coreReq (c : Nat) (g : Option Gid) : Req :=
  if c = lampCore then { cls := .lamp, rnum := 2 }
  else { cls := .facet, rnum := BitVec.ofNat 8 (16 + coreCluster c), spec := g }

-- local memories (R215, R235, R240)

/-- Words of a core's DMEM, or of the Lamp's SRAM. -/
def dmemWords (c : Nat) : Nat := if c = lampCore then 0x100000 else 0x4000

/-- A core's word store: DMEM, or IMEM (the Lamp's SRAM is both). -/
def CoreSt.words (q : CoreSt) (im : Bool) : Tbl Word := if im then q.imem else q.dmem
def CoreSt.bad (q : CoreSt) (im : Bool) : Tbl Nat := if im then q.badI else q.badD

/-- A core has IMEM apart from its data memory. -/
def isImem (c : Nat) (im : Bool) : Bool := im && c != lampCore

def CoreSt.setWordAt (q : CoreSt) (im : Bool) (i : Nat) (w : Word) : CoreSt :=
  if im then { q with imem := Tbl.set 0 q.imem i w } else { q with dmem := Tbl.set 0 q.dmem i w }
def CoreSt.setBad (q : CoreSt) (im : Bool) (i n : Nat) : CoreSt :=
  if im then { q with badI := Tbl.set 0 q.badI i n } else { q with badD := Tbl.set 0 q.badD i n }

/-- A memory error of a core's words (R235): its counter, held for the Glint of the speculative item that met it (R126,
R247), and its record. -/
def State.coreMemFault (s : State) (g : Option Gid) (c : Nat) (cls addr : Nat) (inj : Bool) : State :=
  if c = lampCore then
    s.offer .hub 6 0 cls (Config.detCode 6 cls) (Config.syndrome 6 cls addr) (BitVec.ofNat 48 addr) inj
  else
    (s.countErr g (cn 6 (2 + cls)) (coreDie c) (coreCluster c % 16) 1).offer (.die (coreDie c)) 5 c cls
      (Config.detCode 5 cls) (Config.syndrome 5 cls addr) (BitVec.ofNat 48 addr) inj

/-- Local address of word i (R213). -/
def localAddr (im : Bool) (i : Nat) : Nat := if im then 0x10000 + 4 * i else 4 * i

/-- A word of a core's memory is read and checked (R235) by an instruction of Glint g's item, or of none, or by an access that
belongs to no item; none where it is uncorrectable. -/
def State.readLocal (s : State) (g : Option Gid) (c : Nat) (im : Bool) (i : Nat) : Option Word × State :=
  let im := isImem c im
  let q := s.core c
  let n := Tbl.get 0 (q.bad im) i % 64
  let inj := decide (64 ≤ Tbl.get 0 (q.bad im) i)
  let w := Tbl.get 0 (q.words im) i
  if n = 0 then (some w, s)
  else if n = 1 then (some w, (s.setCore c (q.setBad im i 0)).coreMemFault g c 0 (localAddr im i) inj)
  else if n = 2 then (none, s.coreMemFault g c 1 (localAddr im i) inj)
  else
    -- beyond what the code is sure to find
    let (f, s) := s.free 1
    if f = 1 then (none, s.coreMemFault g c 1 (localAddr im i) inj)
    else let (w, s) := s.free 32; (some w, s)

/-- A word of a core's memory written whole (R235), with the pattern of an injection on it (R499). -/
def State.writeLocal (s : State) (c : Nat) (im : Bool) (i : Nat) (w : Word) : State :=
  let im := isImem c im
  let s := s.setCore c (((s.core c).setWordAt im i w).setBad im i 0)
  if s.rf .fltInjSel [] 16 9 = b2n im then
    match s.inject (if c = lampCore then 6 else 5) (if c = lampCore then 0 else c) (localAddr im i) with
    | (some p, s) =>
      let n := popCount p 39
      s.setCore c ((s.core c).setBad im i (if n = 0 then 0 else n + 64))
    | (none, s) => s
  else s

/-- Bytes of a core's data memory, little-endian, read through the check; none where a word is uncorrectable. -/
def State.readLocalBytes (s : State) (g : Option Gid) (c a : Nat) : Nat → Option (List Byte) × State
  | 0 => (some [], s)
  | n + 1 =>
    let (w, s) := s.readLocal g c false (a / 4)
    let (t, s) := s.readLocalBytes g c (a + 1) n
    ((w.bind fun w => t.map fun t => (bytesOf w.toNat 4).getD (a % 4) 0 :: t), s)

/-- A word with some of its bytes replaced: those of `bs` from byte k on. -/
def mergeBytes (w : Word) (k : Nat) (bs : List Byte) : Word :=
  let old := bytesOf w.toNat 4
  BitVec.ofNat 32 (wordOfBytes (old.take k ++ bs ++ old.drop (k + bs.length)))

/-- A reservation on a line of a core's own memory is lost when a DMA or the debugger writes the line (R267). -/
def State.nearLost (s : State) (c a : Nat) : State :=
  let q := s.core c
  if q.resv = some (.near (a / 64)) then s.setCore c { q with resv := none } else s

-- the Lamp's reset (R242, R295, R298, R522)

/-- A waiting instruction is given up and performs nothing (R233): the word that its DMEM store replaced comes back. -/
def CoreSt.giveUp (q : CoreSt) : CoreSt :=
  let r := match q.undo with
    | some (i, w, n) => (q.setWordAt false i w).setBad false i n
    | none => q
  { r with wait := none, passed := 0, got := [], near := [], undo := none }

/-- A Lamp core reset: every register is cleared, PC 0, mode S; SRAM is kept, a debug halt is cleared. -/
def State.lampCoreReset (s : State) : State :=
  let q := (s.core lampCore).giveUp
  let dbg := { q.dbg with halted := false, stopping := false, stepping := false, cause := 0 }
  let s := s.setCore lampCore { dmem := q.dmem, badD := q.badD, dbg := dbg, time := { clock := s.coreNow lampCore } }
  let s := { s with su := { s.su with cLamp := true } }
  (s.dropOpen 2).lockGone 2

-- exceptions (R232–R235, R243)

/-- Exceptions and interrupts save and enter (R243). -/
def State.lampEnter (s : State) (cause : Word) (addr : Word) (st : BitVec 16) (vec : Nat) : State :=
  let q := s.core lampCore
  s.setCore lampCore { q with
    epc := q.pc,
    est := q.st,
    ecause := cause,
    eaddr := addr,
    st := setBit (setBit st 5 false) 4 false,
    suspended := fld q.st 0 3 :: q.suspended,
    wfi := false,
    pc := q.vbase + BitVec.ofNat 32 vec }

/-- An exception of the Lamp; one in an exception handler is a double fault (R243). -/
def State.lampException (s : State) (code detail : Nat) (addr : Word) : State :=
  let q := s.core lampCore
  let s := s.count (cn 6 6) hub 0 1
  if bitOf q.st 7 then
    (s.offer .hub 7 0 1 (Config.detCode 7 0) (Config.syndrome 7 0 q.epc.toNat) (BitVec.ofNat 48 q.epc.toNat) false).lampCoreReset
  else
    let s := s.setCore lampCore { q with resv := none }
    s.lampEnter (BitVec.ofNat 32 (code + 256 * detail)) addr (setBit q.st 7 true) 0

/-- The eight words of an item's completion record (R285). -/
def State.cplWords (s : State) (c : Nat) (it : Item) (status cause pc addr : Nat) : List Word :=
  let q := s.core c
  let d := it.desc
  let n := pack [(0, (dword d 6).toNat), (32, c), (42, status), (44, b2n q.storeErr), (45, b2n q.specBlocked),
    (46, b2n (descSpec d)), (48, if descSpec d then descHandle d else 0), (64, cause), (80, pc % 16384),
    (96, addr % 262144), (128, (dword d 3).toNat - q.bleft.toNat), (160, it.list.val), (192, s.now.toNat)]
  (List.range 8).map fun i => BitVec.ofNat 32 (n >>> (32 * i))

/-- An item of a Glint is no longer out (R127); its record waits in the Glint's shadow space (R125, R287). -/
def State.glintItemOver (s : State) (d : Nat) (it : Item) (keep : Bool) (words : List Word) : State :=
  match descGlint it.desc with
  | none => s
  | some g =>
    let sl := s.slot g.val
    if descHandle it.desc = (s.handleOf g.val).toNat ∧ sl.state ≠ 0 ∧ bitOf sl.ended d = false then
      let r := fld (dword it.desc 4) 0 4
      let cs := if keep && bitOf (dword it.desc 4) 4 && sl.state != 4 then sl.completions ++ [(d, r, words)]
        else sl.completions
      s.setSlot g.val { sl with itemsOut := sl.itemsOut - 1, completions := cs }
    else s

/-- An item's record reaches its ring, or its Glint (R285–R287). -/
def State.itemRecord (s : State) (c : Nat) (it : Item) (status cause pc addr : Nat) : State :=
  let d := coreDie c
  let w := s.cplWords c it status cause pc addr
  if descSpec it.desc then s.glintItemOver d it true w
  else if bitOf (dword it.desc 4) 4 then s.complete d (fld (dword it.desc 4) 0 4) w
  else s

/-- The core holds no running item any more; stores and the active transfer of an aborted item go on (R234). -/
def CoreSt.dropItem (q : CoreSt) : CoreSt :=
  { q with
    item := none,
    ending := false,
    fencing := false,
    resv := none,
    stores := q.stores.map fun x => { x with old := true },
    dmas := (q.dmas.take 1).map fun x => { x with old := true } }

/-- An exception, the budget or a core reset aborts the running item (R234, R236, R445): status 1 FAULT, 2 TIMEOUT; where
the exception has no faulting address, the field's value is left open. -/
def State.abortItem (s : State) (c : Nat) (status cause : Nat) (addr : Option Word) : State :=
  let s := s.sync c
  let s := s.setCore c (s.core c).giveUp
  let q := s.core c
  match q.item with
  | none => s
  | some it =>
    let (f, s) := s.free 18
    let a := (addr.getD (f.setWidth 32)).toNat
    let s := s.itemRecord c it status cause q.pc.toNat a
    let s := s.countFor (descGlint it.desc) (cn 6 1) (coreDie c) (coreCluster c % 16) 1
    let q := (s.core c).dropItem
    s.setCore c { q with lastExc := BitVec.ofNat 12 cause, lastAddr := BitVec.ofNat 18 a }

/-- An exception of a core: a Facet's item aborts (R234), the Lamp enters its handler (R243). -/
def State.raiseExc (s : State) (c : Nat) (code detail : Nat) (addr : Option Word) : State :=
  if c = lampCore then
    let (f, s) := s.free 32
    (s.setCore c (s.core c).giveUp).lampException code detail (addr.getD f)
  else s.abortItem c (if code = 8 then 2 else 1) (code + 256 * detail) addr

-- the life of an item (R209, R210, R235–R237, R284)

/-- The registers of a core at the first instruction of an item (R209, R210, R253); memories and debug settings stay. -/
def CoreSt.begin (q : CoreSt) (it : Item) : CoreSt :=
  { dmem := q.dmem, imem := q.imem, badD := q.badD, badI := q.badI, dbg := q.dbg, cyc := q.cyc, dmas := q.dmas,
    stores := q.stores, dla := q.dla, ddaLo := q.ddaLo, ddaHi := q.ddaHi, dblocked := q.dblocked, dpart := q.dpart,
    dbitmap := q.dbitmap, lastExc := q.lastExc, lastAddr := q.lastAddr,
    time := { clock := q.time.clock, rows := q.time.rows, waited := q.time.waited },
    item := some it,
    x := ((Vector.replicate 16 (0 : Word)).set 0 (dword it.desc 1)).set 1 (BitVec.ofNat 32 (fld (dword it.desc 2) 0 16)),
    st := BitVec.ofNat 16 (0x0900 + 8 * b2n (descSpec it.desc)),
    pc := BitVec.ofNat 32 (fld (dword it.desc 0) 0 14),
    bleft := dword it.desc 3 }

/-- ITEM_START (R209, R284): a misaligned entry raises FETCH with nothing performed. -/
def execItemStart (core : Facet) (s : State) : Out :=
  let c := core.val
  let s := s.sync c
  let q := s.core c
  .next (match q.prefetch with
    | some it =>
      if s.coreLive c && q.item.isNone && !q.dbg.halted then
        let s := s.setCore c (q.begin it)
        if fld (dword it.desc 0) 0 2 = 0 then s else s.raiseExc c 9 0 none
      else s
    | none => s)

/-- ITEM_END (R235, R285, R286). -/
def execItemEnd (core : Facet) (s : State) : Out :=
  let c := core.val
  let s := s.sync c
  let q := s.core c
  .next (match q.item with
    | some it =>
      if s.coreLive c && q.drained then
        let s := s.itemRecord c it 0 0 0 0
        let s := s.countFor (descGlint it.desc) (cn 6 0) (coreDie c) (coreCluster c % 16) 1
        s.setCore c (s.core c).dropItem
      else s
    | none => s)

/-- An item whose budget is used up, and that has not ended, aborts with TIMEOUT (R236). -/
def State.timeOut (s : State) (c : Nat) : State :=
  if c ≠ lampCore ∧ (s.core c).counts = true ∧ (s.core c).bleft = 0 then s.raiseExc c 8 0 none else s

/-- BUDGET_TIMEOUT (R236): the cycles that the budget has left pass before the item has ended. -/
def execBudgetTimeout (core : Facet) (s : State) : Out :=
  let c := core.val
  let s := s.sync c
  let q := s.core c
  .next (if s.coreLive c && q.counts then (s.setCore c (q.pass c q.bleft.toNat)).timeOut c else s)

-- halts (R520–R523)

/-- A core halts, or stops issuing until the instruction that waits has completed (R520); its reservation goes (R523). -/
def State.haltCore (s : State) (c cause : Nat) : State :=
  let s := s.sync c
  let q := s.core c
  if s.coreLive c = false ∨ q.dbg.halted = true then s
  else if q.wait.isSome then
    s.setCore c { q with dbg := { q.dbg with stopping := true, cause := BitVec.ofNat 3 cause } }
  else
    let dbg := { q.dbg with halted := true, stopping := false, stepping := false, cause := BitVec.ofNat 3 cause }
    (s.setCore c { q with resv := none, dbg := dbg }).count (cn 17 1) hub 0 1

/-- The cores of a halt group (R520). -/
def State.groupMembers (s : State) (g : Nat) : List Nat :=
  (s.cores.filter fun e => e.2.dbg.groupEn && e.2.dbg.group.toNat == g).map fun e => e.1

/-- Every member of a group halts. -/
def State.haltGroup (s : State) (g : Nat) : State := (s.groupMembers g).foldl (fun s c => s.haltCore c 2) s

-- dispatch (R283, R284)

/-- The class of a core of a die (SCH_CORE_CLASS). -/
def State.coreClass (s : State) (c : Nat) : Nat := s.rf .schCoreClass [coreDie c, c % 256 / 8] (4 * (c % 8)) 4

/-- The core may run the item. -/
def State.eligible (s : State) (c : Nat) (d : List Word) : Bool := bitOf (dword d 0) (16 + s.coreClass c)

/-- The cluster's park bit. -/
def State.parkSet (s : State) (cl : Nat) : Bool := s.rb .cluCtrl [cl / 16, cl % 16] 0

/-- A slot of the core is open for an item: its cluster is not parked and its prefetch slot is empty. -/
def State.slotOpen (s : State) (c : Nat) : Bool := !s.parkSet (coreCluster c) && (s.core c).prefetch.isNone

/-- A list without one element. -/
def removeAt {α : Type} (l : List α) (i : Nat) : List α := l.take i ++ l.drop (i + 1)

/-- The core may run an item of the list. -/
def State.listFor (s : State) (c l : Nat) : Bool := (s.readyList (coreDie c) l).any fun x => s.eligible c x

/-- Services that the list's weight still gives it in the present round (R283). -/
def State.servesLeft (s : State) (d l : Nat) : Bool :=
  decide (Tbl.get 0 (s.sched d).served l < s.rf .schList [d, l, 0] 16 4)

/-- The lists' services with those of list l's one more: in the present round, or, where no list that holds an item for the
core has a service left in it, in a new one; none where it is not list l's turn (R283). -/
def State.serveList (s : State) (c l : Nat) : Option (Tbl Nat) :=
  let d := coreDie c
  let t := (s.sched d).served
  if s.servesLeft d l then some (Tbl.set 0 t l (Tbl.get 0 t l + 1))
  else if (List.range 64).any fun k => s.listFor c k && s.servesLeft d k then none
  else some (Tbl.set 0 [] l 1)

/-- ITEM_DISPATCH (R282, R283): a list whose turn it is fills the core's prefetch slot with one of its items that the core may
run, which one a free value says; a core that runs an item is passed over while another, with none, may take the item. -/
def execItemDispatch (core : Facet) (list : Fin 64) (s : State) : Out :=
  let c := core.val
  let d := coreDie c
  let l := list.val
  let q := s.readyList d l
  .next (if s.live (domFCA d) && s.rb .schCtrl [d] 0 && s.slotOpen c && s.listFor c l then
    match s.serveList c l with
    | none => s
    | some t =>
      let own := (List.range q.length).filter fun i => s.eligible c (q.getD i [])
      let (n, s) := s.free 64
      let i := own.getD (n.toNat % own.length) 0
      let x := q.getD i []
      let other := (List.range 256).any fun j =>
        let k := 256 * d + j
        (s.core k).item.isNone && s.slotOpen k && s.eligible k x
      if (s.core c).item.isSome && other then s
      else
        let s := s.setReadyList d l (removeAt q i)
        let s := s.setSched d { s.sched d with served := t }
        s.setCore c { s.core c with prefetch := some { desc := x, list := list } }
  else s)

-- clusters (R229–R231, R237–R239, R248)

/-- The cores of a cluster. -/
def clusterCores (cl : Nat) : List Nat := (List.range 16).map fun k => 16 * cl + k

/-- No core of the cluster holds an item (R237). -/
def State.clusterIdle (s : State) (cl : Nat) : Bool :=
  (clusterCores cl).all fun c => (s.core c).item.isNone && (s.core c).prefetch.isNone

/-- SCH_CLU_STAT.parked. -/
def State.parked (s : State) (cl : Nat) : Bool := s.parkSet cl && s.clusterIdle cl

/-- A prefetched item returns to its ready list (R237). -/
def State.returnItem (s : State) (c : Nat) : State :=
  let q := s.core c
  match q.prefetch with
  | some it =>
    let s := s.setCore c { q with prefetch := none }
    s.setReadyList (coreDie c) it.list.val (s.readyList (coreDie c) it.list.val ++ [it.desc])
  | none => s

/-- Every line of a cluster's cache goes (R231). -/
def State.dropLines (s : State) (cl : Nat) (busy : Bool) : State :=
  s.setCluster cl { s.cluster cl with lines := [], invBusy := busy }

/-- A write of SCH_CLU_CTRL (R231, R237, R239, R248). -/
def State.cluCtrlWrite (s : State) (cl : Nat) (v : Word) : State :=
  if (s.cluster cl).ldBusy && s.parkSet cl && !bitOf v 0 then s.vio (32 + cl / 16)
  else
    let s := s.store .cluCtrl [cl / 16, cl % 16] v
    let s := if bitOf v 0 then (clusterCores cl).foldl (fun s c => s.returnItem c) s else s
    if bitOf v 2 then s.dropLines cl true else s

/-- PARK (R237, R239). -/
def execPark (r : Req) (cl : Cluster) (park : Bool) (s : State) : Out :=
  .next (if s.live (domFCA (cl.val / 16)) then
    s.guarded r fun s =>
      s.cluCtrlWrite cl.val (BitVec.ofNat 32 (s.rf .cluCtrl [cl.val / 16, cl.val % 16] 1 1 * 2 + b2n park))
  else s)

/-- CACHE_INVALIDATE (R231): SCH_CLU_CTRL.cache_inv is written 1. -/
def execCacheInvalidate (r : Req) (cl : Cluster) (s : State) : Out :=
  .next (if s.live (domFCA (cl.val / 16)) then
    s.guarded r fun s =>
      s.cluCtrlWrite cl.val (BitVec.ofNat 32 (s.rf .cluCtrl [cl.val / 16, cl.val % 16] 0 2 + 4))
  else s)

/-- SNOOP_INVALIDATE (R230): the cluster answers an invalidation of the snoop filter. -/
def execSnoopInvalidate (cl : Cluster) (line : Addr) (s : State) : Out :=
  let l := line.toNat / 64
  .next (if s.noc.snoops.contains (cl.val, l) then
    let q := s.cluster cl.val
    let s := s.setCluster cl.val { q with lines := q.lines.filter fun x => x != l }
    s.snoopsEnd fun x => x == (cl.val, l)
  else s)

/-- A write of SCH_CLU_LD_CTRL (R238, R239). -/
def State.loaderWrite (s : State) (r : Req) (cl : Nat) (v : Word) : State :=
  let ix := [cl / 16, cl % 16]
  if bitOf v 16 = false then s.store .cluLdCtrl ix v
  else
    let span := s.rd .cluLdSpan ix
    let src := s.rd64 .cluLdSrc ix
    if !s.parked cl || (s.cluster cl).ldBusy || fld v 0 16 == 0 || src % 4 != 0 || fld span 16 13 == 0 ||
        decide (4096 < fld span 0 12 + fld span 16 13) then s.vio (32 + cl / 16)
    else
      let s := s.store .cluLdCtrl ix v
      s.setCluster cl { s.cluster cl with
        ldBusy := true,
        doneOk := false,
        failed := false,
        failMap := 0,
        ldCls := r.cls,
        ldSrc := BitVec.ofNat 48 src,
        ldSpan := span,
        ldMask := BitVec.ofNat 16 (fld v 0 16) }

/-- LOADER_GO (R238, R239). -/
def execLoaderGo (r : Req) (cl : Cluster) (mask : BitVec 16) (s : State) : Out :=
  .next (if s.live (domFCA (cl.val / 16)) then
    s.guarded r fun s => s.loaderWrite r cl.val (BitVec.ofNat 32 (mask.toNat + 65536))
  else s)

/-- A read of line l through a cluster's cache (R229): whether it hits. -/
def State.cacheHit (s : State) (cl l : Nat) : Bool := s.rb .cluCtrl [cl / 16, cl % 16] 1 && (s.cluster cl).lines.contains l

/-- A line filled or used again stands first; of the 16 lines of a set the least recently used goes (R229). The set of a
line is its number modulo 256 (a choice of the model). -/
def touchLine (lines : List Nat) (l : Nat) : List Nat :=
  let rest := lines.filter fun x => x != l
  let mine := rest.filter fun x => x % 256 == l % 256
  match mine.drop 15 with
  | [] => l :: rest
  | old :: _ => l :: rest.filter fun x => x != old

/-- A table-window read of a line that may be cached: a miss is counted and the line is filled (R229, R231, R247). -/
def State.cacheRead (s : State) (c l : Nat) : State :=
  let cl := coreCluster c
  if s.rb .cluCtrl [cl / 16, cl % 16] 1 then
    let q := s.cluster cl
    let s := if q.lines.contains l then s
      else s.countFor (s.core c).glint (cn 6 4) (coreDie c) (cl % 16) 1
    s.setCluster cl { q with lines := touchLine q.lines l }
  else s

-- words that read back (R248, R249)

/-- SCH_CLU_STAT. -/
def State.cluStatWord (s : State) (cl : Nat) : Word :=
  let q := s.cluster cl
  let idle := pack ((clusterCores cl).map fun c =>
    (c % 16, b2n ((s.core c).item.isNone && (s.core c).prefetch.isNone)))
  BitVec.ofNat 32 (pack [(0, b2n (s.parked cl)), (1, b2n q.ldBusy), (2, b2n q.invBusy), (16, idle)])

/-- SCH_CLU_LD_STAT. -/
def State.cluLdStatWord (s : State) (cl : Nat) : Word :=
  let q := s.cluster cl
  BitVec.ofNat 32 (pack [(0, b2n q.ldBusy), (1, b2n q.doneOk), (2, b2n q.failed), (4, q.failMap.toNat)])

/-- A core waits: for window data, for room in the store queue, for acknowledgements or to drain (R249). -/
def CoreSt.waits (q : CoreSt) : Bool := q.wait.isSome || q.ending || (q.fencing && q.stores != [])

/-- SCH_CLU_CORE word w of core c. -/
def State.cluCoreWord (s : State) (c w : Nat) : Word :=
  let q := s.core c
  let g := match q.glint with
    | some g => g.val
    | none => 0
  match w with
  | 0 =>
    let st := if q.dbg.halted then 3 else if q.item.isNone then 0 else if q.waits then 2 else 1
    BitVec.ofNat 32 (pack [(0, st), (3, b2n q.prefetch.isSome), (4, b2n q.glint.isSome), (5, g)])
  | 1 => BitVec.ofNat 32 (q.pc.toNat % 16384)
  | 2 => q.lastExc.setWidth 32
  | _ => q.lastAddr.setWidth 32

-- the Lamp (R242–R246, R250)

/-- Lines pending and enabled. -/
def CoreSt.lines (q : CoreSt) : Word := q.ipend &&& q.imask

/-- LAMP_INTERRUPT (R243, R244, R522): the Lamp takes its NMI, or the lowest pending line. What ecause and eaddr hold then
is left open. -/
def execLampInterrupt (s : State) : Out :=
  let q := s.core lampCore
  .next (if s.coreLive lampCore && !q.dbg.halted && q.wait.isNone then
    if q.nmiPend && !bitOf q.st 6 then
      let (a, s) := s.free 32
      let (b, s) := s.free 32
      (s.setCore lampCore { q with nmiPend := false }).lampEnter a b (setBit q.st 6 true) 0x40
    else if bitOf q.st 5 && q.lines != 0 then
      let n := ((List.range 32).find? fun i => bitOf q.lines i).getD 0
      let (a, s) := s.free 32
      let (b, s) := s.free 32
      (s.setCore lampCore { q with ipend := setBit q.ipend n false }).lampEnter a b q.st (0x80 + 0x40 * n)
    else s
  else s)

/-- LAMP_TIMER (R244): the cycles pass until cyc has passed tcmp, and line 4 is raised. -/
def execLampTimer (s : State) : Out :=
  .next (if s.coreLive lampCore then
    let s := s.sync lampCore
    let q := s.core lampCore
    s.setCore lampCore (q.pass lampCore ((q.tcmp - q.cyc).toNat + 1))
  else s)

/-- A write of RST_WDG_CTRL (R245, R250). -/
def State.wdgCtrlWrite (s : State) (v : Word) : State :=
  let s := s.store .wdgCtrl [] v
  if bitOf v 0 then { s with wdg := { s.wdg with left := s.rd .wdgT1 [] } } else s

/-- WATCHDOG_ENABLE (R245): a write of RST_WDG_CTRL. -/
def execWatchdogEnable (r : Req) (v : Word) (s : State) : Out := .next (s.guarded r fun s => s.wdgCtrlWrite v)

/-- A write of RST_WDG_T1, T2 or GRACE: 0 is refused (R250). -/
def State.wdgTimeWrite (s : State) (n : RegName) (v : Word) : State := if v = 0 then s.vio 68 else s.store n [] v

/-- A write of RST_WDG_KICK (R245, R250). -/
def State.wdgKick (s : State) (r : Req) (v : Word) : State :=
  if r.cls = .lamp ∧ fld v 0 16 = 0x4C4D then
    { s with wdg := { s.wdg with left := s.rd .wdgT1 [], stage := false } }
  else s.vio 68

/-- WATCHDOG_KICK (R245, R250). -/
def execWatchdogKick (r : Req) (v : Word) (s : State) : Out := .next (s.guarded r fun s => s.wdgKick r v)

/-- The count holds while the Lamp is halted and freeze is 1 (R246). -/
def State.wdgRuns (s : State) : Bool :=
  s.rb .wdgCtrl [] 0 && !(s.rb .wdgCtrl [] 1 && (s.core lampCore).dbg.halted)

/-- The count reaches 0 in stage 1 (R245). -/
def State.wdgReset (s : State) (inj : Bool) : State :=
  let q := s.core lampCore
  let s := s.offer .hub 7 0 1 (Config.detCode 7 1) (Config.syndrome 7 1 q.epc.toNat) (BitVec.ofNat 48 q.epc.toNat) inj
  let s := s.lampCoreReset.count (cn 6 7) hub 0 1
  { s with wdg := { s.wdg with stage := false, left := s.rd .wdgT1 [] } }

/-- The count of the present stage reaches 0 (R245). -/
def State.wdgEnds (s : State) : State :=
  if s.wdg.stage then s.wdgReset false
  else ({ s with wdg := { s.wdg with stage := true, left := s.rd .wdgT2 [] } }).raiseLine 0

/-- n µs of MCLK pass (R245). -/
def State.wdgCount (s : State) (n : Nat) : State :=
  if n = 0 ∨ s.wdgRuns = false then s
  else if s.wdg.stage = true ∧ (s.inject 7 0 (s.core lampCore).epc.toNat).1.isSome = true then
    -- the injection sets the count to 0 (R488)
    (s.inject 7 0 (s.core lampCore).epc.toNat).2.wdgReset true
  else if n < s.wdg.left.toNat then { s with wdg := { s.wdg with left := s.wdg.left - BitVec.ofNat 32 n } }
  else s.wdgEnds

/-- WATCHDOG_EXPIRY (R245, R246, R295): the µs that the present stage has left pass. -/
def execWatchdogExpiry (s : State) : Out := .next (if s.wdgRuns then s.wdgEnds else s)

end Sys2Proof.Machine
end

