-- ==== Sys2Proof/Machine/LineCode.lean ====
section
/-! DEFINITION. What stands between a lane's line and its frames (R38, R42, R59–R61): 8b/10b code groups with their running
disparity, raw payload words, and the PRBS-31 generator and checker. A group's first received bit is its most significant. -/

namespace Sys2Proof.Machine

/-- A received code group (R38): a data symbol, one of the part's control symbols, a foreign one, or a code error. -/
inductive Group where
  | data (b : Byte)
  | k28_5 | k27_7 | k29_7 | k28_3
  | foreign
  | codeError
  deriving DecidableEq, Repr

-- 8b/10b (R38; the tables of IEEE 802.3 Clause 36, log entry 148)

/-- The six-bit parts at running disparity −, by the five low bits of the octet. -/
def sixBit (x : Nat) : Nat :=
  [0b100111, 0b011101, 0b101101, 0b110001, 0b110101, 0b101001, 0b011001, 0b111000,
   0b111001, 0b100101, 0b010101, 0b110100, 0b001101, 0b101100, 0b011100, 0b010111,
   0b011011, 0b100011, 0b010011, 0b110010, 0b001011, 0b101010, 0b011010, 0b111010,
   0b110011, 0b100110, 0b010110, 0b110110, 0b001110, 0b101110, 0b011110, 0b101011].getD x 0

/-- The four-bit parts at running disparity −, by the three high bits of the octet; 8 stands for the alternate of 7. -/
def fourBit (y : Nat) : Nat :=
  [0b1011, 0b1001, 0b0101, 0b1100, 0b1101, 0b1010, 0b0110, 0b1110, 0b0111].getD y 0

/-- A part at running disparity +, of n bits: the complement where it is unbalanced, and where it is the balanced part whose
runs are longest. -/
def plusPart (n v : Nat) : Nat :=
  if 2 * popCount v n ≠ n ∨ v = 2 ^ n - 2 ^ (n / 2) then 2 ^ n - 1 - v else v

/-- A part in the column of a running disparity (true is +). -/
def linePart (n v : Nat) (rd : Bool) : Nat := if rd then plusPart n v else v

/-- The running disparity after a part of n bits: + after more ones than zeros, − after more zeros, and after the balanced
parts of the longest runs by their last bits. -/
def disparity (n v : Nat) (rd : Bool) : Bool :=
  if n < 2 * popCount v n then true
  else if 2 * popCount v n < n then false
  else if v = 2 ^ (n / 2) - 1 then true
  else if v = 2 ^ n - 2 ^ (n / 2) then false
  else rd

/-- The running disparity after a code group, valid or not. -/
def groupDisparity (c : Nat) (rd : Bool) : Bool := disparity 4 (c % 16) (disparity 6 (c / 16) rd)

/-- The alternate four-bit part of D.x.7, which keeps five equal bits from meeting. -/
def alternate (x : Nat) (rd : Bool) : Bool :=
  if rd then x == 11 || x == 13 || x == 14 else x == 17 || x == 18 || x == 20

/-- The code group of an octet at a running disparity. -/
def dataGroup (b : Byte) (rd : Bool) : Nat :=
  let x := b.toNat % 32
  let six := linePart 6 (sixBit x) rd
  let mid := disparity 6 six rd
  let y := if b.toNat / 32 = 7 ∧ alternate x mid = true then 8 else b.toNat / 32
  six * 16 + linePart 4 (fourBit y) mid

/-- The control groups at running disparity −: those of R38, and the foreign ones. -/
def controlGroups : List (Nat × Group) :=
  [(0b0011111010, .k28_5), (0b1101101000, .k27_7), (0b1011101000, .k29_7), (0b0011110011, .k28_3),
   (0b0011110100, .foreign), (0b0011111001, .foreign), (0b0011110101, .foreign), (0b0011110010, .foreign),
   (0b0011110110, .foreign), (0b0011111000, .foreign), (0b1110101000, .foreign), (0b0111101000, .foreign)]

/-- A part found in its column: its number. -/
def partIndex (n count : Nat) (part : Nat → Nat) (rd : Bool) (v : Nat) : Option Nat :=
  (List.range count).find? fun i => linePart n (part i) rd == v

/-- A code group decoded at a running disparity (R38): a group that stands in no column, or in the other one, is a code
error. -/
def decodeGroup (c : Nat) (rd : Bool) : Group :=
  match controlGroups.find? fun e => e.1 == (if rd then 1023 - c else c) with
  | some e => e.2
  | none =>
    match partIndex 6 32 sixBit rd (c / 16), partIndex 4 9 fourBit (disparity 6 (c / 16) rd) (c % 16) with
    | some x, some y =>
      let b : Byte := BitVec.ofNat 8 (x + 32 * min y 7)
      if dataGroup b rd = c then .data b else .codeError
    | _, _ => .codeError

-- raw words (R42, R70)

/-- The 20 bits that begin k bits into the first of two words. -/
def windowAt (prev w : BitVec 20) (k : Nat) : Nat := (prev.toNat * 2 ^ 20 + w.toNat) / 2 ^ (20 - k) % 2 ^ 20

/-- The comma lies at a bit offset that is not the word's (R42). -/
def misplaced (comma : Nat) (prev w : BitVec 20) : Bool := (List.range 19).any fun k => windowAt prev w (k + 1) == comma

/-- The first n payload bytes of raw words: bit 20 m + b of the string is bit b of word m (R70). -/
def rawBytes (ws : List (BitVec 20)) (n : Nat) : List Byte :=
  bytesOf (ws.foldr (fun (w : BitVec 20) (v : Nat) => w.toNat + 2 ^ 20 * v) 0) n

-- PRBS-31 (R59–R61)

/-- One step of x^31 + x^28 + 1: the bit that follows 31 others, the newest of which is bit 0, and those that it stands
among then. -/
def prbsNext (r : BitVec 31) : Bool := r.getLsbD 30 ^^ r.getLsbD 27

def prbsPush (r : BitVec 31) (b : Bool) : BitVec 31 := r.setWidth 30 ++ BitVec.ofBool b

/-- n bits of the generator, the first most significant, and its register after them. -/
def prbsBits (r : BitVec 31) : Nat → Nat × BitVec 31
  | 0 => (0, r)
  | n + 1 =>
    let b := prbsNext r
    let (v, r) := prbsBits (prbsPush r b) n
    (b2n b * 2 ^ n + v, r)

/-- The checker of a lane: the 31 bits before, the run of correct predictions, and whether it is locked. -/
structure Checker where
  reg : BitVec 31
  run : Nat
  lock : Bool
  deriving DecidableEq, Repr

/-- One bit: it locks after 64 correct predictions in a row; a wrong one is counted while it is locked. -/
def Checker.bit (k : Checker) (b : Bool) : Checker × Nat :=
  let ok := prbsNext k.reg == b
  let run := if ok then min (k.run + 1) 64 else 0
  ({ reg := prbsPush k.reg b, run := run, lock := k.lock || run == 64 }, b2n (k.lock && !ok))

/-- n bits of v, the most significant first. -/
def Checker.bits (k : Checker) (v : Nat) : Nat → Checker × Nat
  | 0 => (k, 0)
  | n + 1 =>
    let (k, e) := k.bit (v / 2 ^ n % 2 == 1)
    let (k, f) := k.bits v n
    (k, e + f)

end Sys2Proof.Machine
end

