-- ==== Sys2Proof/Machine/Lanes.lean ====
section
/-! DEFINITION. Lane bundles (02_lanes): the clock detector, the lane state machine and its table, sweeps, frames, anchors
and code groups at the receiver, equalisation overrides and the bundle control register. -/

namespace Sys2Proof.Machine

-- views

/-- A lane of the package by die, bundle and lane number. -/
structure Ln where
  d : Nat
  b : Nat
  n : Nat
  deriving DecidableEq, Repr

def LaneId.ln (l : LaneId) : Ln := { d := l.die.val, b := l.bundle.val, n := l.lane.val }
def Ln.key (l : Ln) : Nat := l.d * 112 + l.b * 7 + l.n
def Ln.ix (l : Ln) : Nat := l.b * 7 + l.n

/-- The lanes of a bundle, and of a die. -/
def bundleLanes (d b : Nat) : List Ln := (List.range 7).map fun n => { d := d, b := b, n := n }
def dieLanes (d : Nat) : List Ln := (List.range 16).flatMap (bundleLanes d)

/-- The table copy that newly entered states use (R65). -/
def State.activeEpoch (s : State) (d : Nat) : Bool := bitOf s.lsmActive d

/-- A word of the table of an epoch (R66). -/
def State.lsmWord (s : State) (d : Nat) (e : Bool) (st w : Nat) : Word := s.rd .lsmTbl [d, b2n e, st, w]

/-- The entry action of a state (R51). -/
def State.lsmAction (s : State) (d : Nat) (e : Bool) (st : Nat) : Nat := fld (s.lsmWord d e st 0) 0 9

/-- The lane's domain is on. -/
def State.laneOn (s : State) (l : Ln) : Bool := s.on (domLG l.d l.b)

/-- The lane is LIT (R35). -/
def State.isLit (s : State) (l : Ln) : Bool :=
  let x := s.lane l.key
  s.laneOn l && s.lsmAction l.d x.epoch x.st.toNat % 2 == 1

/-- LANE_BCTRL of a lane's bundle. -/
def State.bctrl (s : State) (l : Ln) : Word := s.rd .laneBctrl [l.d, l.b]

def State.rxEn (s : State) (l : Ln) : Bool := bitOf (s.bctrl l) l.n
def State.loopMode (s : State) (l : Ln) : Nat := fld (s.bctrl l) 8 2
def State.slowRate (s : State) (l : Ln) : Bool := bitOf (s.bctrl l) 10
def State.rawMode (s : State) (l : Ln) : Bool := bitOf (s.bctrl l) 11

/-- A rule of R52, or the boundary register's hold of the contacts (R528), keeps the lane in state 0. -/
def State.laneHeld (s : State) (l : Ln) : Bool :=
  !s.laneOn l || !s.rxEn l || (s.dusk && !s.slowRate l) || s.dbg.extest

/-- Some lane of the die still uses the other copy (R57, R65). -/
def State.oldInUse (s : State) (d : Nat) : Bool := (dieLanes d).any fun l => (s.lane l.key).epoch != s.activeEpoch d

/-- A frame is open at the receiver (R39). -/
def LaneSt.frameOpen (x : LaneSt) : Bool :=
  match x.rx with
  | .frame _ => true
  | _ => false

-- the watermark (R98)

/-- The watermark of this spine cycle (R98). -/
def State.watermark (s : State) (d : Nat) : BitVec 58 :=
  let w := s.wsu d
  let idle := s.rf .wsuIdle [d] 0 16
  let cand := (dieLanes d).foldl (fun c l =>
    match Tbl.get none w.laneTick l.ix with
    | some t =>
      if s.isLit l && s.rb .cfeLaneCfg [d, l.ix] 13 && (idle == 0 || decide ((s.tb.tick - t).toNat ≤ idle)) &&
          decide (t < c) then t else c
    | none => c) s.tb.tick
  if w.wm < cand then cand else w.wm

/-- Spine cycles pass: the watermark follows (R98). -/
def State.moveWm (s : State) (d : Nat) : State :=
  if s.on (domCFE d) then s.setWsu d { s.wsu d with wm := s.watermark d } else s

-- entries (R51, R52)

/-- The GAP action (R51, R73): the frame in progress is dropped and the CFE sees a gap. -/
def State.laneGap (s : State) (l : Ln) : State :=
  let x := s.lane l.key
  let s := if x.frameOpen then (s.setLane l.key { x with rx := .idle }).count (cn 0 3) l.d l.ix 1 else s
  s.cfeGap l.d l.ix

/-- A sweep that is cut short leaves the sampler at a phase that the manual does not state (R49; log entry 8). -/
def State.sweepCut (s : State) (l : Ln) : State :=
  if (s.lane l.key).sweeping then
    let (p, s) := s.free 5
    s.setLane l.key { s.lane l.key with phase := p }
  else s

/-- The lane enters a state: the whole entry action, from the active copy (R51, R57, R64, R71, R595). -/
def State.enterLsm (s : State) (l : Ln) (st : Nat) : State :=
  let wasLit := s.isLit l
  let e := s.activeEpoch l.d
  let act := s.lsmAction l.d e st
  let bit (i : Nat) : Bool := act / 2 ^ i % 2 == 1
  let s := if bit 1 then (s.laneGap l).count (cn 0 7) l.d l.ix 1 else s
  let s := s.sweepCut l
  let x := s.lane l.key
  let x := { x with
    st := BitVec.ofNat 4 st, epoch := e, commaRun := 0, cleanRun := 0, errAny := false, groups := 0, errPos := [],
    errMost := 0 }
  let x := if bit 2 then
    { x with phaseValid := false, phase := 0, sweeping := true, sweepOk := false, sweepFail := false }
    else { x with sweeping := false, sweepOk := false, sweepFail := false }
  let x := if bit 3 then { x with offset := 0, offsetValid := false } else x
  let x := if bit 4 then { x with anchorLatch := false } else x
  let x := if bit 5 && x.tries != 15 then { x with tries := x.tries + 1 } else x
  let x := if bit 6 then { x with tries := 0 } else x
  let x := if bit 8 && x.looping then x else { x with looping := bit 8, loopLock := false, checkReg := 0, checkRun := 0 }
  let x := if st = 0 then { x with anchorValid := false } else x
  let s := (s.setLane l.key x).moveWm l.d
  let s := if bit 0 && !wasLit then
    s.setCfeLane (cfeKey l.d l.ix) { s.cfeLane (cfeKey l.d l.ix) with prevSeq := none }
    else if !bit 0 && wasLit then
      s.setCfeLane (cfeKey l.d l.ix) { s.cfeLane (cfeKey l.d l.ix) with flowing := false }
    else s
  if bit 7 then
    s.offer (.die l.d) 0 l.key 1 (Config.detCode 0 0) (Config.syndrome 0 1 st) 0 false
  else s

/-- A lane is forced to state 0 (R52): a GAP first if it was LIT. One that is in state 0 already uses the active copy from
now on (R57). -/
def State.forceDark (s : State) (l : Ln) : State :=
  if (s.lane l.key).st = 0 then s.setLane l.key { s.lane l.key with epoch := s.activeEpoch l.d }
  else
    let s := if s.isLit l then s.laneGap l else s
    s.enterLsm l 0

/-- Entering DUSK (R37): lanes of bundles at 25.6 Gb/s go to state 0, and a gap is signalled. -/
def State.duskLanes (s : State) : State :=
  (List.range 4).foldl (fun s d => (dieLanes d).foldl (fun s l =>
    if s.slowRate l then s
    else if (s.lane l.key).st = 0 then s.forceDark l
    else (s.laneGap l).enterLsm l 0) s) s

/-- A lane group's domain goes off (R52): each LIT lane signals a gap, and every lane is in state 0 with nothing held;
the clock detectors hold nothing (R63). -/
def State.lanesOff (s : State) (d : Nat) (grp : Bool) : State :=
  ((dieLanes d).filter fun l => decide (8 ≤ l.b) == grp).foldl (fun s l =>
    let s := if s.isLit l then s.laneGap l else s
    (s.setLane l.key { epoch := s.activeEpoch d }).setBundle (d * 16 + l.b) {}) s

-- conditions and rules (R50, R66, R595)

/-- The most errors in any 256 consecutive groups since entry reach err_limit (R50, R62, R595). -/
def State.errBurst (s : State) (l : Ln) (ev : LaneEvidence) : Bool :=
  let lim := fld (s.bctrl l) 16 4
  let lim := if lim = 0 then 16 else lim
  decide (lim ≤ max ev.errs256 (s.lane l.key).errMost)

/-- Three commas have arrived at one offset since entry, at the held one if one is held (R50). -/
def State.commaLock (s : State) (l : Ln) (ev : LaneEvidence) : Bool :=
  let x := s.lane l.key
  match ev.commaLock with
  | some o => !x.offsetValid || x.offset.toNat == o.val
  | none => x.offsetValid && decide (3 ≤ x.commaRun)

/-- A condition of R50 for a lane. -/
def State.lsmCond (s : State) (l : Ln) (ev : LaneEvidence) (code : Nat) : Bool :=
  let x := s.lane l.key
  let b := s.bundle (l.d * 16 + l.b)
  match code with
  | 0x01 => true
  | 0x02 => s.rxEn l && s.loopMode l == 0
  | 0x03 => s.rxEn l && s.loopMode l == 1
  | 0x04 => s.rxEn l && s.loopMode l == 2
  | 0x05 => s.rxEn l && s.loopMode l == 3
  | 0x06 => b.last == some true
  | 0x07 => b.last == some true && b.before == some true
  | 0x08 => b.last == some false
  | 0x09 => x.sweepOk
  | 0x0A => x.sweepFail
  | 0x0B => s.commaLock l ev
  | 0x0C => x.offsetValid && ev.commaMoved
  | 0x0D => ev.clean || decide (64 ≤ x.cleanRun)
  | 0x0E => ev.errAny || x.errAny
  | 0x0F => s.errBurst l ev
  | 0x10 => x.anchorLatch
  | 0x11 => fld (s.bctrl l) 20 4 != 0 && decide (fld (s.bctrl l) 20 4 ≤ x.tries.toNat)
  | _ => false

/-- Rule r (0–3) of a lane's current state: 16 bits (R66). -/
def State.lsmRule (s : State) (l : Ln) (r : Nat) : Nat :=
  let x := s.lane l.key
  fld (s.lsmWord l.d x.epoch x.st.toNat (1 + r / 2)) (16 * (r % 2)) 16

/-- The first valid rule whose condition is true: its condition and target (R50). -/
def State.lsmExit (s : State) (l : Ln) (ev : LaneEvidence) : Option (Nat × Nat) :=
  (((List.range 4).map (s.lsmRule l)).find? fun r => decide (r / 2 ^ 15 % 2 = 1) && s.lsmCond l ev (r % 32)).map
    fun r => (r % 32, r / 256 % 16)

/-- The lane leaves by a rule; COMMA_LOCK holds its offset (R50), at which the receiver begins between frames. -/
def State.lsmLeave (s : State) (l : Ln) (ev : LaneEvidence) (cond target : Nat) : State :=
  let x := s.lane l.key
  let s := match cond, ev.commaLock with
    | 0x0B, some o => s.setLane l.key { x with
        offset := BitVec.ofNat 5 o.val, offsetValid := true, rx := if s.rawMode l then .discard else .idle }
    | _, _ => s
  s.enterLsm l target

/-- The state's timeout field and target (R66). -/
def State.lsmTimeoutOf (s : State) (l : Ln) : Nat × Nat :=
  let x := s.lane l.key
  let w := s.lsmWord l.d x.epoch x.st.toNat 0
  (fld w 16 12, fld w 28 4)

/-- LSM_TRANSITION (R50–R52): the first exit rule that is true is taken. -/
def execLsmTransition (l : LaneId) (ev : LaneEvidence) (s : State) : Out :=
  let l := LaneId.ln l
  .next (if s.laneHeld l then s.forceDark l
    else match s.lsmExit l ev with
      | some (c, t) => s.lsmLeave l ev c t
      | none => s)

/-- LSM_TIMEOUT (R50, R66): the state's timeout has expired; a rule that is true goes first. -/
def execLsmTimeout (l : LaneId) (ev : LaneEvidence) (s : State) : Out :=
  let l := LaneId.ln l
  .next (if s.laneHeld l then s.forceDark l
    else match s.lsmExit l ev with
      | some (c, t) => s.lsmLeave l ev c t
      | none => if (s.lsmTimeoutOf l).1 = 0 then s else s.enterLsm l (s.lsmTimeoutOf l).2)

-- clock windows and sweeps (R48, R49)

/-- A window's count passes at the bundle's rate (R48). -/
def windowPasses (slow : Bool) (count : Nat) : Bool :=
  if slow then decide (60 ≤ count ∧ count ≤ 68) else decide (120 ≤ count ∧ count ≤ 136)

/-- CLOCK_WINDOW (R48, R63). -/
def execClockWindow (die : Die) (bundle : Bundle) (count : Nat) (s : State) : Out :=
  let k := die.val * 16 + bundle.val
  .next (if s.on (domLG die.val bundle.val) then
    let b := s.bundle k
    let pass := windowPasses (s.rb .laneBctrl [die.val, bundle.val] 10) count
    let s := s.setBundle k { b with count := BitVec.ofNat 8 (satNat count 255), last := some pass, before := b.last }
    if pass then s else s.count (cn 0 10) die.val bundle.val 1
  else s)

/-- Length of the run of clean phases from a start, cyclically, at most n. -/
def runFrom (m : SweepMap) (start : Nat) : Nat → Nat
  | 0 => 0
  | n + 1 => if bitOf m (start % 32) then 1 + runFrom m (start + 1) n else 0

/-- The longest run of clean phases: (start, length); the lowest start wins (R49). -/
def bestRun (m : SweepMap) : Nat × Nat :=
  if m = BitVec.allOnes 32 then (0, 32)
  else (List.range 32).foldl (fun best p =>
    if bitOf m p && !bitOf m ((p + 31) % 32) && decide (best.2 < runFrom m p 32) then (p, runFrom m p 32) else best) (0, 0)

/-- SWEEP_DONE (R49): the phase in the middle of the longest run of at least 6, or a failure. -/
def execSweepDone (l : LaneId) (clean : SweepMap) (s : State) : Out :=
  let l := LaneId.ln l
  let x := s.lane l.key
  .next (if s.laneOn l = true ∧ x.sweeping = true then
    let (p, n) := bestRun clean
    if 6 ≤ n then
      s.setLane l.key { x with
        sweeping := false, sweepOk := true, phase := BitVec.ofNat 5 ((p + (n - 1) / 2) % 32), phaseValid := true }
    else
      (s.setLane l.key { x with sweeping := false, sweepFail := true, phase := 0, phaseValid := false }).count
        (cn 0 8) l.d l.ix 1
  else s)

-- LANE_BCTRL (R43, R52, R62)

/-- A 20-bit pattern rotated left. -/
def rot20 (p k : Nat) : Nat := (p * 2 ^ k + p / 2 ^ (20 - k)) % 2 ^ 20

/-- Transitions between adjacent bits of a 20-bit pattern, cyclically. -/
def transitions20 (p : Nat) : Nat := popCount (p ^^^ rot20 p 1) 20

/-- The raw patterns pass the checks of R43. -/
def rawPatternsOk (comma anchor : Nat) : Bool :=
  decide (4 ≤ transitions20 comma ∧ 4 ≤ transitions20 anchor) &&
    ((List.range 19).all fun k => rot20 comma (k + 1) != comma && rot20 anchor (k + 1) != anchor) &&
    (List.range 20).all fun k => decide (3 < popCount (anchor ^^^ rot20 comma k) 20)

/-- A write of LANE_BCTRL. -/
def State.bctrlWrite (s : State) (d b : Nat) (v : Word) : State :=
  let old := s.rd .laneBctrl [d, b]
  let v := v &&& BitVec.ofNat 32 (RegName.row .laneBctrl).rw
  let busy := (bundleLanes d b).any fun l => (s.lane l.key).st != 0
  let changes := fld v 8 4 != fld old 8 4 && (fld v 8 2 != fld old 8 2 || bitOf v 10 != bitOf old 10 || bitOf v 11 != bitOf old 11)
  let sets := bitOf v 11 && (!bitOf old 11 || (v &&& ~~~old &&& 0x7F) != 0)
  if changes && busy then s.vio d
  else if sets && !rawPatternsOk (s.rf .laneRawComma [d, b] 0 20) (s.rf .laneRawAnchor [d, b] 0 20) then s.vio (4 + d)
  else
    let s := s.wr .laneBctrl [d, b] v
    (bundleLanes d b).foldl (fun s l => if s.laneHeld l then s.forceDark l else s) s

/-- LANE_BCTRL_WRITE (R43, R52, R62). -/
def execLaneBctrlWrite (r : Req) (die : Die) (bundle : Bundle) (v : Word) (s : State) : Out :=
  .next (if s.live (domLG die.val bundle.val) then s.guarded r (fun s => s.bctrlWrite die.val bundle.val v) else s)

-- the table (R57, R58, R65)

/-- The Shade breaks a rule of R58. -/
def State.shadeBad (s : State) (d : Nat) : Bool :=
  let e := !s.activeEpoch d
  (List.range 16).any fun st =>
    let w0 := s.lsmWord d e st 0
    let act := fld w0 0 9
    fld w0 9 7 != 0 ||
      (st == 0 && (act % 2 == 1 || act / 256 == 1)) || (act % 2 == 1 && act / 256 == 1) ||
      (List.range 4).any fun r =>
        let x := fld (s.lsmWord d e st (1 + r / 2)) (16 * (r % 2)) 16
        decide (x / 2 ^ 15 % 2 = 1 ∧ 0x11 < x % 32)

/-- A flip is asked for (R57, R58). -/
def State.lsmFlip (s : State) (d : Nat) : State :=
  if s.oldInUse d || s.shadeBad d then s.vio (8 + d)
  else
    let a := !s.activeEpoch d
    let s := { s with lsmActive := setBit s.lsmActive d a }
    (dieLanes d).foldl (fun s l =>
      if s.laneHeld l then s.setLane l.key { s.lane l.key with epoch := a } else s) s

/-- FLIP (R57, R58). -/
def execFlip (r : Req) (die : Die) (s : State) : Out :=
  .next (if s.live (domBRG die.val) then s.guarded r (fun s => s.lsmFlip die.val) else s)

/-- A write of a table word (R57, R66): the active copy is read-only; the old copy is refused while a lane uses it. -/
def State.lsmTblWrite (s : State) (d e st w : Nat) (v : Word) : State :=
  if e = b2n (s.activeEpoch d) then s
  else if s.oldInUse d then s.vio (8 + d)
  else s.wr .lsmTbl [d, e, st, w] v

/-- A table word as read: reserved bits read 0 (R66). -/
def State.lsmTblRead (s : State) (d e st w : Nat) : Word :=
  s.rd .lsmTbl [d, e, st, w] &&& (if w = 0 then 0xFFFF01FF else 0x8F1F8F1F)

-- equalisation (R45–R47)

/-- A write of LANE_EQ_OVR (R47). -/
def State.eqOvrWrite (s : State) (l : Ln) (v : Word) : State :=
  let x := s.lane l.key
  if s.dbg.level = 2 ∧ x.st = 0 then s.setLane l.key { x with eqOvr := BitVec.ofNat 16 (v.toNat % 65536) &&& 0x8FFF }
  else s.vio (12 + l.d)

/-- LANE_EQ_OVR_WRITE (R47). -/
def execLaneEqOvrWrite (r : Req) (l : LaneId) (v : Word) (s : State) : Out :=
  let l := LaneId.ln l
  .next (if s.live (domLG l.d l.b) then s.guarded r (fun s => s.eqOvrWrite l v) else s)

/-- LANE_EQ (02_lanes, Registers; R46, R47). -/
def State.laneEqWord (s : State) (l : Ln) : Word :=
  let x := s.lane l.key
  let e := Tbl.get 0 s.board.entries (l.d * 128 + l.b * 8 + l.n)
  let set := if bitOf x.eqOvr 15 then fld x.eqOvr 0 12
    else if s.board.valid then (if s.slowRate l then fld e 16 12 else fld e 0 12)
    else 0x80A
  BitVec.ofNat 32 (set + 4096 * b2n (bitOf x.eqOvr 15))

-- the receiver (R38–R42, R595)

/-- The receiver stands in r. -/
def State.setRx (s : State) (l : Ln) (r : Rx) : State := s.setLane l.key { s.lane l.key with rx := r }

/-- A clean group at the held offset. -/
def LaneSt.cleanGroup (x : LaneSt) (comma : Bool) : LaneSt :=
  let g := x.groups + 1
  { x with
    groups := g, cleanRun := min (x.cleanRun + 1) 64, commaRun := if comma then min (x.commaRun + 1) 3 else x.commaRun,
    errPos := x.errPos.filter fun p => decide (g < p + 256) }

/-- A group in error at the held offset (R595). -/
def LaneSt.errGroup (x : LaneSt) : LaneSt :=
  let g := x.groups + 1
  let e := g :: x.errPos.filter fun p => decide (g < p + 256)
  { x with groups := g, cleanRun := 0, commaRun := 0, errAny := true, errPos := e, errMost := max x.errMost e.length }

/-- A group at the held offset: in error and counted, or clean, perhaps a comma (R61, R595). -/
def State.noteGroup (s : State) (l : Ln) (err comma : Bool) : State :=
  let x := s.lane l.key
  if err then (s.setLane l.key x.errGroup).count (cn 0 0) l.d l.ix 1 else s.setLane l.key (x.cleanGroup comma)

/-- The frame in progress is dropped and counted (R39); of a LIT lane the Prism sees a gap (R73). -/
def State.dropFrame (s : State) (l : Ln) (next : Rx) : State :=
  let s := (s.setRx l next).count (cn 0 3) l.d l.ix 1
  if s.isLit l && s.on (domCFE l.d) then s.frameLost l.d l.ix else s

/-- The Prism receives frames of the lane (R67, R73): it is enabled, and an anchor is held for it. -/
def State.prismTakes (s : State) (d l : Nat) : Bool :=
  s.rb .cfeLaneCfg [d, l] 13 && (s.cfeLane (cfeKey d l)).anchor.isSome

/-- A whole frame: only a LIT lane passes it to the Prism (R35, R39, R61). -/
def State.frameDone (s : State) (l : Ln) (payload : List Byte) : State :=
  let s := s.setRx l .idle
  if s.isLit l && s.on (domCFE l.d) then
    ((if s.prismTakes l.d l.ix then s.count (cn 0 2) l.d l.ix 1 else s).prism l.d l.ix payload).moveWm l.d
  else s

/-- The anchor index that a sequence carries, low byte first, or low half first (R41, R42). -/
def anchorIndex (raw : Bool) (d : List (BitVec 20)) : Word :=
  BitVec.ofNat 32 (d.foldr (fun (w : BitVec 20) (v : Nat) =>
    if raw then w.toNat % 65536 + 65536 * v else w.toNat % 256 + 256 * v) 0)

/-- A whole anchor sequence (R19, R41): ignored before the first SYNC load, or accepted. The CFE takes every accepted anchor
(R73, log entry 149). -/
def State.anchorDone (s : State) (l : Ln) (ts : Stamp) (d : List (BitVec 20)) : State :=
  let s := s.setRx l .idle
  if s.tb.loaded = false then s.count (cn 0 6) l.d l.ix 1
  else
    let a := anchorIndex (s.rawMode l) d
    let ofs := (BitVec.ofNat 16 (s.rf .laneAnchorOfs [l.d, l.b, l.n] 0 16)).signExtend 64
    let ts := ts - ofs
    let s := s.setLane l.key { s.lane l.key with anchorTs := ts, anchorIdx := a, anchorLatch := true, anchorValid := true }
    let s := s.count (cn 0 4) l.d l.ix 1
    if s.on (domCFE l.d) = false then s
    else if s.isLit l then s.cfeAnchor l.d l.ix a ts
    else s.cfeAnchorSet l.d l.ix a ts

/-- A group between frames (R38, R39). -/
def State.rxBetween (s : State) (l : Ln) (ts : Stamp) (g : Group) : State :=
  match g with
  | .k27_7 => s.setRx l (.frame [])
  | .k28_3 => s.setRx l (.anchor ts [])
  | .k29_7 | .foreign => s.count (cn 0 1) l.d l.ix 1
  | _ => s

/-- A code group received at the held offset (R38, R39, R41). -/
def State.rxGroup (s : State) (l : Ln) (ts : Stamp) (g : Group) : State :=
  let s := s.noteGroup l (g == .codeError) (g == .k28_5)
  match (s.lane l.key).rx, g with
  | .frame ws, .data b => s.setRx l (.frame (b.setWidth 20 :: ws))
  | .frame ws, .k29_7 => s.frameDone l ((ws.map fun w => w.setWidth 8).reverse)
  | .frame _, .codeError => s.dropFrame l .dropped
  | .frame _, .foreign => (s.dropFrame l .dropped).count (cn 0 1) l.d l.ix 1
  | .frame _, g => (s.dropFrame l .idle).rxBetween l ts g
  | .dropped, .data _ | .dropped, .codeError => s
  | .dropped, .foreign => s.count (cn 0 1) l.d l.ix 1
  | .dropped, .k29_7 => s.setRx l .idle
  | .dropped, g => (s.setRx l .idle).rxBetween l ts g
  | .anchor t d, .data b =>
    if d.length < 3 then s.setRx l (.anchor t (d ++ [b.setWidth 20])) else s.anchorDone l t (d ++ [b.setWidth 20])
  | .anchor _ _, g => ((s.setRx l .idle).count (cn 0 5) l.d l.ix 1).rxBetween l ts g
  | _, g => s.rxBetween l ts g

/-- A raw word received at the held offset (R42, R70): a comma begins a frame of as many words as the lane's descriptor
gives; between frames any word but a comma or an anchor pattern is a framing error, and words are discarded until the next
comma. -/
def State.rxRaw (s : State) (l : Ln) (ts : Stamp) (w : BitVec 20) : State :=
  let comma := s.rf .laneRawComma [l.d, l.b] 0 20
  let isComma := w.toNat == comma
  let isAnchor := w.toNat == s.rf .laneRawAnchor [l.d, l.b] 0 20
  let x := s.lane l.key
  let framing := x.rx == .idle && !isComma && !isAnchor
  let s := s.noteGroup l (framing || misplaced comma x.prevWord w) isComma
  let s := s.setLane l.key { s.lane l.key with prevWord := w }
  let f := s.laneFmt l.d l.ix
  match x.rx with
  | .frame ws =>
    if ws.length + 1 < f.rawWords then s.setRx l (.frame (w :: ws))
    else s.frameDone l (rawBytes (w :: ws).reverse f.len)
  | .anchor t d => if d = [] then s.setRx l (.anchor t [w]) else s.anchorDone l t (d ++ [w])
  | .discard | .dropped => if isComma then s.setRx l (.frame []) else s
  | .idle =>
    if isComma then s.setRx l (.frame [])
    else if isAnchor then s.setRx l (.anchor ts [])
    else s.setRx l .discard

/-- The lane retransmits what it samples (R59). -/
def State.echoing (s : State) (l : Ln) : Bool :=
  (s.lane l.key).looping && (s.lane l.key).phaseValid && s.loopMode l == 1

/-- What a checker has seen of n bits (R60, R61). -/
def State.check (s : State) (l : Ln) (v n : Nat) : State :=
  let x := s.lane l.key
  let (k, e) := ({ reg := x.checkReg, run := x.checkRun, lock := x.loopLock } : Checker).bits v n
  let s := s.setLane l.key { x with checkReg := k.reg, checkRun := k.run, loopLock := k.lock }
  if e = 0 then s else s.count (cn 0 9) l.d l.ix e

/-- One code group or raw word that the lane has sampled: for the echo, for the checker, or for the decoder, whose input an
injection changes (R38, R42, R59, R60, R499). -/
def State.receiveOne (s : State) (l : Ln) (ts : Stamp) (w : BitVec 20) : State :=
  let raw := s.rawMode l
  let n := if raw then 20 else 10
  let w := if raw then w else w &&& 0x3FF
  let x := s.lane l.key
  if s.echoing l then s.emit (.laneEcho (Fin.ofNat 4 l.d) (Fin.ofNat 16 l.b) (Fin.ofNat 7 l.n) w)
  else if x.looping && s.loopMode l == 3 then s.check l w.toNat n
  else if x.looping && s.loopMode l == 2 then s
  else if x.offsetValid = false then s
  else
    let (inj, s) := s.inject 0 l.key 0
    let w := w ^^^ BitVec.ofNat 20 (inj.getD 0 % 2 ^ n)
    if raw then s.rxRaw l ts w
    else
      let x := s.lane l.key
      (s.setLane l.key { x with rd := groupDisparity w.toNat x.rd }).rxGroup l ts (decodeGroup w.toNat x.rd)

/-- Words in the order of the line. -/
def State.receive (s : State) (l : Ln) (ts : Stamp) (ws : List (BitVec 20)) : State :=
  ws.foldl (fun (s : State) w => s.receiveOne l ts w) s

/-- FRAME_RECEIVE (R39, R42, R70): the words of a frame from its start to what ends it; an anchor's time among them is not
told. -/
def execFrameReceive (l : LaneId) (start : BitVec 20) (rest : List (BitVec 20)) (s : State) : Out :=
  let l := LaneId.ln l
  .next (if s.laneOn l then
    let (ts, s) := s.free 64
    s.receive l ts (start :: rest)
  else s)

/-- ANCHOR_SEQUENCE (R41, R42): the anchor symbol, whose first bit arrives at ts, and the index after it. -/
def execAnchorSequence (l : LaneId) (words : List (BitVec 20)) (ts : Stamp) (s : State) : Out :=
  let l := LaneId.ln l
  .next (if s.laneOn l then s.receive l ts words else s)

/-- CODE_GROUP_RECEIVE (R38, R39, R42, R59, R595): one code group or raw word. -/
def execCodeGroupReceive (l : LaneId) (w : BitVec 20) (s : State) : Out :=
  let l := LaneId.ln l
  .next (if s.laneOn l then
    let (ts, s) := s.free 64
    s.receiveOne l ts w
  else s)

-- the transmitter (R35, R40, R59, R60, R62)

/-- What a data lane's TX carries. -/
inductive TxSource where
  | off | idles | prbs | echo | frames
  deriving DecidableEq, Repr

/-- A data lane's TX (R35, R59, R60, R62). -/
def State.txSource (s : State) (l : Ln) : TxSource :=
  if !s.laneOn l || !bitOf (s.bctrl l) 12 then .off
  else if bitOf (s.bctrl l) 13 then .prbs
  else if (s.lane l.key).looping && decide (2 ≤ s.loopMode l) then .idles
  else if s.echoing l then .echo
  else if s.loopMode l == 1 && s.rxEn l then .idles
  else .frames

/-- n symbols of a frame go out; a K28.5 before them where 1,024 symbols would have none (R40). -/
def State.sendSymbols (s : State) (l : Ln) (n : Nat) (o : Output) : State :=
  let x := s.lane l.key
  if 1023 < x.sinceComma + n then
    ((s.setLane l.key { x with sinceComma := n }).emit
      (.laneComma (Fin.ofNat 4 l.d) (Fin.ofNat 16 l.b) (Fin.ofNat 7 l.n))).emit o
  else (s.setLane l.key { x with sinceComma := x.sinceComma + n }).emit o

/-- The transmit FIFO's frames go out while the lane carries frames, or are discarded (R323). -/
def State.ltxDrain (s : State) (l : Ln) : State :=
  let x := s.lane l.key
  let s' := s.setLane l.key { x with ltx := [] }
  match s.txSource l with
  | .frames => x.ltx.foldl (fun (s : State) f =>
      s.sendSymbols l (f.length + 2) (.laneFrame (Fin.ofNat 4 l.d) (Fin.ofNat 16 l.b) (Fin.ofNat 7 l.n) f)) s'
  | .off | .prbs => s'
  | _ => s

/-- The lanes between commands: frames that wait leave, and K28.5 idles follow them (R35, R40). -/
def State.txIdle (s : State) : State :=
  ((s.lanes.filter fun e => e.2.ltx != [] || e.2.sinceComma != 0).map fun e => e.1).foldl (fun (s : State) k =>
    let l : Ln := { d := k / 112, b := k % 112 / 7, n := k % 7 }
    let s := s.ltxDrain l
    s.setLane k { s.lane k with sinceComma := 0 }) s

/-- A bundle's generator runs for a word (R59, R60): on TX, and in the lanes whose checker it feeds. -/
def State.prbsBundle (s : State) (d b : Nat) : State :=
  let v := s.rd .laneBctrl [d, b]
  let near := (bundleLanes d b).filter fun l => (s.lane l.key).looping && decide (2 ≤ s.loopMode l)
  if s.on (domLG d b) = false ∨ (bitOf v 13 = false ∧ near = []) then s
  else
    let n := if bitOf v 11 then 20 else 10
    let (w, g) := prbsBits (s.bundle (d * 16 + b)).gen n
    let s := s.setBundle (d * 16 + b) { s.bundle (d * 16 + b) with gen := g }
    let s := if bitOf v 12 && bitOf v 13 then s.emit (.prbs (Fin.ofNat 4 d) (Fin.ofNat 16 b) (BitVec.ofNat 20 w)) else s
    (near.filter fun l => s.loopMode l == 2).foldl (fun (s : State) l => s.check l w n) s

-- status words (R63, R64)

/-- TX L7 forwards RX L7 (R59, R63). -/
def State.echoActive (s : State) (d b : Nat) : Bool := (bundleLanes d b).any fun l => s.echoing l

/-- LANE_BSTAT. -/
def State.laneBstatWord (s : State) (d b : Nat) : Word :=
  let x := s.bundle (d * 16 + b)
  BitVec.ofNat 32 (pack [(0, x.count.toNat), (8, b2n (x.last == some true)),
    (9, b2n (x.last == some true && x.before == some true)), (10, b2n (x.last == some false)), (11, b2n (s.echoActive d b))])

/-- LANE_STATE. -/
def State.laneStateWord (s : State) (l : Ln) : Word :=
  let x := s.lane l.key
  -- near-end serial samples at phase 16 (R59)
  let phase := if x.looping && s.loopMode l == 3 then 16 else x.phase.toNat
  BitVec.ofNat 32 (pack [(0, x.st.toNat), (4, b2n (s.isLit l)), (5, b2n x.epoch), (6, x.tries.toNat), (10, phase),
    (15, b2n x.phaseValid), (16, x.offset.toNat), (21, b2n x.offsetValid), (22, b2n x.anchorValid), (23, b2n x.loopLock)])

/-- A read of LANE_STATE (R49): while a sweep runs, phase shows the phase being dwelt on, which commands do not tell (log
entry 8). -/
def State.laneStateRead (s : State) (l : Ln) : Word × State :=
  if (s.lane l.key).sweeping then
    let (p, s) := s.free 5
    (s.laneStateWord l &&& ~~~0x7C00 ||| BitVec.ofNat 32 (p.toNat * 1024), s)
  else (s.laneStateWord l, s)

/-- LANE_LSM_CTRL. -/
def State.lsmCtrlWord (s : State) (d : Nat) : Word :=
  BitVec.ofNat 32 (pack [(1, b2n (s.activeEpoch d)), (2, b2n (s.oldInUse d))])

-- CFE rows that stand in the lane's registers

/-- CFE_FMT_WRITE (R69). -/
def execCfeFmtWrite (r : Req) (die : Die) (fmt : Fin 64) (word : Fin 2) (v : Word) (s : State) : Out :=
  .next (if s.live (domCFE die.val) then s.guarded r (fun s => s.cfeFmtWrite die.val fmt.val word.val v) else s)

/-- CFE_LANE_CFG_WRITE (R76, R94). -/
def execCfeLaneCfgWrite (r : Req) (l : LaneId) (v : Word) (s : State) : Out :=
  let l := LaneId.ln l
  .next (if s.live (domCFE l.d) then s.guarded r (fun s => s.cfeLaneCfgWrite l.d l.ix v) else s)

/-- CHANNEL_ENABLE (R78, R80, R82): CFE_CH_CFG.en is written. -/
def execChannelEnable (r : Req) (die : Die) (ch : Chan) (en : Bool) (s : State) : Out :=
  .next (if s.live (domCFE die.val) then s.guarded r (fun s => s.chanEnable die.val ch.val en) else s)

/-- RESET_LOOPS (R78): CFE_CH_CFG.reset_loops is written 1. -/
def execResetLoops (r : Req) (die : Die) (ch : Chan) (s : State) : Out :=
  .next (if s.live (domCFE die.val) then s.guarded r (fun s => s.resetLoops die.val ch.val) else s)

end Sys2Proof.Machine
end

