-- ==== Sys2Proof/Machine/Slots.lean ====
section
/-! DEFINITION. Guaranteed traffic on the on-chip network (13_network, R363–R377): routes, the slot tables that the part
computes from the flows of R369, and the checks of a flip. -/

namespace Sys2Proof.Machine

-- links and routes (R363–R366)

/-- The spine clock in MHz of a profile (R415). -/
def spineMHz (profile : Nat) : Nat :=
  match profile with
  | 0 => 3200
  | 1 => 2800
  | _ => 2000

/-- Spine cycles that a bridge crossing takes: 40 ns (R367). -/
def bridgeCycles (mhz : Nat) : Nat := 40 * mhz / 1000

/-- DAT flits in a spine cycle at a spine port (R365). -/
def portFlits (p : Nat) : Nat := if p < 4 then 4 else if p < 8 then 8 else if p < 10 then 2 else 1

/-- A port's capacity in MB/s at a spine clock (R365). -/
def portMBs (p mhz : Nat) : Nat :=
  let w := portFlits p * 64 * mhz
  if p < 4 then min 588800 w else if p < 8 then min 1638400 w else if p < 10 then min 256000 w else w

/-- Slots that a rate takes on a port: ⌈rate ÷ (capacity ÷ 256)⌉ (R368, R369). -/
def slotsFor (rate p mhz : Nat) : Nat := ceilDiv (rate * 256) (portMBs p mhz)

/-- Links: a die's bridge UP and DOWN, the spine ports toward and from the switch, and the mesh links of a router by
direction (0 to higher x, 1 to lower x, 2 to higher y, 3 to lower y); each on network 0 REQ, 1 RSP or 2 DAT. -/
abbrev linkUp (d net : Nat) : Nat := d * 4 + net
abbrev linkDown (d net : Nat) : Nat := (4 + d) * 4 + net
abbrev linkIn (p net : Nat) : Nat := (8 + p) * 4 + net
abbrev linkOut (p net : Nat) : Nat := (72 + p) * 4 + net
abbrev linkMesh (d x y dir net : Nat) : Nat := (200 + (d * 36 + 6 * y + x) * 4 + dir) * 4 + net
/-- The way from a mesh router to the endpoint at one of its ports. -/
abbrev linkPort (d p net : Nat) : Nat := (1000 + 288 * d + p) * 4 + net

/-- Mesh links along x from x0 to x1 in row y. -/
def meshX (d y net x0 x1 : Nat) : List Nat :=
  if x0 ≤ x1 then (List.range (x1 - x0)).map fun i => linkMesh d (x0 + i) y 0 net
  else (List.range (x0 - x1)).map fun i => linkMesh d (x0 - i) y 1 net

/-- Mesh links along y from y0 to y1 in column x. -/
def meshY (d x net y0 y1 : Nat) : List Nat :=
  if y0 ≤ y1 then (List.range (y1 - y0)).map fun i => linkMesh d x (y0 + i) 2 net
  else (List.range (y0 - y1)).map fun i => linkMesh d x (y0 - i) 3 net

/-- First along x, then along y (R366). -/
def meshRoute (d net : Nat) (a b : Nat × Nat) : List Nat := meshX d a.2 net a.1 b.1 ++ meshY d b.1 net a.2 b.2

/-- The parts of a node ID (R363). -/
def nodeDie (n : Nat) : Nat := n / 512
def nodePort (n : Nat) : Nat := if nodeDie n < 4 then nodeDie n else n % 512 / 8
def nodeXY (n : Nat) : Nat × Nat := (n % 512 / 8 % 6, n % 512 / 8 / 6)

/-- A node is the NETP port j of a die (R364). -/
def isNetp (n : Nat) : Bool := decide (nodeDie n < 4) && (List.range 4).any fun j => n % 512 == (6 * (2 + j) + 5) * 8

/-- The segments of a user flow's route: the source die, the spine, the destination die (R366, R370). -/
def userRoute (net src dst : Nat) : List (List Nat) :=
  let d := nodeDie src
  if nodeDie dst = d then [meshRoute d net (nodeXY src) (nodeXY dst)]
  else
    let k := (Config.attachment (Fin.ofNat 4 d) (nodePort dst)).val
    let first := [meshRoute d net (nodeXY src) (k, 0) ++ [linkUp d net], [linkIn d net, linkOut (nodePort dst) net]]
    if nodeDie dst < 4 then
      let k' := (Config.attachment (Fin.ofNat 4 (nodeDie dst)) d).val
      first ++ [linkDown (nodeDie dst) net :: meshRoute (nodeDie dst) net (k', 0) (nodeXY dst)]
    else first

-- flows (R369)

/-- A flow: its number, and its segments, each a run of links and the slots it takes on them. -/
structure GFlow where
  id : Nat
  segs : List (List Nat × Nat)
  deriving DecidableEq, Repr

/-- A valid user flow of a copy (R385): source, destination, network, slots. -/
def State.userFlow (s : State) (e f : Nat) : Option (Nat × Nat × Nat × Nat) :=
  let w0 := s.rd .nocFlow [e, f, 0]
  if bitOf w0 26 then some (fld w0 0 12, fld w0 12 12, fld w0 24 2, s.rf .nocFlow [e, f, 1] 0 8) else none

/-- What a flow set must satisfy before it is placed (R376). -/
def State.userFlowsOk (s : State) (e : Nat) : Bool :=
  (List.range 64).all fun f =>
    match s.userFlow e f with
    | none => true
    | some (src, _, net, n) => isNetp src && net != 3 && decide (1 ≤ n ∧ n ≤ 192)

/-- The flows of R369, in its order, with the user flows of copy e, at a spine clock. -/
def State.gflows (s : State) (e mhz : Nat) : List GFlow :=
  let raw := (List.range 4).map fun d =>
    let rate := (s.rings d).rawRate.toNat
    let live := s.liveSegs d
    let own := if live = [] then [] else
      [([linkUp d 2], slotsFor rate d mhz), ([linkIn d 2], slotsFor rate d mhz)]
    { id := 1 + d, segs := own ++ live.map fun e => ([linkOut (4 + e.1) 2], slotsFor (ceilDiv rate live.length) (4 + e.1) mhz) }
  let hit := (List.range 4).map fun d =>
    let rate := (s.rings d).hitRate.toNat
    match s.hitSeg d with
    | none => { id := 5 + d, segs := [] }
    | some r =>
      let n := (s.regionAt r).lo / stackBytes
      { id := 5 + d, segs := [([linkUp d 2], slotsFor rate d mhz), ([linkIn d 2], slotsFor rate d mhz),
          ([linkOut (4 + n) 2], slotsFor rate (4 + n) mhz)] }
  let sum := s.rb .mrgCtrl [] 1
  let up := (List.range 4).map fun d =>
    { id := 9 + d, segs := if sum && s.rb .mrgCtrl [] (8 + d) then [([linkUp d 2], 6), ([linkIn d 2], 6)] else [] }
  let down := (List.range 4).map fun d =>
    { id := 13 + d, segs := if sum then [([linkOut d 2], 6), ([linkDown d 2], 6)] else [] }
  let copyRate := s.rf .dbmCopyRate [] 0 16 * 1000
  let copy := match s.pool with
    | none => []
    | some r =>
      let h := if (s.regionAt r).lo < farBase 1 then 0 else 1
      [{ id := 17, segs := ((List.range 4).map fun n => ([linkIn (4 + n) 2], slotsFor (ceilDiv copyRate 4) (4 + n) mhz)) ++
          [([linkOut (8 + h) 2], slotsFor copyRate (8 + h) mhz)] }]
  let log := [{ id := 18, segs := [([linkIn 16 2], 1), ([linkOut 7 2], 1)] }]
  let user := (List.range 64).filterMap fun f =>
    (s.userFlow e f).map fun u => { id := 32 + f, segs := (userRoute u.2.2.1 u.1 u.2.1).map fun l => (l, u.2.2.2) }
  raw ++ hit ++ up ++ down ++ copy ++ log ++ user

-- slot tables (R368, R370)

/-- A slot table: the flow of each reserved slot, by link × 256 + slot; 0 is none. -/
abbrev SlotTable := Tbl Nat

/-- Slot s of a run of links is free on link i at s + i (R370). -/
def runFree (t : SlotTable) (s : Nat) : List Nat → Nat → Bool
  | [], _ => true
  | l :: ls, i => Tbl.get 0 t (l * 256 + (s + i) % 256) == 0 && runFree t s ls (i + 1)

/-- The run's slots taken. -/
def runTake (t : SlotTable) (s id : Nat) : List Nat → Nat → SlotTable
  | [], _ => t
  | l :: ls, i => runTake (Tbl.set 0 t (l * 256 + (s + i) % 256) id) s id ls (i + 1)

/-- The lowest free slots, rising, until as many as are needed are taken (R370); none where they do not suffice. -/
def placeRun (t : SlotTable) (id : Nat) (links : List Nat) (need : Nat) : List Nat → Option SlotTable
  | [] => if need = 0 then some t else none
  | s :: ss =>
    if need = 0 then some t
    else if runFree t s links 0 then placeRun (runTake t s id links 0) id links (need - 1) ss
    else placeRun t id links need ss

/-- A flow placed on all its segments. -/
def placeSegs (t : SlotTable) (id : Nat) : List (List Nat × Nat) → Option SlotTable
  | [] => some t
  | (links, n) :: r => (placeRun t id links n (List.range 256)).bind fun t => placeSegs t id r

/-- All flows placed in order. -/
def placeFlows (t : SlotTable) : List GFlow → Option SlotTable
  | [] => some t
  | f :: r => (placeSegs t f.id f.segs).bind fun t => placeFlows t r

/-- Slots reserved on a link. -/
def reserved (t : SlotTable) (link : Nat) : Nat := (t.filter fun e => e.1 / 256 == link).length

/-- No link holds more than 192 reserved slots (R368). -/
def within192 (t : SlotTable) : Bool := t.all fun e => decide (reserved t (e.1 / 256) ≤ 192)

/-- No slot is reserved to different flows in two copies (R376). -/
def slotsAgree (a b : SlotTable) : Bool := a.all fun e => Tbl.get 0 b e.1 == 0 || Tbl.get 0 b e.1 == e.2

/-- The table in force. -/
def State.activeSlots (s : State) : SlotTable := if s.noc.active then s.noc.res1 else s.noc.res0

/-- The table that a flip would put in force, where it would not be refused for what it holds (R376). -/
def State.shade (s : State) (mhz : Nat) : Option SlotTable :=
  let e := b2n (!s.noc.active)
  if !s.userFlowsOk e then none
  else match placeFlows [] (s.gflows e mhz) with
    | some t => if within192 t && slotsAgree s.activeSlots t then some t else none
    | none => none

/-- The spine clock of the running profile. -/
def State.spineNow (s : State) : Nat := spineMHz s.pw.running.toNat

/-- A flip is refused now (R376). -/
def State.flipRefused (s : State) (mhz : Nat) : Bool := s.oldPackets != 0 || s.noc.flipPending || (s.shade mhz).isNone

/-- A flip's request (R375, R376): refused and counted, or the Shade is computed. -/
def State.flipRequest (s : State) (mhz : Nat) : Bool × State :=
  match s.shade mhz with
  | some t =>
    if s.oldPackets != 0 || s.noc.flipPending then (false, ({ s with noc := { s.noc with lastRefused := true } }).vio 73)
    else
      let n := { s.noc with flipPending := true, lastRefused := false }
      (true, { s with noc := if s.noc.active then { n with res0 := t } else { n with res1 := t } })
  | none => (false, ({ s with noc := { s.noc with lastRefused := true } }).vio 73)

/-- A write that asks for a flip itself (R375): where the flip is refused, so is the write (R376). -/
def State.withFlip (s : State) (f : State → State) : State :=
  match (f s).flipRequest (f s).spineNow with
  | (true, t) => t
  | (false, _) => ({ s with noc := { s.noc with lastRefused := true } }).vio 73

/-- Reserved slots of a spine port over its networks (R385). -/
def State.spineResWord (s : State) (p : Nat) : Word :=
  let t := s.activeSlots
  let n (l : Nat → Nat) : Nat := ((List.range 3).map fun k => reserved t (l k)).sum
  BitVec.ofNat 32 (pack [(0, n (linkIn p) % 256), (8, n (linkOut p) % 256)])

/-- Reserved slots of a user flow that passes attachment k of die d. -/
def State.attachSlots (s : State) (d k : Nat) (up : Bool) : Nat :=
  ((List.range 64).map fun f =>
    match s.userFlow (b2n s.noc.active) f with
    | some (src, dst, _, n) =>
      let here := if up then nodeDie src == d && nodeDie dst != d &&
            (Config.attachment (Fin.ofNat 4 d) (nodePort dst)).val == k
        else nodeDie dst == d && nodeDie src != d && (Config.attachment (Fin.ofNat 4 d) (nodePort src)).val == k
      if here then n else 0
    | none => 0).sum

/-- NOC_BRG_RES (R385). -/
def State.brgResWord (s : State) (d k : Nat) : Word :=
  let t := s.activeSlots
  let fixed (link : Nat) : Nat := (t.filter fun e => e.1 / 256 == link && decide (e.2 < 32)).length
  let up := s.attachSlots d k true + Config.streamShare (fixed (linkUp d 2)) (Fin.ofNat 6 k)
  let down := s.attachSlots d k false + Config.streamShare (fixed (linkDown d 2)) (Fin.ofNat 6 k)
  BitVec.ofNat 32 (pack [(0, up % 256), (8, down % 256)])

end Sys2Proof.Machine
end

