-- ==== Sys2Proof/Machine/Windows.lean ====
section
/-! DEFINITION. Time windows and trigger primitives (04_windows): sorting, the Penumbra, watermarks and closing, summaries,
the Window Merge, and starting and stopping. A window is named by its unwrapped index; its ID is that index modulo 2^48. -/

namespace Sys2Proof.Machine

-- parameters and indexes (R96, R99, R101)

/-- The window ID of an unwrapped index. -/
def widOf (m : Nat) : Addr := BitVec.ofNat 48 m

/-- Offset of a timestamp from an origin, where it is not before it (R96). -/
def fromOrigin (t origin : Stamp) : Option Nat :=
  let u := (t - origin).toNat
  if u < 2 ^ 63 then some u else none

/-- The first window whose close point lies above a time (R99, R101). -/
def firstOpen (t origin : Stamp) (w p l : Nat) : Nat :=
  match fromOrigin t origin with
  | some u => (u - (p + 64 * l)) / w
  | none => 0

/-- A window's close point has been reached (R99). -/
def closeReached (t origin : Stamp) (w p l m : Nat) : Bool :=
  match fromOrigin t origin with
  | some u => decide ((m + 1) * w + p + 64 * l ≤ u)
  | none => false

/-- A tick as a timestamp with fine time 0. -/
def stampOf (t : BitVec 58) : Stamp := BitVec.ofNat 64 (t.toNat * 64)

/-- The package's parameters. -/
def State.mrgOrigin (s : State) : Stamp := BitVec.ofNat 64 (s.rd64 .mrgOrigin [])
def State.mrgW (s : State) : Nat := s.rf .mrgWidth [] 0 23
def State.mrgP (s : State) : Nat := s.rf .mrgPen [] 0 8
def State.mrgL (s : State) : Nat := s.rf .mrgLate [] 0 12
def State.sumEn (s : State) : Bool := s.merge.sum
def State.dieMask (s : State) (d : Nat) : Bool := bitOf s.merge.mask d

/-- start(n) of R121 for an unwrapped index. -/
def State.windowStart (s : State) (m : Nat) : Stamp := s.mrgOrigin + BitVec.ofNat 64 (m * s.mrgW)

/-- The unwrapped index of a window ID: the one nearest to the hub's present window, by the older-than rule (R96). -/
def State.unwrap (s : State) (id : Addr) : Nat :=
  let now := match fromOrigin s.now s.mrgOrigin with
    | some u => u / s.mrgW
    | none => 0
  let fwd := (id - widOf now).toNat
  if fwd < 2 ^ 47 then now + fwd
  else if 2 ^ 48 - fwd ≤ now then now - (2 ^ 48 - fwd) else now + fwd

-- joining (R107)

/-- The die's bridge carries traffic (R341). -/
def State.bridgeUp (s : State) (d : Nat) : Bool := (s.bridge d).state == 7 || (s.bridge d).state == 8

/-- A die of die_mask is joined (R107). -/
def State.joined (s : State) (d : Nat) : Bool :=
  s.dieMask d && (s.wsu d).joined && s.live (domCFE d) && s.bridgeUp d

/-- A die that window m awaits (R106): joined, and from a window no later than m on (R107). -/
def State.awaited (s : State) (d m : Nat) : Bool := s.joined d && decide ((s.wsu d).joinFrom ≤ m)

-- the ports (R108, R109, R319)

/-- The window group's ports of a die are attached. -/
def State.windowPorts (s : State) (d : Nat) : Bool := s.portAttached d 0 0

/-- An item for WHIT; a lost one is counted, and the result says so. -/
def State.pushWhit (s : State) (d : Nat) (h : HitRec) (id : Addr) : Bool × State :=
  let w := s.wsu d
  if s.windowPorts d ∧ w.whit.length < 512 then (true, s.setWsu d { w with whit := w.whit ++ [(h, id)] })
  else (false, s.count (cn 2 4) d 0 1)

def State.pushWlate (s : State) (d : Nat) (h : HitRec) (id : Addr) : State :=
  let w := s.wsu d
  if s.windowPorts d ∧ w.wlate.length < 64 then s.setWsu d { w with wlate := w.wlate ++ [(h, id)] }
  else s.count (cn 2 4) d 1 1

def State.pushWcls (s : State) (d : Nat) (e : CloseEv) : State :=
  let w := s.wsu d
  if s.windowPorts d ∧ w.wcls.length < 256 then s.setWsu d { w with wcls := w.wcls ++ [e] } else s.count (cn 2 4) d 2 1

def State.pushWsum (s : State) (d : Nat) (x : Summary) : State :=
  let w := s.wsu d
  if s.windowPorts d ∧ w.wsum.length < 4 then s.setWsu d { w with wsum := w.wsum ++ [x] } else s.count (cn 2 4) d 3 1

-- sorting (R96, R97, R100, R104)

/-- The accumulator of a window: its entry, or a new one. -/
def Wsu.acc (w : Wsu) (m : Nat) : WinAcc := (w.windows.find? fun x => x.m == m).getD { m := m }

/-- An accumulator put back. -/
def Wsu.setAcc (w : Wsu) (x : WinAcc) : Wsu := { w with windows := x :: w.windows.filter fun y => y.m != x.m }

/-- The channel group of a record (R104). -/
def State.groupOf (s : State) (d : Nat) (h : HitRec) : Nat :=
  let c := h.channel.toNat % 1792
  s.rf .wsuGroup [d, c / 4] (8 * (c % 4)) 8

/-- A record counted in its home window (R104, R105). -/
def WinAcc.addHome (x : WinAcc) (g v : Nat) (deg : Bool) : WinAcc :=
  let (c, sum) := Tbl.get (0, 0) x.groups g
  let sat := decide (0xFFFFFF ≤ c) || decide (2 ^ 40 - 1 < sum + v)
  { x with
    count := x.count + 1, groups := Tbl.set (0, 0) x.groups g (satNat (c + 1) 0xFFFFFF, satNat (sum + v) (2 ^ 40 - 1)),
    deg := x.deg || deg, sat := x.sat || sat }

/-- A late hit, home or copy (R100, R111). -/
def State.lateHit (s : State) (d : Nat) (h : HitRec) (m : Nat) (home : Bool) : State :=
  let s := s.count (cn 2 2) d 0 1
  if s.rb .mrgCtrl [] 2 then
    let h := { h with late := true }
    let s := s.pushWlate d h (widOf m)
    if home then s.hitPush d h else s
  else s

/-- Window m has closed on a die (R99): in ID order up to its close event, or because the watermark has reached its close
point. -/
def State.wsuClosed (s : State) (d m : Nat) : Bool :=
  let w := s.wsu d
  decide (m < w.oldest) || closeReached (stampOf w.wm) w.origin w.width w.pen w.late m

/-- WSU_OLDEST: the oldest open window (R99, R115). -/
def State.wsuOldest (s : State) (d : Nat) : Nat :=
  let w := s.wsu d
  if w.running then max w.oldest (firstOpen (stampOf w.wm) w.origin w.width w.pen w.late) else w.oldest

/-- A copy for a neighbouring window (R97). -/
def State.penCopy (s : State) (d : Nat) (h : HitRec) (m : Nat) : State :=
  let s := s.count (cn 2 1) d 0 1
  let h := { h with pen := true }
  if s.wsuClosed d m then s.lateHit d h m false
  else
    let (ok, s) := s.pushWhit d h (widOf m)
    let w := s.wsu d
    let x := w.acc m
    s.setWsu d { w.setAcc { x with copies := x.copies + 1, ovf := x.ovf || !ok } with newest := max w.newest m }

/-- A record sorted (R96, R97, R111). -/
def State.sortHit (s : State) (d : Nat) (h : HitRec) : State :=
  let w := s.wsu d
  match w.running, fromOrigin h.ts w.origin with
  | true, some u =>
    let m := u / w.width
    let o := u - m * w.width
    let s :=
      if s.wsuClosed d m then s.lateHit d h m true
      else
        let s := s.count (cn 2 0) d 0 1
        let (ok, s) := s.pushWhit d h (widOf m)
        let w := s.wsu d
        let v := if s.rb .mrgCtrl [] 4 then h.integral.toNat else h.amp.toNat
        let x := (w.acc m).addHome (s.groupOf d h) v h.deg
        (s.setWsu d { w.setAcc { x with ovf := x.ovf || !ok } with newest := max w.newest m }).hitPush d h
    if o < w.pen ∧ 0 < m then s.penCopy d h (m - 1)
    else if w.width - w.pen ≤ o then s.penCopy d h (m + 1)
    else s
  | _, _ => s.count (cn 2 3) d 0 1

/-- WSU_SORT (R96): the oldest record of a bundle's hit queue reaches the WSU. -/
def execWsuSort (die : Die) (bundle : Bundle) (s : State) : Out :=
  let k := die.val * 16 + bundle.val
  .next (match s.hitQueue k with
    | h :: t => if s.on (domCFE die.val) then (s.setHitQueue k t).sortHit die.val h else s
    | [] => s)

-- watermark and closing (R98, R99, R104, R109)

/-- A per-die summary of a window (R104, R105). -/
def State.dieSummary (s : State) (d : Nat) (x : WinAcc) (forced : Bool) : Summary :=
  let w := s.wsu d
  { id := widOf x.m, missing := 0, deg := x.deg || s.tb.degraded, forced := forced, sat := x.sat, ovf := x.ovf,
    start := w.origin + BitVec.ofNat 64 (x.m * w.width),
    total := BitVec.ofNat 32 (satNat ((x.groups.map fun g => g.2.1).sum) 0xFFFFFFFF), groups := x.groups }

/-- A message of a WSU to the Window Merge. -/
def State.toMerge (s : State) (d : Nat) (m : MrgMsg) : State :=
  { s with merge := { s.merge with inbox := Tbl.set [] s.merge.inbox d (Tbl.get [] s.merge.inbox d ++ [m]) } }

/-- A window closes on a die (R104, R109, R278). -/
def State.closeWindow (s : State) (d m : Nat) (forced : Bool) : State :=
  let w := s.wsu d
  let x := w.acc m
  let s := s.setWsu d { w with windows := w.windows.filter fun y => y.m != m, oldest := m + 1 }
  let s := if s.sumEn && s.dieMask d then s.toMerge d (.summary m (s.dieSummary d x forced)) else s
  if x.count = 0 ∧ x.copies = 0 ∧ s.rb .mrgCtrl [] 3 = false then s
  else
    let ev : CloseEv := {
      wid := widOf m, count := BitVec.ofNat 24 (satNat x.count 0xFFFFFF), empty := x.count == 0, forced := forced,
      deg := x.deg || s.tb.degraded, ovf := x.ovf }
    (s.pushWcls d ev).postWindow d ev

/-- WINDOW_CLOSE (R98, R99): the watermark moves, and the oldest window closes if its close point is reached. -/
def execWindowClose (die : Die) (s : State) : Out :=
  let d := die.val
  .next (if s.on (domCFE d) && (s.wsu d).running then
    let s := s.moveWm d
    let w := s.wsu d
    if closeReached (stampOf w.wm) w.origin w.width w.pen w.late w.oldest then s.closeWindow d w.oldest false else s
  else s)

-- starting and stopping (R101–R103, R107)

/-- A WSU starts at a window (R101, R107). -/
def State.wsuStart (s : State) (d first : Nat) : State :=
  s.setWsu d { s.wsu d with
    running := true, joined := true, joinFrom := first, wm := s.tb.tick, oldest := first, newest := 0, origin := s.mrgOrigin,
    width := s.mrgW, pen := s.mrgP, late := s.mrgL, windows := [], laneTick := [] }

/-- The first window not yet closed in the hub's view (R101). -/
def State.hubFirst (s : State) : Nat := firstOpen s.now s.mrgOrigin s.mrgW s.mrgP s.mrgL

/-- WSU_MRG_CTRL.run is written 1 with these fields (R101). -/
def State.windowsOk (s : State) (v : Word) : Bool :=
  decide (64 ≤ s.mrgW ∧ s.mrgW ≤ 2 ^ 22) && decide (2 * s.mrgP < s.mrgW) && s.mrgL != 0 &&
    s.rf .mrgWait [] 0 16 != 0 && (!bitOf v 1 || decide (8192 ≤ s.mrgW)) && fld v 8 4 != 0

/-- The windows start (R101). Windows that an earlier stop has yet to emit are given up (log entry 154). -/
def State.windowsStart (s : State) (v : Word) : State :=
  let s := s.store .mrgCtrl [] v
  let f := s.hubFirst
  let s := { s with merge := { s.merge with
    running := true, sum := bitOf v 1, mask := BitVec.ofNat 4 (fld v 8 4), origin := s.mrgOrigin, width := s.mrgW, pen := s.mrgP, late := s.mrgL, stopping := none, next := f, inbox := [], arrived := [], endMarks := 0, firstId := widOf f } }
  upTo (fun d s => if s.live (domCFE d) then s.wsuStart d f else s) 4 s

/-- The last open window of a WSU (R102); window 0 where no window contains the watermark and nothing was sorted (log entry
155). -/
def State.lastOpen (s : State) (d : Nat) : Nat :=
  let w := s.wsu d
  match fromOrigin (stampOf w.wm) w.origin with
  | some u => max (u / w.width) w.newest
  | none => w.newest

/-- Windows m, m + 1, … close in ID order, n of them. -/
def State.closeRun (s : State) (d m : Nat) (forced : Bool) (n : Nat) : State :=
  (List.range n).foldl (fun (s : State) i => s.closeWindow d (m + i) forced) s

/-- A WSU closes its open windows at once, with the forced flag, behind those that its watermark has closed; a joined die
sends its end mark (R99, R102, R103). -/
def State.forceClose (s : State) (d : Nat) : State :=
  let s := s.moveWm d
  let o := (s.wsu d).oldest
  let s := s.closeRun d o false (s.wsuOldest d - o)
  let o := (s.wsu d).oldest
  let s := s.closeRun d o true (s.lastOpen d + 1 - o)
  if s.sumEn && s.joined d then s.toMerge d .endMark else s

/-- Every running WSU closes; the merge is to emit through the newest window that an awaited die has closed. -/
def State.forceAll (s : State) : State :=
  let run := (List.range 4).filter fun d => (s.wsu d).running && s.on (domCFE d)
  let s := run.foldl (fun s d => s.forceClose d) s
  let aw := run.filter fun d => s.joined d
  let last := (aw.map fun d => (s.wsu d).oldest).foldl max 0
  let s := if s.sumEn && aw != [] && decide (s.merge.next < last) then
      { s with merge := { s.merge with stopping := some (last - 1), endMarks := 0 } }
    else { s with merge := { s.merge with stopping := none } }
  s.count (cn 2 7) hub 0 1

/-- The windows stop (R102). -/
def State.windowsStop (s : State) (v : Word) : State :=
  let s := s.forceAll
  let s := upTo (fun d s => s.setWsu d { s.wsu d with running := false, joined := s.merge.stopping.isSome && (s.wsu d).joined }) 4 s
  let s := s.store .mrgCtrl [] v
  { s with merge := { s.merge with running := false } }

/-- A write of WSU_MRG_CTRL that keeps the network's tables (R101, R102). -/
def State.mrgCtrlSet (s : State) (v : Word) : State :=
  let old := s.rd .mrgCtrl []
  let v := v &&& 0xF1F
  if bitOf old 0 then
    if bitOf v 0 then
      if (old ^^^ v) &&& 0xF12 ≠ 0 then s.vio 60 else s.store .mrgCtrl [] v
    else s.windowsStop v
  else if bitOf v 0 then (if s.windowsOk v then s.windowsStart v else s.vio 60)
  else s.store .mrgCtrl [] v

/-- A write of WSU_MRG_CTRL (R101, R102): a change of sum_en asks for a network flip, whose refusal refuses the write
(R375, R376). -/
def State.mrgCtrlWrite (s : State) (v : Word) : State :=
  let t := s.mrgCtrlSet v
  if t.rb .mrgCtrl [] 1 = s.rb .mrgCtrl [] 1 then t else s.withFlip fun s => s.mrgCtrlSet v

/-- WINDOWS_START (R101). -/
def execWindowsStart (r : Req) (v : Word) (s : State) : Out :=
  .next (if s.live domSPN then s.guarded r (fun s => s.mrgCtrlWrite (setBit v 0 true)) else s)

/-- WINDOWS_STOP (R102). -/
def execWindowsStop (r : Req) (v : Word) (s : State) : Out :=
  .next (if s.live domSPN then s.guarded r (fun s => s.mrgCtrlWrite (setBit v 0 false)) else s)

/-- A parameter write: one that changes the value is refused while the windows run (R102). -/
def State.mrgParamWrite (s : State) (n : RegName) (v : Word) : State :=
  if s.rb .mrgCtrl [] 0 && (v &&& BitVec.ofNat 32 (n.mask [])) != s.rd n [] then s.vio 60 else s.store n [] v

/-- A write of WSU_MRG_ORIGIN, both words at once (R9, R102). -/
def State.mrgOriginWrite (s : State) (lo hi : Word) : State :=
  if s.rb .mrgCtrl [] 0 && (lo != s.rd .mrgOrigin [0] || hi != s.rd .mrgOrigin [1]) then s.vio 60
  else (s.wr .mrgOrigin [0] lo).wr .mrgOrigin [1] hi

/-- The Window Merge goes on after a SYNC load from the first window that is not closed in the hub's view (R103). -/
def State.mergeRestart (s : State) : State :=
  let f := s.hubFirst
  { s with merge := { s.merge with next := f, firstId := widOf f, stopping := none, endMarks := 0, arrived := [] } }

/-- A SYNC load while the windows run (R103): called before the tick counter takes its value. -/
def State.windowsReload (s : State) (tick : BitVec 58) : State :=
  let load (s : State) : State := { s with tb := { s.tb with tick := tick } }
  if s.rb .mrgCtrl [] 0 = false then load s
  else
    let s := load s.forceAll
    let s := upTo (fun d s =>
      let w := s.wsu d
      if w.running then
        s.setWsu d { w with
          wm := tick, oldest := firstOpen (stampOf tick) w.origin w.width w.pen w.late, newest := 0, windows := [] }
      else s) 4 s
    if s.merge.stopping.isNone then s.mergeRestart else s

/-- A die comes back while the windows run (R107): it starts at the first window that starts at or after its tick. -/
def State.wsuRejoin (s : State) (d : Nat) : State :=
  if s.rb .mrgCtrl [] 0 && s.live (domCFE d) then
    let f := match fromOrigin s.now s.mrgOrigin with
      | some u => ceilDiv u s.mrgW
      | none => 0
    s.wsuStart d f
  else s

/-- A die restore rewrites the parameter copies from the hub (R115). -/
def State.wsuCopies (s : State) (d : Nat) : State :=
  s.setWsu d { s.wsu d with origin := s.mrgOrigin, width := s.mrgW, pen := s.mrgP, late := s.mrgL }

-- the Window Merge (R105, R106)

/-- PER_DIE_SUMMARY_ARRIVE (R106): the next message of a die reaches the merge. -/
def execPerDieSummaryArrive (die : Die) (s : State) : Out :=
  let d := die.val
  let g := s.merge
  .next (if s.on domSPN = false ∨ s.dieHeld d = true ∨ (bitOf g.endMarks d = true ∧ g.stopping.isSome = true) then s
    else match Tbl.get [] g.inbox d with
    | [] => s
    | x :: t =>
      let s := { s with merge := { g with inbox := Tbl.set [] g.inbox d t } }
      match x with
      | .endMark =>
        if g.stopping.isSome then { s with merge := { s.merge with endMarks := setBit s.merge.endMarks d true } } else s
      | .summary m y =>
        if m < g.next ∨ (g.running = false ∧ g.stopping.isNone = true) then s.count (cn 2 5) hub d 1
        else { s with merge := { s.merge with arrived := s.merge.arrived ++ [(d, m, y)] } })

/-- Two groups' counts and sums added with saturation. -/
def addGroups (a : Tbl (Nat × Nat)) : Tbl (Nat × Nat) → Tbl (Nat × Nat) × Bool
  | [] => (a, false)
  | (g, c, v) :: t =>
    let (c0, v0) := Tbl.get (0, 0) a g
    let sat := decide (0xFFFFFF < c0 + c) || decide (2 ^ 40 - 1 < v0 + v)
    let (r, st) := addGroups (Tbl.set (0, 0) a g (satNat (c0 + c) 0xFFFFFF, satNat (v0 + v) (2 ^ 40 - 1))) t
    (r, sat || st)

/-- Saturating sums and ORed flags over summaries (R106). -/
def mergeSummaries (base : Summary) : List Summary → Summary
  | [] => base
  | x :: t =>
    let (g, st) := addGroups base.groups x.groups
    mergeSummaries { base with
      deg := base.deg || x.deg, forced := base.forced || x.forced, sat := base.sat || x.sat || st, ovf := base.ovf || x.ovf,
      groups := g } t

/-- The package summary of the next window (R105, R106). -/
def State.packageSummary (s : State) : Summary :=
  let m := s.merge.next
  let mine := s.merge.arrived.filter fun e => e.2.1 == m
  let missing := (List.range 4).foldl (fun b d =>
    setBit b d (s.dieMask d && !(mine.any fun e => e.1 == d))) (0 : BitVec 4)
  let x := mergeSummaries
    { id := widOf m, missing := missing, deg := false, forced := false, sat := false, ovf := false,
      start := s.merge.origin + BitVec.ofNat 64 (m * s.merge.width), total := 0, groups := [] } (mine.map fun e => e.2.2)
  let tot := (x.groups.map fun g => g.2.1).sum
  { x with total := BitVec.ofNat 32 (satNat tot 0xFFFFFFFF), sat := x.sat || decide (0xFFFFFFFF < tot) }

/-- The next package summary goes to every die whose CFE domain is on (R106, R109); the stop ends with its last window. -/
def State.emitSummary (s : State) : State :=
  let m := s.merge.next
  let x := s.packageSummary
  let s := if x.missing = 0 then s else s.count (cn 2 6) hub 0 1
  let s := upTo (fun d s => if s.live (domCFE d) then s.pushWsum d x else s) 4 s
  let s := { s with merge := { s.merge with
    next := m + 1, arrived := s.merge.arrived.filter fun e => decide (m < e.2.1), lastMissing := x.missing,
    lastId := x.id } }
  match s.merge.stopping with
  | some l =>
    if m < l then s
    else if s.merge.running then s.mergeRestart
    else
      let s := upTo (fun d s => s.setWsu d { s.wsu d with joined := false }) 4 s
      { s with merge := { s.merge with stopping := none, endMarks := 0, arrived := [] } }
  | none => s

/-- Every awaited die has delivered its summary of the next window, or its end mark during a stop (R102, R106). -/
def State.summaryReady (s : State) : Bool :=
  let g := s.merge
  (g.running || g.stopping.isSome) && s.sumEn &&
    ((List.range 4).all fun d => !s.awaited d g.next || (g.arrived.any fun e => e.1 == d && e.2.1 == g.next) ||
      (g.stopping.isSome && bitOf g.endMarks d)) &&
    (g.stopping.isSome || (List.range 4).any fun d => s.awaited d g.next)

/-- PACKAGE_SUMMARY_EMIT (R106): the emission condition of the next window holds. -/
def execPackageSummaryEmit (s : State) : Out :=
  .next (if s.on domSPN && s.summaryReady then s.emitSummary else s)

/-- A die's live retrain extends the deadline for its summary of the next window (R106). -/
def State.deadlineHeld (s : State) : Bool :=
  (List.range 4).any fun d => s.awaited d s.merge.next && (s.bridge d).state == 8 &&
    !(s.merge.arrived.any fun e => e.1 == d && e.2.1 == s.merge.next)

/-- The hub tick count has reached c_n + wait for the next window (R106). -/
def State.deadlinePassed (s : State) : Bool :=
  let g := s.merge
  let o := g.origin.toNat
  match fromOrigin s.now g.origin with
  | some u => decide (ceilDiv (o + (g.next + 1) * g.width + g.pen) 64 + g.late + s.rf .mrgWait [] 0 16 ≤ (o + u) / 64)
  | none => false

/-- MERGE_DEADLINE (R106): the hub tick count reaches the deadline of the next window. -/
def execMergeDeadline (s : State) : Out :=
  .next (if s.on domSPN && s.merge.running && s.merge.stopping.isNone && s.sumEn && s.deadlinePassed && !s.deadlineHeld then
    s.emitSummary
  else s)

-- the summary format (R105, R108)

/-- A summary's header. -/
def Summary.header (x : Summary) : BitVec 512 :=
  BitVec.ofNat 512 (pack [(0, x.id.toNat), (48, x.missing.toNat), (52, b2n (x.missing != 0)), (53, b2n x.deg),
    (54, b2n x.forced), (55, b2n x.sat), (56, b2n x.ovf), (64, x.start.toNat), (128, x.total.toNat)])

/-- The entry of group g: count and sum. -/
def Summary.entry (x : Summary) (g : Nat) : Nat :=
  let e := Tbl.get (0, 0) x.groups g
  e.1 % 2 ^ 24 + 2 ^ 24 * (e.2 % 2 ^ 40)

/-- Beat 0 is the header; beat k + 1 holds groups 8k to 8k + 7. -/
def Summary.beat (x : Summary) (k : Nat) : BitVec 512 :=
  if k = 0 then x.header
  else BitVec.ofNat 512 (pack ((List.range 8).map fun i => (64 * i, x.entry (8 * (k - 1) + i))))

/-- The 2,112 bytes of a summary. -/
def Summary.bytes (x : Summary) : List Byte := (List.range 33).flatMap fun k => bytesOf (x.beat k).toNat 64

-- words (R114, R115)

/-- WSU_MRG_STAT. -/
def State.mrgStatWord (s : State) : Word :=
  BitVec.ofNat 32 (pack [(0, b2n s.merge.running), (4, b2n (s.joined 0)), (5, b2n (s.joined 1)), (6, b2n (s.joined 2)),
    (7, b2n (s.joined 3)), (8, s.merge.lastMissing.toNat)])

/-- WSU_LVL. -/
def State.wsuLvlWord (s : State) (d : Nat) : Word :=
  let w := s.wsu d
  BitVec.ofNat 32 (pack [(0, w.whit.length), (10, w.wlate.length), (17, w.wcls.length), (26, w.wsum.length)])

end Sys2Proof.Machine
end

