-- ==== Sys2Proof/Machine/Glint.lean ====
section
/-! DEFINITION. The Glint unit (05_glint), the copy engine (R154–R158) and the publication of events (R550–R554). -/

namespace Sys2Proof.Machine

-- requests and statuses (R116–R121, R596)

abbrev stOk : Nat := 0
abbrev stFull : Nat := 1
abbrev stDegraded : Nat := 2
abbrev stStale : Nat := 3
abbrev stDisabled : Nat := 4
abbrev stBadHandle : Nat := 5
abbrev stExpired : Nat := 6
abbrev stBadArg : Nat := 7

/-- Slots in OPEN, and slots not FREE (R139). -/
def State.openSlots (s : State) : Nat := ((List.range 64).filter fun g => (s.slot g).state == 1).length
def State.busySlots (s : State) : Nat := ((List.range 64).filter fun g => (s.slot g).state != 0).length

/-- The lowest-numbered FREE slot (R596). -/
def State.freeSlot (s : State) : Option Nat := (List.range 64).find? fun g => (s.slot g).state == 0

/-- GLT_TYPE_MAP of a type (R142). -/
def State.typeMap (s : State) (t : Byte) : BitVec 7 := (s.rd .gltTypeMap [t.toNat]).setWidth 7

/-- The pin interval of windows f to f + c − 1 (R121). -/
def State.pinRange (s : State) (m c : Nat) : Stamp × Stamp :=
  (s.windowStart m - BitVec.ofNat 64 (64 * s.rf .gltMargin [] 0 16),
    s.windowStart (m + c) + BitVec.ofNat 64 (64 * s.rf .gltMargin [] 16 16))

/-- The range is stale (R121): its first tick lies more than 4 ms back. -/
def State.staleRange (s : State) (lo : Stamp) : Bool :=
  decide ((64 * s.usTicks 4000 : Int) < (s.now - (lo &&& ~~~ (63 : Stamp))).toInt)

/-- A type that GLT_TYPE_MAP does not enable (R142). -/
def State.badType (s : State) (typ : Option Byte) : Bool :=
  match typ with
  | some t => !bitOf (s.typeMap t) 4
  | none => false

/-- The status of an ISSUE or ACCEPT, checked in the order of R596; `typ` is an ACCEPT's type. -/
def State.requestStatus (s : State) (wid : Addr) (c : Nat) (typ : Option Byte) : Nat :=
  let issue := typ.isNone
  let (lo, _) := s.pinRange (s.unwrap wid) c
  if s.rb .gltCtrl [] 0 = false ∨ s.merge.running = false ∨ s.pool = none ∨ (issue ∧ s.gltLimit < 100) then stDisabled
  else if c = 0 ∨ 16 < c ∨ s.badType typ = true then stBadArg
  else if issue ∧ s.tb.degraded = true then stDegraded
  else if s.staleRange lo then stStale
  else if s.freeSlot = none ∨ (issue ∧ s.rf .gltCtrl [] 8 7 ≤ s.openSlots) then stFull
  else stOk

/-- The oldest data of a ring, as a write position (R154): ring offset 0 while the ring has not wrapped, else the 4 MiB that
follows the 4 MiB being written. -/
def oldestAt (pos size : Nat) : Nat :=
  let next := indexCell pos size + 4194304
  let lap := pos - pos % size
  if pos < size then 0 else if size ≤ next - lap then lap else next - size

/-- Where the copy engine starts in a ring (R154): at the latest index entry at or before the mark, or the oldest data. -/
def scanStart (ix : List (Nat × BitVec 58)) (pos size : Nat) (mark : BitVec 58) : Nat :=
  match ix.find? fun e => decide (0 ≤ (mark - e.2).toInt) with
  | some e => e.1
  | none => oldestAt pos size

/-- The scan positions of each die for the mark of a pin interval. -/
def State.scanRaw (s : State) (mark : BitVec 58) (d : Nat) : Nat :=
  let q := s.rings d
  scanStart q.rawIndex q.rawPos.toNat ((s.segs d).length * s.segBytes d) mark
def State.scanHit (s : State) (mark : BitVec 58) (d : Nat) : Nat :=
  let q := s.rings d
  match s.hitSeg d with
  | some r => scanStart q.hitIndex q.hitPos.toNat (s.regionAt r).dataBytes mark
  | none => 0

/-- The four dies' values of a function as a table. -/
def perDie (f : Nat → Nat) : Tbl Nat := (List.range 4).filterMap fun d => if f d = 0 then none else some (d, f d)

/-- The entry actions of OPEN (R122): the pin, the missing-die mask of dies not joined, and the items that are due. -/
def State.openSlot (s : State) (g : Nat) (wid : Addr) (countM1 : BitVec 4) : State :=
  let c := countM1.toNat + 1
  let m := s.unwrap wid
  let (lo, hi) := s.pinRange m c
  let mark := (lo >>> 6).setWidth 58 - BitVec.ofNat 58 (s.usTicks (s.rf .dbmScanBack [] 0 16))
  let missing := pack ((List.range 4).map fun d => (d, b2n (s.dieMask d && !s.joined d)))
  let due := if s.rb .gltCtrl [] 3 then pack ((List.range 4).map fun d => (d, b2n (s.rb .schTmplCtrl [d] 0))) else 0
  s.setSlot g {
    state := 1,
    gen := (s.slot g).gen,
    missing := BitVec.ofNat 4 missing,
    wid := wid,
    countM1 := countM1,
    remain := s.glint.deadline.toNat,
    pinLo := lo,
    pinHi := hi,
    m := m,
    scanRaw := perDie (s.scanRaw mark),
    scanHit := perDie (s.scanHit mark),
    postDue := BitVec.ofNat 4 due }

-- confirmation and accept outputs (R127, R128, R132, R597)

/-- Outputs still waiting at their tick are held back behind the one that went out; each is counted once (R133). -/
def State.slipAccepts (s : State) : State :=
  if s.glint.lastAccept ≠ some s.tb.tick then s
  else
    let due (a : AcceptOut) : Bool := decide (0 ≤ (s.tb.tick - a.due).toInt)
    let n := (s.glint.accepts.filter fun a => due a && !a.slipped).length
    let l := s.glint.accepts.map fun a => if due a then { a with slipped := true } else a
    ({ s with glint := { s.glint with accepts := l } }).count (cn 3 12) hub 0 n

/-- The accept output of a confirmation is scheduled (R132, R597); one that is due in a tick already used is held back (R133). -/
def State.scheduleAccept (s : State) (g : Nat) : State :=
  let sl := s.slot g
  let pin := bitOf sl.map 5
  let tx := bitOf sl.map 6
  let c := sl.countM1.toNat + 1
  let e := ceilDiv (s.windowStart (sl.m + c)).toNat 64
  let due := BitVec.ofNat 58 (e + s.rf .gltLacc [] 0 16)
  let put (due : BitVec 58) (code : Byte) : State :=
    let o : AcceptOut := {
      due := due, gid := Fin.ofNat 64 g, wid := sl.wid + sl.countM1.setWidth 48, type := sl.type, code := code,
      pin := pin, tx := tx }
    ({ s with glint := { s.glint with accepts := s.glint.accepts ++ [o] } }).slipAccepts
  if pin = false ∧ tx = false then s
  else if s.rb .gltCtrl [] 1 then put s.tb.tick 1
  else if 0 < (due - s.tb.tick).toInt then put due 1
  else if s.rb .gltCtrl [] 2 then (put s.tb.tick 2).setSlot g { sl with lateAcc := true }
  else s.count (cn 3 11) hub 0 1

/-- A slot is confirmed (R127, R128): the type and its map entry are latched. -/
def State.confirmSlot (s : State) (g : Nat) (t : Byte) : State :=
  let sl := s.slot g
  let s := s.setSlot g { sl with
    state := 2,
    type := t,
    map := s.typeMap t,
    order := s.glint.nextOrder,
    remain := 0,
    tsConf := s.tb.tick,
    deg := sl.deg || s.tb.degraded }
  ({ s with glint := { s.glint with nextOrder := s.glint.nextOrder + 1 } }).scheduleAccept g

/-- An ISSUE or ACCEPT is taken (R120–R122, R127, R596): status, handle and the state after. -/
def State.request (s : State) (wid : Addr) (countM1 : BitVec 4) (typ : Option Byte) : Nat × Nat × State :=
  let st := s.requestStatus wid (countM1.toNat + 1) typ
  match st, s.freeSlot with
  | 0, some g =>
    let h := (s.handleOf g).toNat
    let s := s.openSlot g wid countM1
    match typ with
    | none => (stOk, h, s.count (cn 3 0) hub 0 1)
    | some t =>
      let s := s.setSlot g { s.slot g with direct := true }
      (stOk, h, (s.confirmSlot g t).count (cn 3 1) hub 0 1)
  | _, _ => (st, 0, s.count (cn 3 2) hub 0 1)

/-- A die's Glint port serves requests (R118, R319). -/
def State.gltPort (s : State) (d : Die) : Bool := s.portAttached d.val 1 0 && s.bridgeUp d.val

-- release (R127, R158, R288)

/-- An item of a descriptor belongs to a handle. -/
def ofHandle (h : Nat) (d : List Word) : Bool := descSpec d && descHandle d == h

/-- Items of a handle in the ready lists of a die are discarded (R288). -/
def State.dropListed (s : State) (d h : Nat) : State :=
  upTo (fun l s => s.setReadyList d l ((s.readyList d l).filter fun x => !ofHandle h x)) 64 s

/-- Items of a handle in prefetch slots and running are discarded and aborted (R288, R522). -/
def State.dropCores (s : State) (h : Nat) : List (Nat × CoreSt) → State
  | [] => s
  | (c, _) :: t =>
    let q := s.core c
    let s := match q.prefetch with
      | some it => if ofHandle h it.desc then s.setCore c { q with prefetch := none } else s
      | none => s
    let s := match q.item with
      | some it => if ofHandle h it.desc then s.abortItem c 1 0 none else s
      | none => s
    s.dropCores h t

/-- A slot enters RELEASING (R126, R127, R288): its items go, its shadow space is freed, its held counts are discarded but
for the memory errors found. -/
def State.release (s : State) (g : Nat) (expired : Bool) : State :=
  let h := (s.handleOf g).toNat
  let s := s.setSlot g { s.slot g with state := 4, lastExpired := expired, remain := 0 }
  let s := upTo (fun d s => s.dropListed d h) 4 s
  let s := s.dropCores h s.cores
  let sl := s.slot g
  let errs := (sl.heldErr.map fun e => e.2).sum
  let s := s.setSlot g { sl with
    items := [],
    hits := [],
    raws := [],
    finished := sl.finished ++ (sl.raws.map fun x => (false, x.1, x.2.1)) ++ (sl.hits.map fun x => (true, x.1, x.2.1)),
    chunks := 0,
    waiting := false,
    itemsOut := 0,
    postDue := 0,
    held := [],
    heldErr := [],
    completions := [] }
  s.count (cn 3 13) hub 0 errs

/-- A slot returns to FREE (R116, R127): its generation rises, and it remembers whether it expired. Every other field of
GLT_SLOT then reads 0 (log entry 161). -/
def State.freeUp (s : State) (g : Nat) : State :=
  let sl := s.slot g
  s.setSlot g { gen := sl.gen + 1, lastExpired := sl.lastExpired }

/-- RELEASE_DONE (R116, R127). -/
def execReleaseDone (g : Gid) (s : State) : Out :=
  .next (if (s.slot g.val).state = 4 then s.freeUp g.val else s)

/-- GLINT_DEADLINE (R124, R127, R129): an OPEN Glint whose deadline is reached expires. -/
def execGlintDeadline (g : Gid) (s : State) : Out :=
  .next (if (s.slot g.val).state = 1 ∧ (s.slot g.val).remain = 0 then ((s.release g.val true).count (cn 3 5) hub 0 1).glintEvent else s)

-- decisions (R116, R120, R127)

/-- The handle names a slot whose current Glint expired (R127). -/
def State.handleExpired (s : State) (h : BitVec 16) : Bool :=
  let sl := s.slot (fld h 0 6)
  let gen : BitVec 10 := BitVec.ofNat 10 (fld h 6 10)
  sl.lastExpired && ((sl.state == 4 && sl.gen == gen) || (sl.state == 0 && sl.gen == gen + 1))

/-- The handle names an OPEN Glint. -/
def State.handleOpen (s : State) (h : BitVec 16) : Bool :=
  (s.slot (fld h 0 6)).state == 1 && (s.slot (fld h 0 6)).gen.toNat == fld h 6 10

/-- A CONFIRM (R127, R142, R596): status and the state after. -/
def State.confirm (s : State) (h : BitVec 16) (t : Byte) : Nat × State :=
  if s.handleExpired h then (stExpired, s.count (cn 3 6) hub 0 1)
  else if s.handleOpen h = false then (stBadHandle, s.count (cn 3 7) hub 0 1)
  else if bitOf (s.typeMap t) 4 = false then (stBadArg, s.count (cn 3 7) hub 0 1)
  else (stOk, (s.confirmSlot (fld h 0 6) t).count (cn 3 3) hub 0 1)

/-- A CANCEL (R127). -/
def State.cancel (s : State) (h : BitVec 16) : Nat × State :=
  if s.handleOpen h then (stOk, (s.release (fld h 0 6) false).count (cn 3 4) hub 0 1)
  else (stBadHandle, s.count (cn 3 7) hub 0 1)

-- the paths of requests (R118, R119, R140)

/-- A request of a die's port is taken by the unit (R118): its status, handle and op go back. A decision's response names the
handle that it was given, refused or not (log entry 162). -/
def State.gltTake (s : State) (d : Die) (q : GltReq) : State :=
  match q.op with
  | 0 => let (st, h, s) := s.request q.wid q.countM1 none; s.emit (.portStatus d 0 st h 0)
  | 1 => let (st, s) := s.confirm q.handle q.type; s.emit (.portStatus d 0 st q.handle.toNat 1)
  | 2 => let (st, s) := s.cancel q.handle; s.emit (.portStatus d 0 st q.handle.toNat 2)
  | _ => let (st, h, s) := s.request q.wid q.countM1 (some q.type); s.emit (.portStatus d 0 st h 3)

/-- Requests that wait at a die's port are taken in order, while its shell has room for a response (R118, R320; log entry
166). -/
def State.gltServe (s : State) (d : Die) : Nat → State
  | 0 => s
  | n + 1 =>
    let f := s.fab d.val
    match f.gltQueue with
    | [] => s
    | q :: t =>
      if s.live domSPN && s.gltPort d && s.respRoom d.val 0 then
        ((s.setFab d.val { f with gltQueue := t }).gltTake d q).gltServe d n
      else s

/-- The port takes a request into its queue of 16, or is not ready (R118, R316). -/
def State.gltOffer (s : State) (d : Die) (q : GltReq) : State :=
  let f := s.fab d.val
  if s.gltPort d && decide (f.gltQueue.length < 16) then
    (s.setFab d.val { f with gltQueue := f.gltQueue ++ [q] }).gltServe d 16
  else s

/-- A staging bank's request (R118, R140): by the host or the Lamp. -/
def State.bankRequest (s : State) (r : Req) (wid : Addr) (countM1 : BitVec 4) (typ : Option Byte) : State :=
  if s.live domSPN && s.reaches r && (r.cls == .host || r.cls == .lamp) then
    let (st, h, s) := s.request wid countM1 typ
    s.answer r (.status st h)
  else s

/-- A write of GLT_DECIDE (R118, R125): a speculative item's is not performed, and no result goes back. -/
def State.decided (s : State) (r : Req) (f : State → Nat × State) : State :=
  if s.live domSPN then s.guarded r fun s => (f s).2 else s

/-- ISSUE (R121, R122). -/
def execIssue (src : Option Die) (r : Req) (wid : Addr) (countM1 : BitVec 4) (s : State) : Out :=
  .next (match src with
    | some d => s.gltOffer d { op := 0, wid := wid, countM1 := countM1 }
    | none => s.bankRequest r wid countM1 none)

/-- ACCEPT (R596). -/
def execAccept (src : Option Die) (r : Req) (wid : Addr) (countM1 : BitVec 4) (type : BitVec 8) (s : State) : Out :=
  .next (match src with
    | some d => s.gltOffer d { op := 3, wid := wid, countM1 := countM1, type := type }
    | none => s.bankRequest r wid countM1 (some type))

/-- CONFIRM (R127). -/
def execConfirm (src : Option Die) (r : Req) (handle : BitVec 16) (type : BitVec 8) (s : State) : Out :=
  .next (match src with
    | some d => s.gltOffer d { op := 1, handle := handle, type := type }
    | none => s.decided r fun s => s.confirm handle type)

/-- CANCEL (R127). -/
def execCancel (src : Option Die) (r : Req) (handle : BitVec 16) (s : State) : Out :=
  .next (match src with
    | some d => s.gltOffer d { op := 2, handle := handle }
    | none => s.decided r fun s => s.cancel handle)

/-- A write of GLT_DECIDE (R139). -/
def State.decideWrite (s : State) (v : Word) : State :=
  let h : BitVec 16 := BitVec.ofNat 16 (fld v 0 16)
  match fld v 24 2 with
  | 1 => (s.confirm h (BitVec.ofNat 8 (fld v 16 8))).2
  | 2 => (s.cancel h).2
  | _ => s.vio 61

-- items (R122, R278, R280)

/-- GLINT_ITEM_POST (R122, R280): the item that an issue owes a die reaches its list. -/
def execGlintItemPost (die : Die) (g : Gid) (s : State) : Out :=
  let sl := s.slot g.val
  .next (if bitOf sl.postDue die.val then
    (s.setSlot g.val { sl with postDue := setBit sl.postDue die.val false }).postGlint die.val g
  else s)

-- the copy (R122, R123, R154, R155)

/-- Bytes of hit records and raw blocks copied. -/
def GlintSlot.copied (sl : GlintSlot) : Nat := 16 * sl.hits.length + (sl.raws.map fun x => x.2.2.length).sum

/-- Chunks behind the item window. -/
def State.itemChunks (s : State) : Nat := ceilDiv (s.itemBytes) 65536

/-- Chunks for n more bytes (R155, R158): granted, refused at the Glint's limit, or waited for. -/
inductive Room where
  | yes | limit | wait
  deriving DecidableEq, Repr

/-- The oldest published events are reclaimed while chunks are needed and hold = 0 (R158). -/
def State.reclaimFor (s : State) (need : Nat) : Nat → State
  | 0 => s
  | n + 1 =>
    if need ≤ s.freeChunks ∨ s.rb .dbmEvtCtrl [] 11 = true ∨ s.dbm.events = [] then s
    else s.reclaimOldest.reclaimFor need n

/-- Room for n more bytes in Glint g's shadow space. -/
def State.shadowRoom (s : State) (g n : Nat) : Room × State :=
  let sl := s.slot g
  let want := s.itemChunks + ceilDiv (sl.copied + n) 65536
  let need := want - sl.chunks
  if 32768 < want then (.limit, s)
  else
    let s := s.reclaimFor need s.dbm.events.length
    if need ≤ s.freeChunks then (.yes, s.setSlot g { s.slot g with chunks := max want sl.chunks }) else (.wait, s)

/-- An entry kept in the order of its die and position. -/
def insertAt {α : Type} (x : Nat × Nat × α) : List (Nat × Nat × α) → List (Nat × Nat × α)
  | [] => [x]
  | y :: t => if x.1 < y.1 ∨ (x.1 = y.1 ∧ x.2.1 < y.2.1) then x :: y :: t else y :: insertAt x t

/-- A raw block of die d is to be copied for the slot and has not been (R154). -/
def GlintSlot.wantsRaw (sl : GlintSlot) (d : Nat) (b : RingBlock) : Bool :=
  overlapsPin b.ts b.span sl.pinLo sl.pinHi && decide (Tbl.get 0 sl.scanRaw d ≤ b.pos) &&
    !sl.rawDone d b.pos

/-- The home window of a hit record (R96). -/
def State.homeOf (s : State) (h : HitRec) : Option Nat := (fromOrigin h.ts s.mrgOrigin).map fun u => u / s.mrgW

/-- A hit record of die d is to be copied for the slot and has not been (R154). -/
def State.wantsHit (s : State) (sl : GlintSlot) (d : Nat) (e : Nat × HitRec) : Bool :=
  (match s.homeOf e.2 with
    | some n => decide (sl.m ≤ n ∧ n ≤ sl.m + sl.countM1.toNat)
    | none => false) &&
    decide (Tbl.get 0 sl.scanHit d ≤ e.1) && !sl.hitDone d e.1

/-- The copy waits for space; each stall is counted once (R123). -/
def State.copyWaits (s : State) (g : Nat) : State :=
  let sl := s.slot g
  if sl.waiting then s else (s.setSlot g { sl with waiting := true }).count (cn 3 10) hub 0 1

/-- A block or record that cannot be copied (R155): the copy is done with it, and raw_lost is set. -/
def State.copyLoses (s : State) (g : Nat) (hit : Bool) (d pos : Nat) : State :=
  s.setSlot g { s.slot g with rawLost := true, finished := (s.slot g).finished ++ [(hit, d, pos)], waiting := false }

/-- Where the next copied bytes go in a Glint's shadow space: behind the item window, in the order of copying (log entry 102). -/
def State.copyOffset (s : State) (g : Nat) : Nat := s.itemChunks * 65536 + (s.slot g).copied

/-- Room in shadow space, and the rights of the copy in the pool (R155, R184): a refused store is counted as one of the
Glint's (R126, R185). -/
def State.copyRoom (s : State) (g n : Nat) : Room × State :=
  match s.shadowRoom g n with
  | (.yes, s) =>
    (match s.poolStore (Fin.ofNat 64 g) (s.copyOffset g) n with
    | (none, s) => (.yes, s)
    | (some w, s) => (.limit, s.onBehalfOf (some (Fin.ofNat 64 g)) fun s => s.countDenied [.refused w]))
  | x => x

/-- One raw block copied; false where the copy waits. -/
def State.copyRaw (s : State) (g d : Nat) (errs : MemErrs) (b : RingBlock) : Bool × State :=
  match s.copyRoom g b.len with
  | (.wait, s) => (false, s.copyWaits g)
  | (.limit, s) => (true, s.copyLoses g false d b.pos)
  | (.yes, s) =>
    let (x, s) := s.ringRead (some (Fin.ofNat 64 g)) errs b.parts
    let sl := s.slot g
    let bytes := x.filterMap ByteRes.byte?
    if bytes.length = b.len then
      (true, s.setSlot g { sl with raws := insertAt (d, b.pos, bytes) sl.raws, deg := sl.deg || b.deg, waiting := false })
    else (true, s.copyLoses g false d b.pos)

/-- One hit record copied; false where the copy waits. -/
def State.copyHit (s : State) (g d : Nat) (errs : MemErrs) (e : Nat × HitRec) : Bool × State :=
  match s.copyRoom g 16 with
  | (.wait, s) => (false, s.copyWaits g)
  | (.limit, s) => (true, s.copyLoses g true d e.1)
  | (.yes, s) =>
    let a := match s.hitSeg d with
      | some r => (s.regionAt r).lo + e.1 % (s.regionAt r).dataBytes
      | none => 0
    let (x, s) := s.readPiece (some (Fin.ofNat 64 g)) a 16 errs
    let sl := s.slot g
    if x.all fun y => y.byte?.isSome then
      (true, s.setSlot g { sl with hits := insertAt (d, e.1, e.2) sl.hits, deg := sl.deg || e.2.deg, waiting := false })
    else (true, s.copyLoses g true d e.1)

/-- Raw blocks copied in ring order until the copy waits. -/
def State.copyRaws (s : State) (g d : Nat) (errs : MemErrs) : List RingBlock → State
  | [] => s
  | b :: t =>
    if (s.slot g).wantsRaw d b then
      match s.copyRaw g d errs b with
      | (true, s) => s.copyRaws g d errs t
      | (false, s) => s
    else s.copyRaws g d errs t

/-- Hit records copied in ring order until the copy waits. -/
def State.copyHits (s : State) (g d : Nat) (errs : MemErrs) : List (Nat × HitRec) → State
  | [] => s
  | e :: t =>
    if s.wantsHit (s.slot g) d e then
      match s.copyHit g d errs e with
      | (true, s) => s.copyHits g d errs t
      | (false, s) => s
    else s.copyHits g d errs t

/-- The chunks behind the item window are allocated (R155); where none is free the copy waits. -/
def State.itemRoom (s : State) (g : Nat) : State :=
  match s.shadowRoom g 0 with
  | (.wait, s) => s.copyWaits g
  | (_, s) => s

/-- GLINT_COPY (R122, R123, R154, R155): everything that the rings hold for the Glint now is copied, die by die. -/
def execGlintCopy (g : Gid) (errs : MemErrs) (s : State) : Out :=
  let sl := s.slot g.val
  .next (if sl.state = 1 ∨ sl.state = 2 then
    (List.range 4).foldl (fun s d =>
      (s.copyRaws g.val d errs (s.rings d).blocks).copyHits g.val d errs (s.rings d).hitLog) (s.itemRoom g.val)
  else s)

/-- The copy is complete (R122, R135): the watermark of every joined die that is not missing is past the interval, nothing
that such a die has sent is still on its way to the ring, nothing pinned is left, and the item window has its chunks. -/
def State.copyComplete (s : State) (g : Nat) : Bool :=
  let sl := s.slot g
  decide (s.itemChunks ≤ sl.chunks) && (List.range 4).all fun d =>
    let q := s.rings d
    let awaited := s.joined d && !bitOf sl.missing d
    (!awaited || decide (0 ≤ (BitVec.ofNat 64 ((s.watermark d).toNat * 64) - sl.pinHi).toInt)) &&
      (q.blocks.all fun b => !sl.wantsRaw d b) && (q.hitLog.all fun e => !s.wantsHit sl d e) &&
      (!awaited || ((q.elastic ++ q.hold).all fun e => !overlapsPin e.1.ts e.2 sl.pinLo sl.pinHi))

/-- Blocks and records of a die's rings that satisfy a test are lost with their stack: Glints that still need one of them set
raw_lost (R135, R151). -/
def State.ringLoses (s : State) (d : Nat) (gone : RingBlock → Bool) (hits : Bool) : State :=
  let q := s.rings d
  let s : State := upTo (fun g s =>
    let sl := s.slot g
    let raw : Bool := q.blocks.any fun b => gone b && sl.wantsRaw d b
    let hit : Bool := hits && q.hitLog.any fun e => s.wantsHit sl d e
    if sl.state ≠ 0 ∧ (raw || hit) = true then s.setSlot g { sl with rawLost := true } else s) 64 s
  s.setRings d { q with blocks := q.blocks.filter fun b => !gone b, hitLog := if hits then [] else q.hitLog }

/-- A stack goes: what the raw and hit rings held on it is lost (R151). -/
def State.stackLost (s : State) (n : Nat) : State :=
  upTo (fun d s =>
    let hit := match s.hitSeg d with
      | some r => (s.regionAt r).lo / stackBytes == n
      | none => false
    s.ringLoses d (fun b => b.parts.any fun p => p.1 / stackBytes == n) hit) 4 s

-- publication (R127, R128, R157, R158, R287, R550–R554)

/-- The ring that a confirmed Glint's event goes to. -/
def GlintSlot.ring (sl : GlintSlot) : Nat := fld sl.map 0 4

/-- Every earlier confirmation on the same ring is published (R127, R128). -/
def State.firstOnRing (s : State) (g : Nat) : Bool :=
  (List.range 64).all fun k =>
    let x := s.slot k
    !((x.state == 2 || x.state == 3) && x.ring == (s.slot g).ring && decide (x.order < (s.slot g).order))

/-- PUBLISH_START (R127). -/
def execPublishStart (g : Gid) (s : State) : Out :=
  let sl := s.slot g.val
  .next (if sl.state = 2 ∧ s.copyComplete g.val = true ∧ sl.itemsOut = 0 ∧ sl.postDue = 0 ∧ s.firstOnRing g.val = true then
    s.setSlot g.val { sl with state := 3 }
  else s)

/-- A length rounded up to a multiple of 64. -/
def align64 (n : Nat) : Nat := (n + 63) / 64 * 64

/-- A section's bytes with the padding to its 64-byte boundary. -/
def padded (l : List Byte) : List Byte := l ++ List.replicate (align64 l.length - l.length) 0

/-- Lengths of the three sections (R157): items, hits, raw blocks. -/
def State.sectionLens (s : State) (sl : GlintSlot) : Nat × Nat × Nat :=
  (s.itemBytes, 16 * sl.hits.length, (sl.raws.map fun x => x.2.2.length).sum)

/-- Bytes that an event takes in its ring, header included (R554). -/
def State.eventLen (s : State) (sl : GlintSlot) : Nat :=
  let (i, h, r) := s.sectionLens sl
  64 + align64 i + align64 h + align64 r

/-- The 64-byte event header (R554). -/
def State.eventHeader (s : State) (g : Nat) (trunc : Bool) (total : Nat) : List Byte :=
  let sl := s.slot g
  let (i, h, r) := s.sectionLens sl
  let n := pack [(0, (s.handleOf g).toNat), (16, sl.wid.toNat), (64, sl.countM1.toNat), (68, sl.type.toNat),
    (76, sl.missing.toNat), (80, b2n sl.rawLost), (81, b2n sl.deg), (82, b2n sl.lateAcc), (83, b2n sl.direct),
    (84, b2n trunc), (96, s.dbm.nextSeq.toNat), (128, sl.tsConf.toNat * 64), (192, i), (224, align64 i), (256, h),
    (288, align64 i + align64 h), (320, r), (352, total), (384, s.now.toNat)]
  bytesOf n 64

/-- The payload (R157): items, hit records and raw blocks, each section on a 64-byte boundary. -/
def State.eventPayload (s : State) (sl : GlintSlot) : List Byte :=
  padded (Memory.bytes sl.items 0 s.itemBytes) ++ padded (sl.hits.flatMap fun x => x.2.2.bytes) ++
    padded (sl.raws.flatMap fun x => x.2.2)

/-- The payload as the publication reads it from the pool (R184): free where it may not (log entry 102). -/
def State.payloadRead (s : State) (l : List Byte) : List Byte × State :=
  match s.poolFetch l.length with
  | (none, s) => (l, s)
  | (some w, s) => (s.countDenied [.refused w]).freeBytes l.length

/-- Settings of a readout ring. -/
def State.ringOn (s : State) (r : Nat) : Bool := s.rb .ringCtrl [r] 0
def State.ringSize (s : State) (r : Nat) : Nat := 2 ^ s.rf .ringCtrl [r] 1 6

/-- Room in a ring (R550). -/
def State.ringRoom (s : State) (r : Nat) : Nat := s.ringSize r - ((s.ring r).prod - (s.ring r).cons).toNat

/-- Bytes written to a ring, at most so many memory writes: each of the maximum payload at most, none across a 4 KiB boundary or
the ring's end (R552). -/
def State.ringWrites (s : State) (r : Nat) : Nat → Nat → List Byte → State
  | 0, _, _ => s
  | fuel + 1, c, bs =>
    match bs with
    | [] => s
    | _ =>
      let o := c % s.ringSize r
      let n := min bs.length (min s.maxPayload (4096 - o % 4096))
      let a := BitVec.ofNat 64 (s.rd64 .ringBase [r] + o)
      (s.emit (.hostWrite a (bs.take n))).ringWrites r fuel (c + n) (bs.drop n)

/-- A message of the ring has gone out: further ones are held off for n µs (R552). -/
def Ring.held (q : Ring) (n : Nat) : Ring := { q with holdoff := n != 0, left := n }

/-- prod is written back, and the ring's vector is sent or held off (R552). -/
def State.ringNotify (s : State) (r : Nat) : State :=
  let s := if s.rb .ringCtrl [r] 7 then
      s.emit (.hostWrite (BitVec.ofNat 64 (s.rd64 .ringWb [r])) (bytesOf (s.ring r).prod.toNat 8))
    else s
  if s.rb .ringCtrl [r] 8 then
    if (s.ring r).holdoff then s.setRing r { s.ring r with msgDue := true }
    else
      let s := s.sendVector (16 + r)
      s.setRing r ((s.ring r).held (s.rf .ringCtrl [r] 16 16))
  else s

/-- Completion records held for a Glint reach their rings (R287). -/
def State.completeAll (s : State) : List (Nat × Nat × List Word) → State
  | [] => s
  | (d, r, w) :: t => (s.complete d r w).completeAll t

/-- The ring can take the event now (R552 step 1). -/
def State.ringReady (s : State) (r len : Nat) : Bool := s.ringOn r && s.canMaster && decide (len ≤ s.ringRoom r)

/-- An event's bytes as the engine writes them (R552, R553): the header, and the payload unless the event is truncated. -/
def State.eventBytes (s : State) (g len : Nat) (trunc : Bool) : List Byte × State :=
  let head := s.eventHeader g trunc len
  let (x, s) := if trunc then ([], s) else s.payloadRead (s.eventPayload (s.slot g))
  (head ++ x, s)

/-- Memory writes that suffice for n bytes. -/
def writesFor (n : Nat) : Nat := n / 128 + n / 4096 + 3

/-- Writing stops while an event of a ring is being written (R551): so many of its memory writes as the engine had made by then,
a free value, have left; prod does not advance. -/
def State.cutEvent (s : State) (g : Nat) : State :=
  let r := (s.slot g).ring
  let full := s.eventLen (s.slot g)
  let trunc := decide (s.ringSize r < full)
  let len := if trunc then 64 else full
  if s.ringReady r len then
    let (k, s) := s.free 32
    if k = 0 then s
    else
      let (bytes, s) := s.eventBytes g len trunc
      s.ringWrites r (k.toNat % ((len + s.maxPayload - 1) / s.maxPayload)) (s.ring r).prod.toNat bytes
  else s

/-- The publication cycle (R16, R124, R126, R127, R158, R287, R552, R553): the event lies whole in the ring, prod advances
past it, held counts and records come out, the shadow chunks become event store and the slot is FREE. -/
def State.publish (s : State) (g : Nat) : State :=
  let sl := s.slot g
  let r := sl.ring
  let full := s.eventLen sl
  let trunc := decide (s.ringSize r < full)
  let len := if trunc then 64 else full
  if s.ringReady r len then
    let (i, h, w) := s.sectionLens sl
    let (bytes, s) := s.eventBytes g len trunc
    let s := s.ringWrites r (writesFor len) (s.ring r).prod.toNat bytes
    let s := s.setRing r { s.ring r with
      prod := (s.ring r).prod + BitVec.ofNat 64 len,
      truncSeen := (s.ring r).truncSeen || trunc }
    let ev : HeldEvent := { seq := s.dbm.nextSeq, chunks := sl.chunks }
    let s := { s with dbm := { s.dbm with events := s.dbm.events ++ [ev], nextSeq := s.dbm.nextSeq + 1 } }
    let s := s.freeUp g
    let s := (s.countKeys sl.held).countKeys sl.heldErr
    let s := ((s.count (cn 4 9) hub 0 1).count (cn 4 10) hub 0 (i + h + w)).completeAll sl.completions
    let s := (s.count (cn 16 1) hub r 1).count (cn 16 2) hub r len
    let s := if trunc then s.count (cn 16 3) hub r 1 else s
    s.ringNotify r
  else s

/-- EVENT_PUBLISH (R127, R552). -/
def execEventPublish (g : Gid) (s : State) : Out :=
  .next (if (s.slot g.val).state = 3 then s.publish g.val else s)

-- accept outputs (R130–R133, R578)

/-- The order of waiting outputs (R133). -/
def AcceptOut.before (a b : AcceptOut) : Bool :=
  let k : Int := (a.due - b.due).toInt
  decide (k < 0) || (k == 0 && decide (a.gid.val ≤ b.gid.val))

/-- The first waiting output. -/
def firstAccept : List AcceptOut → Option AcceptOut
  | [] => none
  | a :: t => match firstAccept t with
    | none => some a
    | some b => some (if a.before b then a else b)

/-- An output is due at the present tick or before it. -/
def State.acceptDue (s : State) (a : AcceptOut) : Bool := decide (0 ≤ (s.tb.tick - a.due).toInt)

/-- The accept pins carry words (R578). -/
def State.accPins (s : State) : Bool := s.live domGPI && s.rails.vioGa && s.rb .gpiCtrl [] 0

/-- A bundle's L0 can send an accept frame (R131). -/
def State.txReady (s : State) (d b : Nat) : Bool :=
  s.live (domLG d b) && s.bridgeUp d && s.rb .laneBctrl [d, b] 12 && !s.rb .laneBctrl [d, b] 13

/-- The 16 payload bytes of an accept frame (R130). -/
def State.acceptBytes (s : State) (a : AcceptOut) : List Byte :=
  bytesOf (pack [(0, a.wid.toNat), (48, a.type.toNat), (56, a.code.toNat), (64, s.tb.tick.toNat)]) 16

/-- Frames for the masked bundles are queued, or not sent and counted (R131). -/
def State.queueFrames (s : State) (a : AcceptOut) : State :=
  upTo (fun k s =>
    if bitOf (BitVec.ofNat 64 (s.rd64 .gltTxMask [])) k then
      if s.txReady (k / 16) (k % 16) then
        { s with glint := { s.glint with
          frames := Tbl.set [] s.glint.frames k (Tbl.get [] s.glint.frames k ++ [s.acceptBytes a]) } }
      else s.count (cn 3 11) hub 0 1
    else s) 64 s

/-- The word of an accept output on bank GA (R578): the code, the trigger type and bits [11:0] of the last window ID. -/
def acceptWord (wid : Addr) (type code : Byte) : BitVec 22 := wid.setWidth 12 ++ type ++ code.setWidth 2

/-- What pair ACC_D0–ACC_D10 carries after the rising and after the falling edge of ACC_CLK (R578): bits 10–0 and 21–11 of the
word. -/
def acceptEdges (w : BitVec 22) : BitVec 11 × BitVec 11 := (w.setWidth 11, w.extractLsb' 11 11)

/-- The first waiting output that is due goes out, one in a tick (R132, R133). -/
def State.acceptOut (s : State) : State :=
  match firstAccept s.glint.accepts with
  | some a =>
    if s.acceptDue a && s.glint.lastAccept != some s.tb.tick then
      let s := { s with glint := { s.glint with
        accepts := s.glint.accepts.erase a,
        lastAccept := some s.tb.tick } }
      let s := if a.pin && s.accPins then s.emit (.acceptPins (acceptWord a.wid a.type a.code)) else s
      let s := if a.tx then s.queueFrames a else s
      s.slipAccepts
    else s
  | none => s

/-- A tick of the accept outputs (R578): the pins carry one word in each tick, 0 where none goes out. -/
def State.acceptTick (s : State) : State :=
  let t := s.acceptOut
  if s.accPins && s.tb.counting && s.glint.lastAccept != some s.tb.tick && t.outbox.length == s.outbox.length then
    t.emit (.acceptPins 0)
  else t

/-- ACCEPT_OUTPUT (R132, R133). -/
def execAcceptOutput (s : State) : Out := .next s.acceptOut

/-- ACCEPT_FRAME_SEND (R40, R130, R131): a queued frame leaves on L0 of its bundle, or is not sent and counted. -/
def execAcceptFrameSend (die : Die) (bundle : Bundle) (s : State) : Out :=
  let k := 16 * die.val + bundle.val
  .next (match Tbl.get [] s.glint.frames k with
    | f :: t =>
      let s := { s with glint := { s.glint with frames := Tbl.set [] s.glint.frames k t } }
      if s.txReady die.val bundle.val then
        s.sendSymbols { d := die.val, b := bundle.val, n := 0 } (f.length + 2) (.acceptFrame die bundle f)
      else s.count (cn 3 11) hub 0 1
    | [] => s)

-- registers (R129, R138–R141)

/-- A write of GLT_DEADLINE (R129). -/
def State.gltDeadlineWrite (s : State) (v : Word) : State :=
  let l := s.gltLimit
  if v.toNat < 100 ∨ (100 ≤ l ∧ l < v.toNat) then s.vio 61 else { s with glint := { s.glint with deadline := v } }

/-- GLT_DEADLINE_WRITE (R129). -/
def execGltDeadlineWrite (r : Req) (v : Word) (s : State) : Out :=
  .next (if s.live domSPN then s.guarded r fun s => s.gltDeadlineWrite v else s)

/-- A write of GLT_CTRL (R138). -/
def State.gltCtrlWrite (s : State) (v : Word) : State := if 64 < fld v 8 7 then s.vio 61 else s.store .gltCtrl [] v

/-- GLT_STATUS (R139). -/
def State.gltStatusWord (s : State) : Word :=
  BitVec.ofNat 32 (pack [(0, s.openSlots), (7, s.busySlots), (14, b2n s.tb.degraded), (15, b2n s.glint.clamped)])

/-- GLT_SLOT word w of slot g (R141). -/
def State.gltSlotWord (s : State) (g w : Nat) : Word :=
  let sl := s.slot g
  match w with
  | 0 => BitVec.ofNat 32 (pack [(0, sl.state.toNat), (3, sl.gen.toNat), (13, sl.missing.toNat), (17, b2n sl.rawLost),
      (18, b2n sl.lateAcc), (19, b2n sl.direct), (20, b2n sl.lastExpired), (24, sl.type.toNat)])
  | 1 => BitVec.ofNat 32 sl.wid.toNat
  | 2 => BitVec.ofNat 32 (sl.wid.toNat / 4294967296 + sl.countM1.toNat * 65536)
  | _ => if sl.state = 1 then BitVec.ofNat 32 sl.remain else 0

/-- A staging bank of the host or the Lamp (R140). -/
def State.stg (s : State) (c : Cls) : Word × Word := if c = .lamp then s.glint.stgLamp else s.glint.stgHost
def State.setStg (s : State) (c : Cls) (v : Word × Word) : State :=
  if c = .lamp then { s with glint := { s.glint with stgLamp := v } } else { s with glint := { s.glint with stgHost := v } }

/-- A read of GLT_STG_GO performs the staged request once (R140). -/
def State.stgGo (s : State) (c : Cls) : Word × State :=
  let (lo, hi) := s.stg c
  let wid : Addr := BitVec.ofNat 48 (lo.toNat + 4294967296 * fld hi 0 16)
  let typ := if bitOf hi 28 then some (BitVec.ofNat 8 (fld hi 20 8)) else none
  let (st, h, s) := s.request wid (BitVec.ofNat 4 (fld hi 16 4)) typ
  (BitVec.ofNat 32 (h + 65536 * st), s)

end Sys2Proof.Machine
end

