-- ==== Sys2Proof/Machine/Fabric.lean ====
section
/-! DEFINITION. The programmable fabric (11_fabric): PLLs, global clocks, port groups, lane transmission from user logic,
user registers, Pane RAM, and the pure functions of the MAC slice and of the span channels. -/

namespace Sys2Proof.Machine

-- clocks (R307–R309, R332, R333)

/-- The state of PLL q of die d. -/
def State.pll (s : State) (d q : Nat) : PllSt := Tbl.get {} (s.fab d).plls q
def State.setPll (s : State) (d q : Nat) (v : PllSt) : State :=
  s.setFab d { s.fab d with plls := Tbl.set {} (s.fab d).plls q v }

/-- Settings of a PLL. -/
def State.pllM (s : State) (d q : Nat) : Nat := s.rf .fpll [d, q, 0] 0 8
def State.pllD (s : State) (d q : Nat) : Nat := s.rf .fpll [d, q, 0] 8 4
def State.pllEn (s : State) (d q : Nat) : Bool := s.rb .fpll [d, q, 0] 12
/-- Divider of output k; the field's 0 stands for 128 (a reading of the model). -/
def outDiv (w1 : Word) (k : Nat) : Nat := if fld w1 (8 * k) 7 = 0 then 128 else fld w1 (8 * k) 7
def State.pllO (s : State) (d q k : Nat) : Nat := outDiv (s.rd .fpll [d, q, 1]) k

/-- The largest PLL output of a part, in Hz, by grade and profile (R308). -/
def gcMaxHz (grade2 : Bool) (profile : Nat) : Nat :=
  match profile, grade2 with
  | 0, true => 1050000000
  | 0, false => 900000000
  | 1, true => 800000000
  | 1, false => 700000000
  | _, true => 600000000
  | _, false => 520000000

/-- REFCLK × m / d lies in 4.0–8.0 GHz, with m in 8–255 and d in 1–8 (R307, R332). -/
def vcoOk (ref m d : Nat) : Bool :=
  decide (8 ≤ m ∧ m ≤ 255 ∧ 1 ≤ d ∧ d ≤ 8 ∧ 4000000000 * d ≤ ref * m ∧ ref * m ≤ 8000000000 * d)

/-- An output's frequency is at most a limit (R308). -/
def outOk (ref m d o limit : Nat) : Bool := decide (ref * m ≤ limit * d * o)

/-- Nominal frequency in Hz of a PLL output, or of half of it while it is shed (R307, R309). -/
def State.outHz (s : State) (d q k : Nat) : Nat :=
  let o := s.pllO d q k
  refHz s.clk.refsel.toNat * s.pllM d q / (s.pllD d q * (if bitOf (s.pll d q).shedActive k then 2 * o else o))

/-- Source of global clock g: PLL and output. -/
def State.gcSrc (s : State) (d g : Nat) : Nat := s.rf .gcSel [d, g] 0 4
def State.gcEn (s : State) (d g : Nat) : Bool := s.rb .gcSel [d, g] 4

/-- A PLL output (PLL src / 4, output src mod 4) carries a clock. -/
def State.srcRuns (s : State) (d src : Nat) : Bool :=
  s.on (domDie d (src / 4)) && (s.pll d (src / 4)).locked && !bitOf (s.pll d (src / 4)).overBits (src % 4)

/-- A global clock runs: enabled, with its source running and no switch pending. -/
def State.gcRuns (s : State) (d g : Nat) : Bool :=
  if g < 30 then s.gcEn d g && !bitOf (s.fab d).gcPending g && s.srcRuns d (s.gcSrc d g) else true

/-- An enabled global clock selects output k of PLL q, or any output. -/
def State.outSelected (s : State) (d q : Nat) (k : Option Nat) : Bool :=
  (List.range 30).any fun g => s.gcEn d g && s.gcSrc d g / 4 == q &&
    (match k with
      | some k => s.gcSrc d g % 4 == k
      | none => true)

/-- A fabric clock refusal (R331). -/
def State.fpllVio (s : State) (d : Nat) : State := s.vio (52 + d)

/-- A write of CLK_FPLL word 0 or 1 is within the limits of R307 and R308. -/
def State.fpllOk (s : State) (d q w : Nat) (v : Word) : Bool :=
  let ref := refHz s.clk.refsel.toNat
  let limit := gcMaxHz Config.grade2 s.pw.running.toNat
  let m := if w = 0 then fld v 0 8 else s.pllM d q
  let dv := if w = 0 then fld v 8 4 else s.pllD d q
  let w1 := if w = 1 then v else s.rd .fpll [d, q, 1]
  if w = 0 then vcoOk ref m dv && (List.range 4).all fun k => outOk ref m dv (outDiv w1 k) limit
  else (List.range 4).all fun k => fld v (8 * k) 7 = 0 || (decide (4 ≤ fld v (8 * k) 7) && outOk ref m dv (outDiv v k) limit)

/-- An enabled global clock selects what a write of CLK_FPLL would set: any output of the PLL for word 0, an output whose
divider changes for word 1 (R332). -/
def State.fpllHeld (s : State) (d q w : Nat) (v : Word) : Bool :=
  if w = 0 then s.outSelected d q none
  else (List.range 4).any fun k => s.outSelected d q (some k) && fld v (8 * k) 7 != s.rf .fpll [d, q, 1] (8 * k) 7

/-- A write of CLK_FPLL (R308, R332): refused while an enabled global clock selects what it would change. -/
def State.fpllWrite (s : State) (d q w : Nat) (v : Word) : State :=
  if 2 ≤ w then s
  else if s.fpllHeld d q w v || !s.fpllOk d q w v then s.fpllVio d
  else
    let same := w = 1 || (fld v 0 12 == s.rf .fpll [d, q, 0] 0 12 && bitOf v 12)
    let s := s.store .fpll [d, q, w] v
    let p := s.pll d q
    if same then s else s.setPll d q { p with locked := false, overBits := 0 }

/-- CLK_FPLL_WRITE (R332). -/
def execClkFpllWrite (r : Req) (die : Die) (pll : Fin 4) (word : Fin 3) (v : Word) (s : State) : Out :=
  .next (if s.live (domBRG die.val) then s.guarded r fun s => s.fpllWrite die.val pll.val word.val v else s)

/-- PLL_LOCK (R307): an enabled PLL locks; its quadrant must be on. -/
def execPllLock (die : Die) (pll : Fin 4) (s : State) : Out :=
  let d := die.val
  .next (if s.on (domDie d pll.val) && s.pllEn d pll.val && !s.clk.holding then
    s.setPll d pll.val { s.pll d pll.val with locked := true }
  else s)

/-- A write of CLK_GC_SEL (R333, R402): a switch of a running clock is pending until it is done. -/
def State.gcSelWrite (s : State) (d g : Nat) (v : Word) : State :=
  let src := fld v 0 4
  let f := s.fab d
  let change := s.gcEn d g && bitOf v 4 && src != s.gcSrc d g
  if !(s.pll d (src / 4)).locked || (bitOf f.gcPending g && src != s.gcSrc d g) then s.fpllVio d
  else
    let old := s.gcSrc d g
    let s := s.store .gcSel [d, g] v
    if change then s.setFab d { f with gcPending := setBit f.gcPending g true, gcOld := Tbl.set 0 f.gcOld g old } else s

/-- CLK_GC_SEL_WRITE (R333). -/
def execClkGcSelWrite (r : Req) (die : Die) (gc : Fin 30) (v : Word) (s : State) : Out :=
  .next (if s.live (domBRG die.val) then s.guarded r fun s => s.gcSelWrite die.val gc.val v else s)

/-- The quadrants that hold the ports of a group (R317, R333). -/
def groupQuads (p : Nat) : List Nat :=
  match p with
  | 2 => [0, 1, 2, 3]
  | 3 => [2]
  | 4 => [3]
  | _ => [0]

/-- The group is detached (R319): its attach bit is 0, or every quadrant that holds its ports is off. -/
def State.groupDetached (s : State) (d p : Nat) : Bool :=
  !s.rb .portSel [d, p] 5 || (groupQuads p).all fun q => !s.on (domDie d q)

/-- CLK_PORT_SEL reads back (R333). -/
def State.portSelWord (s : State) (d p : Nat) : Word := setBit (s.rd .portSel [d, p]) 6 (s.groupDetached d p)

/-- A write of CLK_PORT_SEL (R318, R319, R333): attaching takes effect only while the quadrant is on. -/
def State.portSelWrite (s : State) (d p : Nat) (v : Word) : State :=
  let src := fld v 0 5
  if 30 ≤ src || (src != s.rf .portSel [d, p] 0 5 && !s.groupDetached d p) then s.fpllVio d
  else
    let on := (groupQuads p).any fun q => s.on (domDie d q)
    let s := s.store .portSel [d, p] (BitVec.ofNat 32 (src + 32 * b2n (bitOf v 5 && on)))
    if p = 2 ∧ bitOf v 5 = true then
      let off := ((List.range 4).map fun q => if s.on (domDie d q) then 0 else 2 ^ q).sum
      s.setFab d { s.fab d with netpOff := (s.fab d).netpOff &&& BitVec.ofNat 4 off }
    else s

/-- CLK_PORT_SEL_WRITE (R318, R319). -/
def execClkPortSelWrite (r : Req) (die : Die) (group : Fin 6) (v : Word) (s : State) : Out :=
  .next (if s.live (domBRG die.val) then s.guarded r fun s => s.portSelWrite die.val group.val v else s)

/-- CLK_REGP_TIMEOUT (R324). -/
def State.regpTimeoutWrite (s : State) (d : Nat) (v : Word) : State :=
  if fld v 0 16 < 16 then s.vio (48 + d) else s.store .regpTimeout [d] v

/-- CLK_FPLL reads back (R332). -/
def State.fpllWord (s : State) (d q w : Nat) : Word :=
  let p := s.pll d q
  match w with
  | 0 => s.rd .fpll [d, q, 0] ||| BitVec.ofNat 32 (pack [(13, b2n p.locked), (14, p.overBits.toNat)])
  | 1 => s.rd .fpll [d, q, 1]
  | _ => BitVec.ofNat 32 (pack [(0, p.shedOk.toNat), (4, p.shedActive.toNat)])

/-- CLK_GC_SEL reads back (R333). -/
def State.gcSelWord (s : State) (d g : Nat) : Word := setBit (s.rd .gcSel [d, g]) 5 (bitOf (s.fab d).gcPending g)

-- span channels (R326–R329)

/-- The span clock in MHz (R326, R334). -/
def spanMHz (sel : Nat) : Nat :=
  match sel with
  | 0 => 500
  | 1 => 400
  | 2 => 250
  | _ => 200

/-- The fixed latency L in span cycles: 6 + ⌈20 ns × f⌉ (R327). -/
def spanLatency (mhz : Nat) : Nat := 6 + (20 * mhz + 999) / 1000

/-- What die d receives from die t's span signals. -/
def State.spanIn (s : State) (d t : Nat) : Option SpanSample := Tbl.get none (s.fab d).spanIn t

/-- Die d receives live values from die t (R328, R329). -/
def State.spanOk (s : State) (d t : Nat) : Bool :=
  match s.spanIn d t with
  | some x => x.live
  | none => false

/-- CLK_SPAN_STAT (R334). -/
def State.spanStatWord (s : State) (d : Nat) : Word :=
  let f := s.fab d
  BitVec.ofNat 32 (pack [(0, f.spanSel.toNat), (2, b2n (s.spanOk d 0)), (3, b2n (s.spanOk d 1)), (4, b2n (s.spanOk d 2)),
    (5, b2n (s.spanOk d 3)), (6, f.outUsed.toNat), (19, f.inUsed.toNat)])

/-- CLK_FAB_STAT (R331's register list). -/
def State.fabStatWord (s : State) (d : Nat) : Word :=
  BitVec.ofNat 32 (pack ((List.range 4).map fun q => (q, b2n (s.on (domDie d q)))))

-- the MAC slice's arithmetic (R314)

/-- The product of one operation, exact. -/
def MacIn.product (i : MacIn) : Int :=
  (if i.preEn then (if i.subD then i.d - i.a else i.d + i.a) else i.a).toInt * i.b.toInt

/-- P and ovf from an operation and its product. -/
def MacIn.sum (i : MacIn) (m : Int) (p : BitVec 64) : BitVec 64 × Bool :=
  let z := match i.z with
    | .zero => 0
    | .p => p.toInt
    | .c => i.c.toInt
    | .pcin => i.pcin.toInt
    | .pcinShift => (i.pcin.sshiftRight 18).toInt
  let r := z + (if i.subM then -m else m) + b2n i.cin
  (BitVec.ofInt 64 r, decide (r < -(2 ^ 63 : Int)) || decide ((2 ^ 63 : Int) ≤ r))

/-- P and ovf after one operation. -/
def macSlice (i : MacIn) (p : BitVec 64) : BitVec 64 × Bool := i.sum i.product p

-- lane transmission (R323)

/-- LTX_FRAME (R40, R323): a frame is taken whole into the lane's FIFO of 2 KiB, and goes out from there; one that breaks the
frame rules is dropped, and one that the lane does not transmit is discarded. While the FIFO has no room for it the port is
not ready, and nothing happens. -/
def execLtxFrame (die : Die) (bundle : Bundle) (lane : DLane) (payload : List Byte) (sofInside : Bool) (s : State) : Out :=
  let d := die.val
  let b := bundle.val
  let l : Ln := { d := d, b := b, n := lane.val }
  .next (if s.portAttached d (if b < 8 then 3 else 4) (if b < 8 then 2 else 3) then
    if sofInside || decide (1021 < payload.length) then s.vioSink d (10 + b)
    else
      let x := s.lane l.key
      if 2048 < (x.ltx.map List.length).sum + payload.length then s
      else (s.setLane l.key { x with ltx := x.ltx ++ [payload] }).ltxDrain l
  else s)

-- user registers (R324)

/-- A non-posted request to a fenced domain is answered DARK (R378). -/
def State.darkTo (s : State) (r : Req) (dom : Nat) : State := (s.countFor r.spec (cn 10 4) hub dom 1).answer r .dark

/-- The answer of a REGP access. -/
def State.regpReply (s : State) (q : RegpReq) (a : Reply) : State := if q.drop then s else s.answer q.r a

/-- User logic's answer goes back to the requester. -/
def State.regpAnswer (s : State) (q : RegpReq) (a : Word × Bool) : State :=
  s.regpReply q (if a.2 then .error else if q.write then .ok else .word a.1)

/-- Accesses are offered one at a time, in order, up to the first that user logic has not answered. -/
def State.regpServe (s : State) (d : Nat) : List RegpReq → State
  | [] => s.setFab d { s.fab d with regp := [], regpWait := 0 }
  | q :: t =>
    let s := s.emit (.regp (Fin.ofNat 4 d) q.addr q.write q.data q.r.cls q.r.rnum)
    match q.answer with
    | some a => (s.regpAnswer q a).regpServe d t
    | none => s.setFab d { s.fab d with regp := q :: t, regpWait := 0 }

/-- An access to a user register of die d reaches the shell (R324). -/
def State.regpRequest (s : State) (d : Nat) (q : RegpReq) : State :=
  if !s.live (domBRG d) || !s.bridgeUp d then s.darkTo q.r (domBRG d)
  else if !s.live (domDie d 0) then s.darkTo q.r (domDie d 0)
  else if !s.portAttached d 5 0 then s.answer q.r .error
  else if (s.fab d).regp = [] then s.regpServe d [q]
  else s.setFab d { s.fab d with regp := (s.fab d).regp ++ [q] }

/-- REGP_ACCESS (R324). -/
def execRegpAccess (r : Req) (die : Die) (addr : BitVec 23) (write : Bool) (data : Word) (answer : Option (Word × Bool))
    (s : State) : Out :=
  let q : RegpReq := { r := r, addr := addr, write := write, data := data, answer := answer }
  .next (if r.cls == .host && !s.hostReaches then s
    else if write && r.spec.isSome then s.guarded r id else s.regpRequest die.val q)

/-- The access with user logic is answered with an error, and its late answer is dropped (R324). -/
def State.regpLate (s : State) (d : Nat) : State :=
  match (s.fab d).regp with
  | [] => s
  | q :: t => ((s.countFor q.r.spec vioName hub (48 + d) 1).regpReply q .error).regpServe d t

/-- REGP_TIMEOUT (R324): the port cycles that user logic has left pass. -/
def execRegpTimeout (die : Die) (s : State) : Out := .next (s.regpLate die.val)

-- the places of Pane RAM words (R310–R313)

/-- The quadrant of a Pane RAM block: 480 blocks each, in order (a numbering of the model, log entry 170). -/
def paneQuad (block : Nat) : Nat := block / 480

def paneKey (block word : Nat) : Nat := block * 2048 + word

/-- Key of a block's own initial contents, which a partial image has set since the quadrant took its image. -/
def paneOver (block : Nat) : Nat := 16 + block

end Sys2Proof.Machine
end

