-- ==== Sys2Proof/Machine/Logic.lean ====
section
/-! DEFINITION. The design that a fabric die's frames configure, and what its clock edges do (11_fabric): logic elements
(R304–R306), MAC slices (R314, R315), span channels (R326–R329) and the level of LIRQ (R317). -/

namespace Sys2Proof.Machine

-- numbering: 2,100,000 logic elements per quadrant in order; slices by column × 288 + place in it (log entry 170)

/-- A signal of a die's design. -/
inductive Net where
  | const (b : Bool)
  /-- A logic element's LUT output, its second output where the LUT serves as two, its carry chain's sum and carry, and its
  flip-flops. -/
  | lut6 (e : Nat)
  | lut5 (e : Nat)
  | sum (e : Nat)
  | carry (e : Nat)
  | ff (e : Nat) (second : Bool)
  /-- A bit of a MAC slice's P, and its ovf. -/
  | mac (m bit : Nat)
  | macOvf (m : Nat)
  /-- A span signal of a die (R326). -/
  | span (d : Fin 4) (n : Nat)
  /-- A signal that a Pane RAM block or a port shell of a quadrant drives. -/
  | outer (q : Fin 4) (n : Nat)
  deriving DecidableEq, Repr, Inhabited

/-- What a memory-capable element acts as (R305). -/
inductive ElemForm where
  | logic | ram | shift
  deriving DecidableEq, Repr, Inhabited

/-- A flip-flop's input, its reset value, and whether its reset is asynchronous (R305). -/
structure FfCfg where
  input : Net
  init : Bool
  async : Bool
  deriving DecidableEq, Repr, Inhabited

/-- A logic element of a design (R305): its LUT's contents, six inputs, whether it serves as two 5-input LUTs, the element that
its carry chain comes from, its flip-flops, and a RAM's or shift register's data and write enable. -/
structure ElemCfg where
  number : Nat
  form : ElemForm
  lut : BitVec 64
  pins : List Net
  split : Bool
  below : Option Nat
  ff0 : FfCfg
  ff1 : FfCfg
  data : Net
  write : Net
  deriving DecidableEq, Repr, Inhabited

/-- The clock, the clock enable and the reset of a tile's flip-flops (R305). -/
structure TileCfg where
  clock : Nat
  enable : Net
  reset : Net
  deriving DecidableEq, Repr, Inhabited

/-- A MAC slice of a design (R314, R315): its clock, its inputs from bit 0 on, its choices, and the registers in use. -/
structure MacCfg where
  number : Nat
  clock : Nat
  a : List Net
  b : List Net
  c : List Net
  d : List Net
  preEn : Bool
  subD : Net
  subM : Net
  cin : Net
  z : List Net
  useIn : Bool
  useM : Bool
  useP : Bool
  deriving DecidableEq, Repr, Inhabited

/-- A span signal (R326, R329): what its source logic drives, the quadrant that holds it, and its dark value. -/
structure SpanCfg where
  net : Net
  quad : Fin 4
  dark : Bool
  deriving DecidableEq, Repr, Inhabited

/-- A die's design. -/
structure Design where
  elems : List ElemCfg := []
  tiles : List (Nat × TileCfg) := []
  macs : List MacCfg := []
  span : List SpanCfg := []
  lirq : Net := .const false
  deriving DecidableEq, Repr, Inhabited

/-- The design that the frames of the configuration memory make on a die: how frames code it the manual does not give. -/
opaque Config.design : Tbl Frame → Fin 4 → Design

/-- The level of a signal that hardened blocks drive into a quadrant's logic, or of one that a loop without a register leaves
open, at one evaluation (log entry 1): by its number, die and signal. -/
opaque Config.fabricSignal : Nat → Nat → Net → Bool

/-- The quadrant of a logic element, of its tile, and of a MAC slice (R304, R306). -/
def elemQuad (e : Nat) : Nat := e / 2100000 % 4
def sliceQuad (m : Nat) : Nat := m / 288 / 8 % 2 + 2 * (m % 288 / 144)

/-- A quarter of the elements are memory-capable (R304). -/
def memCapable (e : Nat) : Bool := e % 4 == 0

/-- The quadrant that a signal comes from; one of the span channels comes from none. -/
def Net.quad (n : Net) : Option Nat :=
  match n with
  | .lut6 e | .lut5 e | .sum e | .carry e | .ff e _ => some (elemQuad e)
  | .mac m _ | .macOvf m => some (sliceQuad m)
  | .outer q _ => some q.val
  | .const _ | .span _ _ => none

/-- What the evaluation of a die's signals reads. -/
structure FabView where
  d : Nat
  fab : Fabric
  design : Design
  /-- The designs of the other dies, for their span signals' dark values. -/
  others : List Design
  quadOn : BitVec 4
  /-- The number of the evaluation. -/
  number : Nat

def FabView.elemCfg (v : FabView) (e : Nat) : Option ElemCfg := v.design.elems.find? fun c => c.number == e
def FabView.macCfg (v : FabView) (m : Nat) : Option MacCfg := v.design.macs.find? fun c => c.number == m

/-- A logic element as it stands: as its image set it where no edge has changed it. -/
def FabView.elem (v : FabView) (c : ElemCfg) : ElemSt :=
  (Tbl.get none v.fab.elems c.number).getD { ff0 := c.ff0.init, ff1 := c.ff1.init, lut := c.lut }

/-- A MAC slice as it stands. -/
def FabView.mac (v : FabView) (m : Nat) : MacSt := Tbl.get {} v.fab.macs m

/-- An element acts as it is configured only where it is capable of it (R305). -/
def ElemCfg.role (c : ElemCfg) : ElemForm := if memCapable c.number then c.form else .logic

/-- The tile of an element. -/
def FabView.tile (v : FabView) (e : Nat) : Option TileCfg := (v.design.tiles.find? fun t => t.1 == e / 16).map fun t => t.2

/-- The number that the levels of signals spell, bit 0 first. -/
def numOf (f : Net → Bool) (l : List Net) : Nat := pack (l.zipIdx.map fun x => (x.2, b2n (f x.1)))

/-- What z selects, by the number that its signals spell. -/
def macZ (n : Nat) : MacZ :=
  match n with
  | 0 => .zero
  | 1 => .p
  | 2 => .c
  | 3 => .pcin
  | _ => .pcinShift

/-- The operation that a slice's signals ask for. -/
def MacCfg.ask (c : MacCfg) (f : Net → Bool) : MacIn :=
  { a := BitVec.ofNat 24 (numOf f (c.a.take 24)), b := BitVec.ofNat 18 (numOf f (c.b.take 18)),
    c := BitVec.ofNat 64 (numOf f (c.c.take 64)), d := BitVec.ofNat 24 (numOf f (c.d.take 24)), preEn := c.preEn,
    subD := f c.subD, subM := f c.subM, cin := f c.cin, z := macZ (numOf f (c.z.take 3)) }

/-- PCIN of a slice: P of the one below it in its column; a cascade does not cross a quadrant boundary (R306, R314). -/
def FabView.pcin (v : FabView) (m : Nat) : BitVec 64 := if m % 144 = 0 then 0 else (v.mac (m - 1)).p

/-- P and ovf that a slice computes now, from its input register and its multiplier register where it uses them (R315). -/
def FabView.macNow (v : FabView) (c : MacCfg) (f : Net → Bool) : BitVec 64 × Bool :=
  let q := v.mac c.number
  let i := if c.useIn then q.input else c.ask f
  let (op, m) := if c.useM then (q.op, q.m) else (i, i.product)
  { op with pcin := v.pcin c.number }.sum m q.p

/-- The level of a signal (R305, R306): from an off quadrant it is clamped to 0, and a carry chain does not cross a quadrant
boundary. `fuel` bounds the path without a register. -/
def FabView.level (v : FabView) : Nat → Net → Bool
  | 0, n => Config.fabricSignal v.number v.d n
  | fuel + 1, n =>
    if (match n.quad with
      | some q => !bitOf v.quadOn q
      | none => false) then false
    else
      let half (c : ElemCfg) (upper : Bool) : Bool :=
        bitOf (v.elem c).lut (numOf (v.level fuel) (c.pins.take 5) + (if upper then 32 else 0))
      let out (c : ElemCfg) : Bool :=
        match c.role with
        | .shift => half c false
        | .ram => half c (v.level fuel (c.pins.getD 5 (.const false)))
        | .logic => half c (c.split || v.level fuel (c.pins.getD 5 (.const false)))
      let chain (c : ElemCfg) : Bool :=
        match c.below with
        | some b => elemQuad b == elemQuad c.number && v.level fuel (.carry b)
        | none => false
      match n with
      | .const b => b
      | .lut6 e => (v.elemCfg e).any out
      | .lut5 e => (v.elemCfg e).any fun c => half c false
      | .sum e => (v.elemCfg e).any fun c => out c != chain c
      | .carry e => (v.elemCfg e).any fun c => if out c then chain c else half c false
      | .ff e second => (v.elemCfg e).any fun c =>
        let k := if second then c.ff1 else c.ff0
        if k.async && (v.tile e).any fun t => v.level fuel t.reset then k.init
        else if second then (v.elem c).ff1 else (v.elem c).ff0
      | .mac m bit => (v.macCfg m).any fun c =>
        bitOf (if c.useP then (v.mac m).p else (v.macNow c (v.level fuel)).1) bit
      | .macOvf m => (v.macCfg m).any fun c =>
        if c.useP then (v.mac m).ovf else (v.macNow c (v.level fuel)).2
      | .span d k =>
        let dark := ((v.others.getD d.val {}).span.getD k default).dark
        match Tbl.get none v.fab.spanIn d.val with
        | some x => x.values.getD k dark
        | none => dark
      | .outer q k => Config.fabricSignal v.number v.d (.outer q k)

/-- The longest path without a register that a design can have. -/
def Design.depth (x : Design) : Nat := 4 * (x.elems.length + x.macs.length) + 4

/-- The level of a signal. -/
def FabView.value (v : FabView) (n : Net) : Bool := v.level v.design.depth n

/-- A flip-flop after an edge of its tile's clock (R305). -/
def FabView.ffNext (v : FabView) (t : TileCfg) (k : FfCfg) (old : Bool) : Bool :=
  if v.value t.reset then k.init
  else if v.value t.enable then v.value k.input
  else old

/-- What a LUT holds after an edge: a RAM takes its data at its address, a shift register shifts it in (R305). -/
def FabView.lutNext (v : FabView) (c : ElemCfg) (old : BitVec 64) : BitVec 64 :=
  let f := v.value
  if f c.write then
    match c.role with
    | .logic => old
    | .ram => setBit old (numOf f (c.pins.take 6)) (f c.data)
    | .shift => BitVec.ofNat 64 ((2 * old.toNat + b2n (f c.data)) % 2 ^ 32)
  else old

/-- A logic element after an edge of its tile's clock. -/
def FabView.elemNext (v : FabView) (c : ElemCfg) (t : TileCfg) : ElemSt :=
  let q := v.elem c
  { ff0 := v.ffNext t c.ff0 q.ff0, ff1 := v.ffNext t c.ff1 q.ff1, lut := v.lutNext c q.lut }

/-- A MAC slice after an edge of its clock: its registers take what stands before them (R314, R315). -/
def FabView.macNext (v : FabView) (c : MacCfg) : MacSt :=
  let q := v.mac c.number
  let f := v.value
  let i := if c.useIn then q.input else c.ask f
  let (p, o) := v.macNow c f
  { input := c.ask f, op := i, m := i.product, p := p, ovf := o }

/-- A quadrant's fabric runs: it is on, not isolated (R424), and out of reset (R429). -/
def State.quadRuns (s : State) (d q : Nat) : Bool :=
  s.on (domDie d q) && !bitOf s.pw.isolated (domDie d q) && !bitOf (s.fab d).held q

/-- What the evaluation of die d's signals reads now. -/
def State.fabView (s : State) (d : Nat) : FabView :=
  { d := d, fab := s.fab d, design := Config.design s.cfg.frames (Fin.ofNat 4 d),
    others := (List.range 4).map fun t => Config.design s.cfg.frames (Fin.ofNat 4 t),
    quadOn := BitVec.ofNat 4 (pack ((List.range 4).map fun q => (q, b2n (s.quadRuns d q)))), number := s.freeCtr }

/-- Logic elements and MAC slices of the clock's quadrants that are on, after an edge of global clock g. -/
def FabView.edge (v : FabView) (g : Nat) : Fabric :=
  let elems := v.design.elems.foldl (fun (t : Tbl (Option ElemSt)) c =>
    match v.tile c.number with
    | some k => if k.clock = g ∧ bitOf v.quadOn (elemQuad c.number) = true then
        Tbl.set none t c.number (some (v.elemNext c k)) else t
    | none => t) v.fab.elems
  let macs := v.design.macs.foldl (fun (t : Tbl MacSt) c =>
    if c.clock = g ∧ bitOf v.quadOn (sliceQuad c.number) = true then Tbl.set {} t c.number (v.macNext c) else t) v.fab.macs
  { v.fab with elems := elems, macs := macs }

/-- n edges of global clock g of die d. -/
def State.gcEdges (s : State) (d g : Nat) : Nat → State
  | 0 => s
  | n + 1 =>
    let f := (s.fabView d).edge g
    (({ s with freeCtr := s.freeCtr + 1 }).setFab d f).gcEdges d g n

/-- Frequency in Hz of the span clock (R326). -/
def State.spanHz (s : State) : Nat := spanMHz (s.fab 0).spanSel.toNat * 1000000

/-- Frequency in Hz at which global clock g of die d runs now (R307). -/
def State.gcHz (s : State) (d g : Nat) : Nat :=
  if s.clk.holding || !s.gcRuns d g then 0
  else if g = 30 then s.tbHz
  else if g = 31 then s.spanHz
  else s.outHz d (s.gcSrc d g / 4) (s.gcSrc d g % 4)

/-- Edges of a clock of hz in one period of TBCLK, and what is left over. -/
def State.edges (s : State) (hz rest : Nat) : Nat × Nat := ((hz + rest) / max 1 s.tbHz, (hz + rest) % max 1 s.tbHz)

/-- A period of TBCLK of a die's global clocks, each by itself (log entry 171). -/
def State.gcTick (s : State) (d : Nat) : State :=
  if (List.range 4).any fun q => s.quadRuns d q then
    upTo (fun g s =>
      let (n, r) := s.edges (s.gcHz d g) (Tbl.get 0 (s.fab d).gcRest g)
      (s.setFab d { s.fab d with gcRest := Tbl.set 0 (s.fab d).gcRest g r }).gcEdges d g n) 32 s
  else s

-- span channels (R326–R329)

/-- A die can send live values: neither eclipsed, reset nor without its bridge (R329). -/
def State.spanSends (s : State) (t : Nat) : Bool := s.live (domBRG t) && s.bridgeUp t && s.dieState t == 2

/-- The quadrants of a die whose signals are live at this edge: one that comes back joins at a multiple of 64 (R329). -/
def State.spanQuads (s : State) (t : Nat) : BitVec 4 :=
  BitVec.ofNat 4 (pack ((List.range 4).map fun q =>
    (q, b2n (s.spanSends t && s.quadRuns t q && (bitOf (s.fab t).spanLive q || s.clk.span % 64 == 0)))))

/-- A die samples its span signals, or loses the sample to its live retrain (R327–R329). -/
def State.spanSample (s : State) (t : Nat) : State :=
  let f := s.fab t
  let live := s.spanQuads t
  let v := s.fabView t
  let x : SpanSample := {
    live := live != 0,
    values := v.design.span.map fun c => if bitOf live c.quad.val then v.value c.net else c.dark }
  let x := if (s.bridge t).state = 8 then none else some x
  s.setFab t { f with spanLive := live, spanPipe := (x :: f.spanPipe).take 17 }

/-- What die t's samples deliver in die d, L cycles after them; a live retrain of either holds the values (R327, R328). -/
def State.spanArrive (s : State) (d t : Nat) : State :=
  let f := s.fab d
  let old := Tbl.get none f.spanIn t
  let held := old.map fun x => { x with live := false }
  let x :=
    if s.live (domBRG d) = false then none
    else if (s.bridge d).state = 8 ∨ (s.bridge t).state = 8 then held
    else match (s.fab t).spanPipe[spanLatency (spanMHz (s.fab 0).spanSel.toNat)]? with
      | some (some x) => some x
      | some none => held
      | none => none
  s.setFab d { f with spanIn := Tbl.set none f.spanIn t x }

/-- n edges of the span clock. -/
def State.spanEdges (s : State) : Nat → State
  | 0 => s
  | n + 1 =>
    let s := { s with freeCtr := s.freeCtr + 1, clk := { s.clk with span := s.clk.span + 1 } }
    let s := upTo (fun t s => s.spanSample t) 4 s
    (upTo (fun k s => s.spanArrive (k / 4) (k % 4)) 16 s).spanEdges n

/-- The span clock's edges of one period of TBCLK, and the state after them. -/
def State.spanTick (s : State) : Nat × State :=
  let (n, r) := s.edges (if s.clk.holding || !s.on domSPN then 0 else s.spanHz) s.clk.spanRest
  (n, ({ s with clk := { s.clk with spanRest := r } }).spanEdges n)

-- port clocks (R318)

/-- The cycles of a port group in one period of TBCLK. -/
def State.portTick (s : State) (d p : Nat) : Nat × State :=
  let (n, r) := s.edges (s.gcHz d (s.rf .portSel [d, p] 0 5)) (Tbl.get 0 (s.fab d).portRest p)
  (n, s.setFab d { s.fab d with portRest := Tbl.set 0 (s.fab d).portRest p r })

/-- LIRQ's level raises its line of the Lamp (R244, R317). -/
def State.lirqCycle (s : State) (d : Nat) : State :=
  let s := { s with freeCtr := s.freeCtr + 1 }
  let v := s.fabView d
  let x := s.portAttached d 5 0 && v.value v.design.lirq
  let s := s.setFab d { s.fab d with lirq := x }
  if x then s.raiseLine (16 + d) else s

/-- The clock region, by column and row, of a logic element and of a MAC slice (R304, R306; log entry 170). -/
def elemRegion (e : Nat) : Nat × Nat :=
  let q := elemQuad e
  let i := e % 2100000 / 175000
  (q % 2 * 4 + i % 4, q / 2 * 3 + i / 4)
def sliceRegion (m : Nat) : Nat × Nat := (m / 576, m % 288 / 48)

/-- Elements and slices of the clock regions that `here` names stand as the image sets them. -/
def Fabric.restart (f : Fabric) (here : Nat × Nat → Bool) : Fabric :=
  { f with
    elems := f.elems.filter fun e => !here (elemRegion e.1),
    macs := f.macs.filter fun m => !here (sliceRegion m.1) }

/-- The quadrant of a clock region (R306). -/
def regionQuad (r : Nat × Nat) : Nat := r.1 / 4 + 2 * (r.2 / 3)

end Sys2Proof.Machine
end

