-- ==== Sys2Proof/Machine/DbmCmds.lean ====
section
/-! DEFINITION. The deep buffer manager's register commands (06_deep_buffer): the region table, the ring rates and the
event store, with the network flips that they ask for (R375). -/

namespace Sys2Proof.Machine

/-- A write of a region entry's word: the table's own rules (R146), then the flip that a changed table asks for (R375). -/
def State.dbmRegionWrite (s : State) (r w : Nat) (v : Word) : State :=
  let t := s.regionWrite r w v
  if t.dbm.regions = s.dbm.regions then t else (t.flipRequest t.spineNow).2

/-- DBM_REGION_WRITE (R146, R177). -/
def execDbmRegionWrite (r : Req) (entry : Fin 32) (word : Fin 4) (v : Word) (s : State) : Out :=
  .next (if s.live domSPN then s.guarded r fun s => s.dbmRegionWrite entry.val word.val v else s)

/-- A rate of a die's rings, in MB/s. -/
def State.setRate (s : State) (d : Nat) (hit : Bool) (v : Word) : State :=
  let q := s.rings d
  s.setRings d (if hit then { q with hitRate := v.setWidth 16 } else { q with rawRate := v })

/-- A write of DBM_RAW + 0x00 or + 0x04 (R149, R153, R172, R176): refused whole beyond 192 slots, or with its flip; a shorter
retention lowers the Glint deadline (R129). -/
def State.rateWrite (s : State) (d : Nat) (hit : Bool) (v : Word) : State :=
  if !(s.setRate d hit v).resOk then s.vio 63
  else (s.withFlip fun s => s.setRate d hit v).clampDeadline

/-- DBM_RAW_WRITE (R149, R172, R176). -/
def execDbmRawWrite (r : Req) (die : Die) (hit : Bool) (v : Word) (s : State) : Out :=
  .next (if s.live domSPN then s.guarded r fun s => s.rateWrite die.val hit v else s)

/-- A write of DBM_COPY_RATE (R172). -/
def State.copyRateWrite (s : State) (v : Word) : State :=
  if !(s.store .dbmCopyRate [] v).resOk then s.vio 63 else s.withFlip fun s => s.store .dbmCopyRate [] v

/-- A write of DBM_EVT_CTRL (R175): an item window of more than 1,024 KiB is refused, and a change of its size while the pool
is in use. -/
def State.evtCtrlWrite (s : State) (v : Word) : State :=
  if 1024 < fld v 0 11 ∨ (fld v 0 11 ≠ s.rf .dbmEvtCtrl [] 0 11 ∧ s.glintBusy = true) then s.vio 63
  else s.store .dbmEvtCtrl [] v

/-- EVT_RELEASE (R158): DBM_EVT_RELEASE is written. -/
def execEvtRelease (r : Req) (v : Word) (s : State) : Out :=
  .next (if s.live domSPN then s.guarded r fun s => s.evtRelease v else s)

end Sys2Proof.Machine
end

