-- ==== Sys2Proof/Machine/RegAt.lean ====
section
/-! DEFINITION. From an offset of the register space to the register that lies there (R586–R590). -/

namespace Sys2Proof.Machine

/-- Registers of the map, part 0. -/
def regNames0 : List RegName := [
  .hifIdcode, .hifPart, .hifGstat, .brgHub, .brgPkg, .gpiStat, .gpiCtrl, .gpiIn, .gpiInGb, .gpiEdge, .gpiPin,
  .hifCmdGo, .hifCmdStat, .hifCmdTime, .hifCmdArg, .hifWinBase, .hifMbxPend, .hifFltIen, .hifLink, .clkStat,
  .clkMonCtrl, .clkMonRef, .clkMonLan, .clkMonCorr, .clkLastCause, .clkLastTrip, .clkTb, .clkTbArm,
  .clkTbLoad, .clkTbNow, .clkPcieCtrl, .clkOut, .clkMuxStat, .clkMuxForce, .clkPres, .rstStat, .rstCause,
  .rstBoot, .rstDieReq, .rstDomReq]

/-- Registers of the map, part 1. -/
def regNames1 : List RegName := [
  .rstCoreReq, .rstMark, .wdgCtrl, .wdgT1, .wdgT2, .wdgGrace, .wdgKick, .wdgLeft, .pmgCtrl, .pmgStat,
  .pmgLimit, .pmgPower, .pmgTempMax, .pmgDomReq, .pmgDomOn, .pmgEclLast, .pmgSensor, .pmgDomPwr, .pmgCurve,
  .fltCtrl, .fltStat, .fltLogProd, .fltLogCons, .fltFirstV, .fltSeq, .fltNme, .fltInjSel, .fltInjCtrl,
  .fltInjPat, .fltInjAddr, .fltAonRec, .fltFirst, .fltLast, .cntVio, .cntVioAll, .cntVioFabSink, .cntDir,
  .cntPkgNode, .cntHubLeaf, .mbxView]

/-- Registers of the map, part 2. -/
def regNames2 : List RegName := [
  .mbxCfg, .lckLock, .lckStat, .lckWait, .nocCtrl, .nocEpoch, .nocInflight, .nocFenced, .nocFlow,
  .nocSpineRes, .dbmStatus, .dbmRaw, .dbmCopyRate, .dbmEvtCtrl, .dbmEvtRelease, .dbmEvtFree, .dbmEvtOldest,
  .dbmEvtNewest, .dbmScanBack, .dbmMaintRate, .dbmNearRes, .dbmFarRes, .dbmRegion, .dbmScrubSum, .dbmCmdDone,
  .dbmRepair, .dbmFarCfg, .sreCtrl, .sreAlarm, .sreKeyCtrl, .sreKeyState, .sreKeyDirty, .sreFlush,
  .sreWcount, .sreEntry, .sreFail, .gltCtrl, .gltDeadline, .gltLimit, .gltLacc]

/-- Registers of the map, part 3. -/
def regNames3 : List RegName := [
  .gltMargin, .gltTxMask, .gltStatus, .gltDecide, .gltStgLo, .gltStgHi, .gltStgGo, .gltSlot, .gltTypeMap,
  .ringBase, .ringCtrl, .ringWb, .ringProd, .ringCons, .ringStat, .dbgStat, .dbgLevel, .dbgUnlock, .dbgChal,
  .dbgResp, .dbgSerial, .dbgWinAddr, .dbgWinData, .dbgWinStat, .dbgLckForce, .dbgDrCtrl, .dbgHg,
  .dbgCoreCtrl, .dbgCoreStat, .dbgCoreReg, .dbgCoreD, .dbgMemAddr, .dbgMemData, .dbgVt, .dbgVtSelf, .mrgCtrl,
  .mrgOrigin, .mrgWidth, .mrgPen, .mrgLate]

/-- Registers of the map, part 4. -/
def regNames4 : List RegName := [
  .mrgWait, .mrgStat, .mrgLastId, .mrgFirstId, .cfgStat, .cfgLast, .cfgImgId, .cfgKeyStat, .cfgTpCtrl,
  .cfgTpStat, .cfgBbramKey, .cfgBbramCtrl, .cfgFwOfs, .cfgFwData, .cfgPreg, .cfgPregId, .mirCtrl, .mirStat,
  .mirLast, .mirPassUs, .msixTable, .msixPba, .dieId, .dieStat, .laneBctrl, .laneBstat, .laneRawComma,
  .laneRawAnchor, .laneState, .laneEq, .laneAnchorOfs, .laneAnchorTs, .laneAnchorIdx, .laneEqOvr, .lsmCtrl,
  .lsmTbl, .laneEqSel, .cfeId, .cfeCtrl, .cfeFmt]

/-- Registers of the map, part 5. -/
def regNames5 : List RegName := [
  .cfeGain, .cfeStep, .cfeTap, .cfeLaneCfg, .cfePeriod, .cfeTol, .cfeDrift, .cfeNextIdx, .chCfg, .chBclamp,
  .chKclamp, .chHyst, .chRate, .chLen, .chTofs, .chSplit, .chBase, .chNoise, .chK, .chThr, .chStat, .wsuCtrl,
  .wsuWm, .wsuOldest, .wsuIdle, .wsuLvl, .wsuOrigin, .wsuWidth, .wsuPen, .wsuLate, .wsuGroup, .schCtrl,
  .schStat, .schList, .schCoreClass, .schCringBase, .schCringCtl, .schCringProd, .schCringCons,
  .schCringHeld]

/-- Registers of the map, part 6. -/
def regNames6 : List RegName := [
  .schGltTmpl, .schWinTmpl, .schMbxTmpl, .schTmplCtrl, .schPost, .cluCtrl, .cluStat, .cluLdSrc, .cluLdCtrl,
  .cluLdSpan, .cluLdStat, .cluCore, .brgCtrl, .brgStat, .brgLast, .brgSpare, .brgWireSel, .brgWireStat,
  .nocDieStat, .nocBrgRes, .fpll, .gcSel, .portSel, .spanStat, .regpTimeout, .fabStat, .cntDieLeaf,
  .cntDieNode, .userFabric]

/-- Every register of the map. -/
def regNames : List RegName := regNames0 ++ regNames1 ++ regNames2 ++ regNames3 ++ regNames4 ++ regNames5 ++ regNames6

/-- The indexes that a distance from a register's base spells, where it spells any. -/
def indexOf : List (Nat × Nat) → Nat → Option (List Nat)
  | [], 0 => some []
  | [], _ => none
  | (stride, n) :: t, k =>
    if k / stride < n then (indexOf t (k % stride)).map (fun ix => k / stride :: ix) else none

/-- The index list of a register word at an offset. -/
def RegName.at? (n : RegName) (off : Nat) : Option (List Nat) :=
  if n.row.base ≤ off then indexOf n.row.dims (off - n.row.base) else none

/-- The register word at an offset, where the map has one. -/
def regAt (off : Nat) : Option (RegName × List Nat) :=
  regNames.findSome? fun n => (n.at? off).map fun ix => (n, ix)

end Sys2Proof.Machine
end

