-- ==== Sys2Proof/Machine/RegPut.lean ====
section
/-! DEFINITION. What a write of a register word does in the blocks of the fabric dies and of the hub's data path
(02_lanes to 11_fabric, 13_network): the field tables' rules, apart from who may write. -/

namespace Sys2Proof.Machine

/-- The lane that indexes name. -/
def lnOf (d b l : Nat) : Ln := { d := d, b := b, n := l }

/-- A write of a word of the user flow list (R374, R377, R385): the active copy is read-only, and the Shade is refused while
the old epoch is in use. -/
def State.nocFlowWrite (s : State) (e f w : Nat) (v : Word) : State :=
  if e = b2n s.noc.active then s
  else if s.oldPackets != 0 then s.vio 73
  else s.store .nocFlow [e, f, w] v

/-- A request for a flip (R375, R376). -/
def State.nocFlipWrite (s : State) (v : Word) : State := if bitOf v 0 then (s.flipRequest s.spineNow).2 else s

/-- A write of SRE_KEY_CTRL (R197, R204). -/
def State.keyCtrlWrite (s : State) (r : Req) (v : Word) : State :=
  if sreWriter r = false then s.vio 67 else if fld v 4 2 = 1 then s.generate r (fld v 0 4) else s.vio 66

/-- A write of a staging register: its bank's, for the host and the Lamp only (R140). -/
def State.stgWrite (s : State) (r : Req) (hi : Bool) (v : Word) : State :=
  if r.cls = .host ∨ r.cls = .lamp then
    let b := s.stg r.cls
    s.setStg r.cls (if hi then (b.1, v &&& 0x1FFFFFFF) else (v, b.2))
  else s.vio 61

/-- Write-one-to-clear flags of the scheduler (R301). -/
def State.clearFull (s : State) (d l : Nat) : State :=
  s.setSched d { s.sched d with fullSeen := setBit (s.sched d).fullSeen l false }
def State.clearLost (s : State) (d k : Nat) : State := s.setCring d k { s.cring d k with lost := false }

/-- A word of the die windows is written; wide registers go through `putWide`. -/
def State.putDie (s : State) (r : Req) (n : RegName) (ix : List Nat) (v : Word) : State :=
  match n, ix with
  | .laneBctrl, [d, b] => s.bctrlWrite d b v
  | .laneEqOvr, [d, b, l] => s.eqOvrWrite (lnOf d b l) v
  | .lsmCtrl, [d] => if bitOf v 0 then s.lsmFlip d else s
  | .lsmTbl, [d, e, st, w] => s.lsmTblWrite d e st w v
  | .cfeFmt, [d, f, w] => s.cfeFmtWrite d f w v
  | .cfeTap, [d, t] => s.cfeTapWrite d t v
  | .cfeLaneCfg, [d, l] => s.cfeLaneCfgWrite d l v
  | .chCfg, [d, c] => s.chCfgWrite d c v
  | .chBclamp, [d, c] => s.chClampWrite .chBclamp d c v
  | .chKclamp, [d, c] => s.chClampWrite .chKclamp d c v
  | .chRate, [d, c] => s.chRateWrite d c v
  | .chBase, [d, c] => s.chLoopWrite d c fun x => { x with base := v }
  | .chNoise, [d, c] => s.chLoopWrite d c fun x => { x with noise := v }
  | .chK, [d, c] => s.chLoopWrite d c fun x => { x with k := v.setWidth 16 }
  | .schList, [d, l, 0] => s.schListWrite d l v
  | .schList, [d, l, 1] => if bitOf v 13 then s.clearFull d l else s
  | .schCringCtl, [d, k] => s.cringCtlWrite d k v
  | .schCringCons, [d, k] => s.cringCons d k v
  | .schCringHeld, [d, k] => if bitOf v 5 then s.clearLost d k else s
  | .schPost, [d, _, _] => s.vio (36 + d)
  | .cluCtrl, [d, c] => s.cluCtrlWrite (16 * d + c) v
  | .cluLdCtrl, [d, c] => s.loaderWrite r (16 * d + c) v
  | .fpll, [d, q, w] => s.fpllWrite d q w v
  | .gcSel, [d, g] => s.gcSelWrite d g v
  | .portSel, [d, p] => s.portSelWrite d p v
  | .regpTimeout, [d] => s.regpTimeoutWrite d v
  | n, ix => if n.mask ix = 0 then s else s.store n ix v

/-- A word of the hub's data-path blocks is written. -/
def State.putHub (s : State) (r : Req) (n : RegName) (ix : List Nat) (v : Word) : State :=
  match n, ix with
  | .mrgCtrl, [] => s.mrgCtrlWrite v
  | .mrgWidth, [] => s.mrgParamWrite .mrgWidth v
  | .mrgPen, [] => s.mrgParamWrite .mrgPen v
  | .mrgLate, [] => s.mrgParamWrite .mrgLate v
  | .mrgWait, [] => s.mrgParamWrite .mrgWait v
  | .gltCtrl, [] => s.gltCtrlWrite v
  | .gltDeadline, [] => s.gltDeadlineWrite v
  | .gltStatus, [] => if bitOf v 15 then { s with glint := { s.glint with clamped := false } } else s
  | .gltDecide, [] => s.decideWrite v
  | .gltStgLo, [] => s.stgWrite r false v
  | .gltStgHi, [] => s.stgWrite r true v
  | .gltStgGo, [] => if r.cls = .host ∨ r.cls = .lamp then s else s.vio 61
  | .dbmRaw, [d, 0] => s.rateWrite d false v
  | .dbmRaw, [d, 1] => s.rateWrite d true v
  | .dbmCopyRate, [] => s.copyRateWrite v
  | .dbmEvtRelease, [] => s.evtRelease v
  | .dbmEvtCtrl, [] => s.evtCtrlWrite v
  | .dbmRegion, [e, w] => s.dbmRegionWrite e w v
  | .sreCtrl, [] => if sreWriter r then s.store .sreCtrl [] v else s.vio 67
  | .sreAlarm, [] => if bitOf v 0 then s.alarmClear r else if sreWriter r then s else s.vio 67
  | .sreKeyCtrl, [] => s.keyCtrlWrite r v
  | .sreFlush, [] => s.flushStart r (v.setWidth 16)
  | .sreEntry, [e, 0] => s.sealEntryWrite r e v
  | .sreEntry, [e, 1] => s.rightsWrite r e v
  | .mbxView, [k, 0] => s.mbxPush r k v false
  | .mbxView, [k, 1] => s.mbxPush r k v true
  | .mbxView, [k, 4] => s.mbxAckWrite r k (v.setWidth 16)
  | .mbxView, [k, 6] => s.mbxIenWrite r k v
  | .mbxView, k :: _ => if ((s.mbx k).sideOf r.rnum).isSome then s else s.vio 69
  | .lckLock, [k] => s.lockWrite r k v
  | .nocCtrl, [] => if fld v 0 16 = 0 then s.vio 74 else s.store .nocCtrl [] v
  | .nocEpoch, [] => s.nocFlipWrite v
  | .nocFlow, [e, f, w] => s.nocFlowWrite e f w v
  | n, ix => if n.mask ix = 0 then s else s.store n ix v

/-- Both words of a register that follows R9 are written. -/
def State.putWide (s : State) (n : RegName) (ix : List Nat) (lo hi : Word) : State :=
  match n, ix with
  | .cfePeriod, [d, l] => s.cfePeriodWrite d l lo hi
  | .mrgOrigin, [] => s.mrgOriginWrite lo hi
  | .schCringBase, [d, k] => s.cringBaseWrite d k lo hi
  | n, ix => (s.store n (ix ++ [0]) lo).store n (ix ++ [1]) hi

end Sys2Proof.Machine
end

