-- ==== Sys2Proof/Machine/Settings.lean ====
section
/-! DEFINITION. The static settings that an image carries (17_configuration, R465): which registers each string may write, and
their writes in class CFG, which access codes do not bind. -/

namespace Sys2Proof.Machine

/-- The configuration controller as a requester. -/
def cfgReq : Req := { cls := .cfg, rnum := 0 }

/-- The registers that a die's string may write (R465); the span allocation is named by CLK_SPAN_STAT. -/
def dieTarget : RegName → Bool
  | .laneBctrl | .laneRawComma | .laneRawAnchor | .laneAnchorOfs => true
  | .cfeCtrl | .cfeFmt | .cfeGain | .cfeStep | .cfeTap | .cfeLaneCfg | .cfePeriod | .cfeTol => true
  | .chCfg | .chBclamp | .chKclamp | .chHyst | .chRate | .chLen | .chTofs | .chSplit | .chBase | .chNoise | .chK => true
  | .wsuIdle | .wsuGroup => true
  | .schList | .schCoreClass | .schCringBase | .schCringCtl | .schCringProd | .schCringCons | .schCringHeld => true
  | .schGltTmpl | .schWinTmpl | .schMbxTmpl | .schTmplCtrl => true
  | .fpll | .gcSel | .portSel | .regpTimeout | .spanStat => true
  | _ => false

/-- The registers that the hub string may write (R465); the span clock's choice is named by CLK_SPAN_STAT. -/
def hubTarget : RegName → List Nat → Bool
  | .dbmRegion, ix => ix.head? != some 0 && ix.head? != some 1
  | .sreEntry, ix => ix.head? != some 15
  | .mbxCfg, ix => ix != [0]
  | .nocFlow, _ | .gltTypeMap, _ | .cfgPreg, _ | .spanStat, _ => true
  | .mrgCtrl, _ | .mrgOrigin, _ | .mrgWidth, _ | .mrgPen, _ | .mrgLate, _ | .mrgWait, _ => true
  | _, _ => false

/-- A word of string k (a die, or 4 for the hub) lies at a target (R465). -/
def targetOk (k off : Nat) : Bool :=
  match regAt off with
  | some (n, ix) => if k < 4 then dieTarget n && ix.head? == some k else hubTarget n ix
  | none => false

/-- A word of a die's string is written. -/
def State.putDieSetting (s : State) (n : RegName) (ix : List Nat) (v : Word) : State :=
  match n, ix with
  | .fpll, [d, q, 2] => s.setPll d q { s.pll d q with shedOk := BitVec.ofNat 4 (fld v 0 4) }
  | .fpll, _ | .gcSel, _ | .portSel, _ | .regpTimeout, _ => s.store n ix v
  | .spanStat, [d] =>
    s.setFab d { s.fab d with outUsed := BitVec.ofNat 13 (fld v 6 13), inUsed := BitVec.ofNat 13 (fld v 19 13) }
  | .chBase, [d, c] => s.setChan (d * 1792 + c) { s.chan (d * 1792 + c) with base := v }
  | .chNoise, [d, c] => s.setChan (d * 1792 + c) { s.chan (d * 1792 + c) with noise := v }
  | .chK, [d, c] => s.setChan (d * 1792 + c) { s.chan (d * 1792 + c) with k := v.setWidth 16 }
  | .schList, [_, _, 1] => s
  | .schCringProd, _ | .schCringHeld, _ => s
  | n, ix => if n.row.wide then s.store n ix v else s.putDie cfgReq n ix v

/-- A word of the hub string is written. -/
def State.putHubSetting (s : State) (n : RegName) (ix : List Nat) (v : Word) : State :=
  match n, ix with
  | .dbmRegion, [e, w] => s.setRegion e ((s.region e).withWord w v)
  | .sreEntry, [e, 0] => s.setSealEntry e { s.sealEntry e with
      region := BitVec.ofNat 5 (fld v 0 5), key := BitVec.ofNat 4 (fld v 5 4), valid := bitOf v 9 }
  | .sreEntry, [e, _] => s.setSealEntry e { s.sealEntry e with rights := BitVec.ofNat 14 (fld v 0 12) }
  | .mbxCfg, [k] => s.setMbx k { s.mbx k with
      sideA := BitVec.ofNat 8 (fld v 0 8), sideB := BitVec.ofNat 8 (fld v 8 8), mode := bitOf v 16, valid := bitOf v 17 }
  | .nocFlow, [_, f, w] => (s.store .nocFlow [0, f, w] v).store .nocFlow [1, f, w] v
  | .cfgPreg, [k, w] =>
    let p := Tbl.get (0, 0) s.cfg.preg k
    let p := if w = 0 then (v &&& 0xFFFF, p.2) else (p.1, v &&& 0x3F)
    { s with cfg := { s.cfg with preg := Tbl.set (0, 0) s.cfg.preg k p } }
  | .spanStat, _ =>
    upTo (fun d s => s.setFab d { s.fab d with spanSel := BitVec.ofNat 2 (fld v 0 2) }) 4 s
  | .mrgCtrl, _ => s.store .mrgCtrl [] (v &&& 0xFFFFFFFE)
  | n, ix => s.store n ix v

/-- A die's string's words written in order. -/
def State.putSettings (s : State) : List (Nat × Word) → State
  | [] => s
  | (off, v) :: t =>
    (match regAt off with
      | some (n, ix) => s.putDieSetting n ix v
      | none => s).putSettings t

/-- The hub string's words written in order. -/
def State.putHubSettings (s : State) : List (Nat × Word) → State
  | [] => s
  | (off, v) :: t =>
    (match regAt off with
      | some (n, ix) => s.putHubSetting n ix v
      | none => s).putHubSettings t

/-- The tables that the hub string names are emptied before its words are written (R473). -/
def State.clearHubTables (s : State) (ws : List (Nat × Word)) : State :=
  let names := ws.filterMap fun e => (regAt e.1).map fun x => x.1
  let s := if names.contains .dbmRegion then { s with dbm := { s.dbm with regions := [] } } else s
  let s := if names.contains .sreEntry then { s with sre := { s.sre with entries := [] } } else s
  let s := if names.contains .mbxCfg then
      upTo (fun k s => if k = 0 then s
        else s.setMbx k { s.mbx k with sideA := 0, sideB := 0, mode := false, valid := false }) 128 s
    else s
  let s := if names.contains .nocFlow then s.coldRange (RegName.nocFlow.off [0, 0, 0]) (RegName.nocFlow.off [0, 0, 0] + 0x400)
    else s
  let s := if names.contains .gltTypeMap then
      s.coldRange (RegName.gltTypeMap.off [0]) (RegName.gltTypeMap.off [0] + 0x400)
    else s
  if names.contains .cfgPreg then { s with cfg := { s.cfg with preg := [] } } else s

/-- A mailbox whose configuration changed is emptied (R473). -/
def State.emptyChanged (old s : State) : State :=
  upTo (fun k s =>
    let a := old.mbx k
    let b := s.mbx k
    if a.sideA = b.sideA ∧ a.sideB = b.sideB ∧ a.mode = b.mode ∧ a.valid = b.valid then s
    else s.setMbx k { b with ab := {}, ba := {}, a := {}, b := {} }) 128 s

/-- The slot tables of both copies follow the applied flows and rates. -/
def State.resetSlots (s : State) : State :=
  match placeFlows [] (s.gflows 0 s.spineNow) with
  | some t => { s with noc := { s.noc with res0 := t, res1 := t } }
  | none => s

/-- The hub string applied (R465, R473). -/
def State.applyHub (s : State) (ws : List (Nat × Word)) : State :=
  let s := s.writeBack (fun _ => true) s.sre.cache
  let s := { s with sre := { s.sre with cache := [] } }
  let t := (s.clearHubTables ws).putHubSettings ws
  ((State.emptyChanged s t).emptySlots.resetSlots).clampDeadline

-- the tables that an image carries (R471 step 4)

/-- A partial region's rectangle (R466, R486). -/
def pregRect (w : Word) : Nat × Nat × Nat × Nat × Nat := (fld w 0 2, fld w 4 3, fld w 7 3, fld w 10 3, fld w 13 3)

/-- A valid region lies in order within one quadrant (R306, R466). -/
def pregShapeOk (w : Word) : Bool :=
  let (_, c0, c1, r0, r1) := pregRect w
  decide (c0 ≤ c1 ∧ r0 ≤ r1 ∧ r1 ≤ 5) && c0 / 4 == c1 / 4 && r0 / 3 == r1 / 3

/-- Two regions share a clock region. -/
def pregMeet (a b : Word) : Bool :=
  let (da, c0, c1, r0, r1) := pregRect a
  let (db, e0, e1, q0, q1) := pregRect b
  da == db && decide (c0 ≤ e1 ∧ e0 ≤ c1 ∧ r0 ≤ q1 ∧ q0 ≤ r1)

/-- The regions of an image obey R466. -/
def State.pregsOk (s : State) : Bool :=
  let ps := (List.range 32).filter fun k => bitOf (Tbl.get (0, 0) s.cfg.preg k).1 2
  let w (k : Nat) : Word := (Tbl.get (0, 0) s.cfg.preg k).1
  (ps.all fun k => pregShapeOk (w k) && ps.all fun j => j == k || !pregMeet (w k) (w j)) &&
    decide ((ps.filter fun k => bitOf (w k) 3).length ≤ 4)

/-- Region entry r of an image obeys R145 and R146, the in-use rules left out. -/
def State.imageRegionOk (s : State) (r : Nat) : Bool :=
  let g := s.region r
  decide (g.type.toNat ≤ 6) && g.type != 1 && g.type != 2 && decide (g.tcode.toNat ≤ 5) &&
    (!g.valid || (s.regionValidOk r g && (!s.sealsRegion r || g.type == 5 || g.type == 6)))

/-- Seal entry e of an image obeys R179, the in-use rules left out. -/
def State.imageSealOk (s : State) (e : Nat) : Bool :=
  let x := s.sealEntry e
  !x.valid || (decide (2 ≤ x.region.toNat) && x.key != 15 && (s.keySlot x.key.toNat).state != 2 &&
    (List.range 15).all fun k => k == e || !(s.sealEntry k).valid || (s.sealEntry k).region != x.region)

/-- The hub string's tables obey their owning chapters' rules (R146, R179, R290, R376, R466), once applied to a state. -/
def State.hubTablesOk (s : State) : Bool :=
  ((List.range 30).all fun k => s.imageRegionOk (k + 2)) && s.resOk &&
    ((List.range 15).all fun e => s.imageSealOk e) &&
    ((List.range 128).all fun k => k == 0 || (s.mbx k).sideA != (s.mbx k).sideB ||
      ((s.mbx k).sideA == 0 && !(s.mbx k).valid)) &&
    s.userFlowsOk 0 &&
    (match placeFlows [] (s.gflows 0 s.spineNow) with
      | some t => within192 t
      | none => false) &&
    s.pregsOk

/-- The span allocation of an image obeys R326. -/
def spanCountsOk (ws : List (Nat × Word)) : Bool :=
  ws.all fun e =>
    match regAt e.1 with
    | some (.spanStat, _) => decide (fld e.2 6 13 ≤ 4096 ∧ fld e.2 19 13 ≤ 4096)
    | _ => true

/-- An image's settings tables obey the rules of R471 step 4. -/
def State.tablesOk (s : State) (img : Image) : Bool :=
  let ws := Tbl.get [] img.sets 4
  (((s.clearHubTables ws).putHubSettings ws).hubTablesOk) &&
    (List.range 4).all fun d => spanCountsOk (Tbl.get [] img.sets d)

-- after a die's settings

/-- Outputs above the maximum of the part and profile are not started (R308). -/
def State.overBits (s : State) (d q : Nat) : State :=
  let limit := gcMaxHz Config.grade2 s.pw.running.toNat
  let ref := refHz s.clk.refsel.toNat
  let overs := (List.range 4).foldl (fun m k =>
    if outOk ref (s.pllM d q) (s.pllD d q) (s.pllO d q k) limit then m else m + 2 ^ k) 0
  let s := s.setPll d q { s.pll d q with overBits := BitVec.ofNat 4 overs, locked := false }
  if overs = 0 then s else s.fpllVio d

/-- The offsets of a domain part of a die: LG0, LG1, CFE, FCA, FQ or BRG's fabric clocks (R429, R587). -/
def settingPart (n : RegName) (ix : List Nat) : Nat :=
  match n.row.blk, ix with
  | .bundle, _ :: b :: _ => if b < 8 then 4 else 5
  | .cfe, _ | .wsu, _ => 6
  | .sched, _ => 7
  | _, _ => 8

/-- The words of a die's string that belong to one of its domains. -/
def partSettings (part : Nat) (ws : List (Nat × Word)) : List (Nat × Word) :=
  ws.filter fun e =>
    match regAt e.1 with
    | some (n, ix) => settingPart n ix == part
    | none => false

/-- The static settings of die d that the restore copy holds. -/
def State.dieSettings (s : State) (d : Nat) : List (Nat × Word) := if s.su.restoreOk then Tbl.get [] s.cfg.copy.sets d else []

end Sys2Proof.Machine
end

