-- ==== Sys2Proof/Machine/Domains.lean ====
section
/-! DEFINITION. Domains that leave and return (01_package_and_flow R30–R32, 15_power R424–R429, 16_startup_and_reset
R441–R450): fence, drain, isolation and power-off, power-on, and what each does in the blocks that depend on the domain. -/

namespace Sys2Proof.Machine

/-- RST_STAT.phase (R435): the lowest phase that has not ended; 6 RUN or 7 NO_IMAGE. -/
def State.phase (s : State) : Nat :=
  match (List.range 6).find? fun i => !bitOf s.su.ended i with
  | some i => i
  | none => if s.su.imgOk then 6 else 7

def State.setDieState (s : State) (d v : Nat) : State :=
  let w := s.su.dieState.toNat
  { s with su := { s.su with dieState := BitVec.ofNat 8 (w - fld s.su.dieState (2 * d) 2 * 4 ^ d + v * 4 ^ d) } }

/-- A die is out (R446): anything but RUN. -/
def State.dieOut (s : State) (d : Nat) : Bool := s.dieState d != 2

def State.setOn (s : State) (dom : Nat) (b : Bool) : State := { s with pw := { s.pw with on := setBit s.pw.on dom b } }
def State.setFenced (s : State) (dom : Nat) (b : Bool) : State :=
  { s with pw := { s.pw with fenced := setBit s.pw.fenced dom b } }
def State.setIsolated (s : State) (dom : Nat) (b : Bool) : State :=
  { s with pw := { s.pw with isolated := setBit s.pw.isolated dom b } }

-- the command port's end code (R545–R549)

/-- The running command is to end with a code. -/
def State.endWith (s : State) (op : Nat) (code : Nat) : State :=
  if s.hif.busy && s.hif.opcode.toNat == op then { s with hif := { s.hif with endCode := some (BitVec.ofNat 8 code) } } else s

/-- Argument word i of the running command. -/
def State.cmdArg (s : State) (i : Nat) : Nat := (s.hif.args.getD i 0).toNat

/-- Base and length of the running SCRUB_RANGE, FILL or REPAIR (R546). -/
def State.cmdRange (s : State) : Nat × Nat :=
  (s.cmdArg 2 + 4294967296 * (s.cmdArg 3 % 65536),
    if s.hif.opcode = 7 then 8192 else s.cmdArg 4 + 4294967296 * s.cmdArg 5)

/-- A controller's range goes: a running SCRUB_RANGE, FILL or REPAIR on it is aborted (R547). -/
def State.abortRange (s : State) (lo hi : Nat) : State :=
  let (b, n) := s.cmdRange
  if s.hif.busy && decide (5 ≤ s.hif.opcode.toNat ∧ s.hif.opcode.toNat ≤ 7) && overlaps b (b + n) lo hi then
    { s with dbm := { s.dbm with pass := none } }.endWith s.hif.opcode.toNat 0x70
  else s

-- PERST_N and FLR (R442, R443, R557)

/-- Every readout ring is disabled, its other registers kept (R442). -/
def State.ringsOff (s : State) : State :=
  upTo (fun r s => s.wr .ringCtrl [r] (setBit (s.rd .ringCtrl [r]) 0 false)) 16 s

/-- Completions that the part still owes the host are discarded (R442). -/
def State.hostDropped (s : State) : State :=
  let keep (o : Output) : Bool := match o with
    | .reply r _ => r.cls != .host
    | _ => true
  let s := { s with noc := { s.noc with held := s.noc.held.filter fun h => keep h.2 } }
  upTo (fun d s =>
    if (s.fab d).regp = [] then s
    else s.setFab d { s.fab d with regp := (s.fab d).regp.map fun q => { q with drop := q.drop || q.r.cls == .host } }) 4 s

/-- What PERST_N and FLR share: function state returns to cold values, the host's staging bank, open messages, locks and owed
completions go, and the rings are disabled. -/
def State.functionReset (s : State) : State :=
  let h := s.hif
  let s := { s with hif := { h with
    d3hot := false,
    bme := false,
    conf := {},
    argHost := [],
    mbxPend := 0,
    vecMask := BitVec.allOnes 64,
    vecPend := 0,
    vecAddr := [],
    aerCe := 0,
    aerUe := 0 } }
  let s := (s.wr .hifWinBase [] 0).wr .hifFltIen [] 2
  let s := { s with glint := { s.glint with stgHost := (0, 0) } }
  ((s.hostDropped.dropOpen 1).lockGone 1).ringsOff

/-- A PERST_N assertion (R442), and the fence of the PCI domain (R598). -/
def State.perst (s : State) : State :=
  let s := { s with hif := { s.hif with up := false, width := 0, speed := 0 } }
  let s := { s.functionReset with su := { s.functionReset.su with cPerst := true } }
  s.count (cn 13 2) hub 0 1

-- fences (R425)

/-- Items of a die that belong to a handle: listed, prefetched and running. -/
def State.dieItemsOf (s : State) (d h : Nat) : Nat :=
  let listed := ((List.range 64).map fun l => ((s.readyList d l).filter (ofHandle h)).length).sum
  let onCores := (s.cores.filter fun e => decide (e.1 / 256 = d)).map fun e =>
    (match e.2.prefetch with
      | some it => b2n (ofHandle h it.desc)
      | none => 0) +
    (match e.2.item with
      | some it => b2n (ofHandle h it.desc)
      | none => 0)
  listed + onCores.sum

/-- A die stops being joined (R107, R135): Glints mark it missing, wait for it no longer, and its items count as ended. -/
def State.dieUnjoined (s : State) (d : Nat) : State :=
  let s := s.setWsu d { s.wsu d with joined := false }
  let s := s.setFab d { s.fab d with gltQueue := [] }
  upTo (fun g s =>
    let sl := s.slot g
    if sl.state = 0 ∨ bitOf sl.ended d = true ∨ s.dieMask d = false then s
    else s.setSlot g { sl with
      missing := setBit sl.missing d true,
      ended := setBit sl.ended d true,
      postDue := setBit sl.postDue d false,
      itemsOut := sl.itemsOut - s.dieItemsOf d (s.handleOf g).toNat }) 64 s

/-- Items of Glints that a die holds count as ended (R289). -/
def State.glintItemsEnd (s : State) (d : Nat) : State :=
  upTo (fun g s =>
    let sl := s.slot g
    if sl.state = 0 ∨ bitOf sl.ended d = true then s
    else s.setSlot g { sl with itemsOut := sl.itemsOut - s.dieItemsOf d (s.handleOf g).toNat }) 64 s

/-- Descriptors of the items that a die's lists and cores hold. -/
def State.dieItems (s : State) (d : Nat) : List (List Word) :=
  ((List.range 64).flatMap fun l => s.itemsOf d l) ++
    (s.cores.filter fun e => decide (e.1 / 256 = d)).filterMap fun e => e.2.item.map fun it => it.desc

/-- Every item of a die is lost (R289); the count of a Glint's item is held for the Glint (R126, R287). -/
def State.itemsLost (s : State) (d : Nat) : State :=
  (s.dieItems d).foldl (fun (s : State) x => s.countFor (descGlint x) (cn 7 2) hub d 1) s

/-- The cores of a die hold nothing, and leave their halt groups (R289, R522). -/
def dropDieItems (d : Nat) (t : Tbl CoreSt) : Tbl CoreSt :=
  t.map fun e => if e.1 / 256 = d then (e.1, { e.2.dropItem with prefetch := none, dbg := { e.2.dbg with groupEn := false } }) else e

/-- The fence of an FCA domain (R231, R289, R295, R298). -/
def State.fenceFca (s : State) (d : Nat) : State :=
  let s := s.glintItemsEnd d
  let s := s.itemsLost d
  let s := { s with cores := (dropDieItems d s.cores).filter fun e => e.2 != ({} : CoreSt) }
  let s := s.setSched d { s.sched d with lists := [] }
  let s : State := upTo (fun r s =>
    let n := (s.cring d r).hold.length
    let s := if n = 0 then s else (s.cringDrop d r none).count (cn 7 3) d r (n - 1)
    s.setCring d r { s.cring d r with hold := [] }) 16 s
  let s := s.snoopsEnd fun e => e.1 / 16 == d
  upTo (fun c s =>
    let s := s.setCluster (16 * d + c) { s.cluster (16 * d + c) with lines := [] }
    (s.dropOpen (BitVec.ofNat 8 (16 + 16 * d + c))).lockGone (BitVec.ofNat 8 (16 + 16 * d + c))) 16 s

/-- The fence of a whole die: its fabric ports' open messages and locks (R295, R298); a retrain is abandoned (R349). -/
def State.fenceBrg (s : State) (d : Nat) : State :=
  let b := s.bridge d
  let s := if b.state = 8 then s.setBridge d { b with state := 7 } else s
  upTo (fun j s =>
    (s.dropOpen (BitVec.ofNat 8 (80 + 4 * d + j))).lockGone (BitVec.ofNat 8 (80 + 4 * d + j))) 4 s

/-- The effects of one domain's fence in the blocks that depend on it. -/
def State.fenceEffects (s : State) (dom : Nat) : State :=
  if dom < 36 then
    let d := dom / 9
    match dom % 9 with
    | 6 => s.dieUnjoined d
    | 7 => s.fenceFca d
    | 8 => s.fenceBrg d
    | _ => s
  else
    match dom with
    | 37 => (s.dropOpen 2).lockGone 2
    | 38 => s.perst
    | 39 => s.abortRange (farBase 0) (farBase 1)
    | 40 => s.abortRange (farBase 1) 0x30000000000
    | 41 => (s.abortRange 0 stackBytes).clampDeadline
    | 42 => (s.abortRange stackBytes (2 * stackBytes)).clampDeadline
    | 43 => (s.abortRange (2 * stackBytes) (3 * stackBytes)).clampDeadline
    | 44 => (s.abortRange (3 * stackBytes) (4 * stackBytes)).clampDeadline
    | _ => s

/-- A domain that is on is fenced (R424 step 1); one already in its sequence joins it (R427). -/
def State.fenceOne (s : State) (dom : Nat) : State := if s.live dom then (s.setFenced dom true).fenceEffects dom else s

/-- An Eclipse of one domain begins. -/
def State.fenceDomain (s : State) (dom : Nat) (cause : BitVec 3) (back : Bool) : State :=
  if s.live dom then
    let s := { s with pw := { s.pw with ecl := Tbl.set none s.pw.ecl dom (some { whole := false, cause := cause, back := back }) } }
    s.fenceOne dom
  else s

/-- A load that a lost die ends, or that goes on without it (R473, R474, R480). -/
def State.loadMisses (s : State) (d : Nat) : State :=
  match s.cfg.staged with
  | none =>
    -- a full image is being applied: the command's end shows the miss (R473)
    if s.hif.busy && s.hif.opcode == 1 && s.hif.endCode == some 0 then
      { s with cfg := { s.cfg with lastCode := 0x40 } }.endWith 1 0x40
    else s
  | some x =>
    if x.type = 1 then
      let r := (Tbl.get (0, 0) s.cfg.preg (x.region.toNat - 1)).1
      if fld r 0 2 = d then
        let c := s.cfg
        let s := { s with cfg := { c with
          staged := none,
          state := 0,
          lastCode := 0x71,
          lastType := 1,
          lastTp := c.tp,
          lastRegion := x.region,
          tpActive := false,
          tpCode := if c.tp then 0x71 else c.tpCode } }
        if x.src = 1 then s.endWith 2 0x71 else s
      else s
    else s

/-- A restore of a die is abandoned (R450): the command or the reset request ends with 0x72. -/
def State.restoreAbandoned (s : State) (d : Nat) : State :=
  if s.dieState d = 1 then
    let s := if s.cmdArg 0 = d then s.endWith 10 0x72 else s
    if s.su.dieBusy ∧ s.rf .rstDieReq [] 0 2 = d then
      { s with su := { s.su with dieBusy := false, dieResult := 0x72 } }
    else s
  else s

/-- An Eclipse of a whole die begins (R424, R426, R446). -/
def State.fenceDie (s : State) (d : Nat) (cause : BitVec 3) : State :=
  if s.dieState d = 3 ∨ s.on (domBRG d) = false then s
  else
    let s := (s.restoreAbandoned d).loadMisses d
    let s := s.setDieState d 3
    let s := { s with su := { s.su with cDie := true } }
    let s := { s with pw := { s.pw with ecl := Tbl.set none s.pw.ecl (domBRG d) (some { whole := true, cause := cause }) } }
    upTo (fun i s => s.fenceOne (domDie d i)) 9 s

-- drain and isolation (R379, R380, R496)

/-- Accesses still with user logic are answered DARK when their drain ends. -/
def State.regpDark (s : State) (d : Nat) : State :=
  let q := (s.fab d).regp
  let s := s.setFab d { s.fab d with regp := [] }
  q.foldl (fun s x => s.regpReply x .dark) s

/-- A register holds the record, not yet numbered. -/
def FaultRec.heldIn (r : FaultRec) (o : Option FaultRec) : Bool :=
  match o with
  | some x => x.seqPend && x.same r && (r.seqAt 0 x.ts).isSome
  | none => false

/-- Records lost at an isolation leave FLT_FIRST and FLT_LAST (R494). -/
def State.dropLost (s : State) : List FaultRec → State
  | [] => s
  | r :: t =>
    let det := fld r.source 10 6
    let s := if r.heldIn (Tbl.get none s.flt.first det) then
        { s with flt := { s.flt with
          first := Tbl.set none s.flt.first det none,
          firstV := setBit s.flt.firstV det false } }
      else s
    let s := if r.heldIn (Tbl.get none s.flt.last det) then
        { s with flt := { s.flt with last := Tbl.set none s.flt.last det (Tbl.get none s.flt.lastTaken det) } }
      else s
    s.dropLost t

/-- Records that a die's FIFO still holds at isolation are lost (R493, R496). -/
def State.fifoLoses (s : State) (d : Nat) : State :=
  let q := Tbl.get [] s.flt.fifos d
  let n := q.length
  let s := { s with flt := { s.flt with fifos := Tbl.set [] s.flt.fifos d [] } }
  let s := s.dropLost q
  let s := { s with flt := { s.flt with seq := s.flt.seq + BitVec.ofNat 16 n } }
  (s.reportLost d).count (cn 15 2) hub 22 n

/-- A forced drain (R379): its record and the requests that it answers DARK. -/
def State.drainForced (s : State) (dom owed : Nat) (inj : Bool) : State :=
  (s.count (cn 10 6) hub dom owed).offer .hub 12 dom 1 (Config.detCode 12 0) (Config.syndrome 12 0 owed) 0 inj

/-- The drain of a domain or die ends and it is isolated. It is forced at 4 µs, and while something is owed it does not end
before (R379): `owed` requests besides those that user logic has not answered. -/
def State.isolate (s : State) (dom : Nat) (q : EclSeq) (owed : Nat) (forced : Bool) (ns : Nat) : State :=
  let (p, s) := s.inject 12 dom 0
  let d := dom / 9
  let user := dom < 36 && (q.whole || dom % 9 == 0)
  let owed := owed + (if user then (s.fab d).regp.length else 0)
  -- a die without a clock cannot answer (R446)
  let forced := forced || p.isSome || decide (0 < owed ∨ 4000 ≤ ns) || (q.whole && q.cause == 3)
  let ns := if forced then max ns 4000 else ns
  let s := if forced then s.drainForced dom owed p.isSome else s
  let s := if user then s.regpDark d else s
  let s := if q.whole then
      (if forced && (q.cause == 3 || s.dieHeld d) then s else s.sendFifo d).fifoLoses d
    else s
  let q := { q with forced := forced, drain := BitVec.ofNat 11 (satNat (ns / 4) 2047) }
  let s := { s with pw := { s.pw with ecl := Tbl.set none s.pw.ecl dom (some q) } }
  if q.whole then upTo (fun i s => s.setIsolated (domDie d i) true) 9 s else s.setIsolated dom true

-- power-off (R424 step 4, R52, R151, R163, R313, R319)

/-- Keys of a table outside [lo, hi). -/
def outside {α : Type} (lo hi : Nat) (t : Tbl α) : Tbl α := Tbl.drop (fun k => decide (lo ≤ k ∧ k < hi)) t

/-- The quadrant of a configuration frame (R306, R456): by its place die × 344,064 + index. -/
def frameQuad (key : Nat) : Nat :=
  let i := key % 344064
  let col := i / 128 % 448 / 56
  let row := i / 57344
  col / 4 + 2 * (row / 3)

/-- The shells' queues, the held responses and the element states of a quadrant that goes off (R319). -/
def Fabric.quadLost (f : Fabric) (q : Nat) : Fabric :=
  let here (p : Nat) : Bool := if p < 2 then q == 0 else (p - 2) % 4 == q
  { f.restart fun r => regionQuad r == q with
    gltQueue := if q = 0 then [] else f.gltQueue,
    schQueue := if q = 0 then [] else f.schQueue,
    resp := f.resp.filter fun e => !here e.1,
    waited := f.waited.filter fun e => !here e.1,
    paneOut := outside (960 * q) (960 * (q + 1)) f.paneOut,
    paneFifo := outside (480 * q) (480 * (q + 1)) f.paneFifo }

/-- A quadrant loses its configuration, Pane RAM and PLL; its ports stay detached until they are attached again. -/
def State.quadOff (s : State) (d q : Nat) : State :=
  let f := (s.fab d).quadLost q
  let s := s.setFab d { f with
    plls := Tbl.set {} f.plls q { shedOk := (Tbl.get {} f.plls q).shedOk },
    netpOff := setBit f.netpOff q true,
    held := setBit f.held q true,
    pane := outside (paneKey (480 * q) 0) (paneKey (480 * (q + 1)) 0) f.pane,
    paneErr := outside (paneKey (480 * q) 0) (paneKey (480 * (q + 1)) 0) f.paneErr,
    paneFrom := Tbl.set none (outside (paneOver (480 * q)) (paneOver (480 * (q + 1))) f.paneFrom) q none,
    ctap := if q = 0 then [] else f.ctap }
  let s := { s with cfg := { s.cfg with
    frames := s.cfg.frames.filter fun e => !(e.1 / 344064 == d && frameQuad e.1 == q),
    codeErr := s.cfg.codeErr.filter fun e => !(e.1 / 344064 == d && frameQuad e.1 == q) } }
  upTo (fun p s =>
    if p != 2 && (groupQuads p).contains q then s.wr .portSel [d, p] (setBit (s.rd .portSel [d, p]) 5 false) else s) 6 s

/-- The registers of a die's domain part return to cold values. -/
def State.partCold (s : State) (d part : Nat) : State :=
  let r (lo hi : Nat) (s : State) : State := s.coldRange (inDie lo + 0x400000 * d) (inDie hi + 0x400000 * d)
  match part with
  | 4 => r 0x10000 0x18000 s
  | 5 => r 0x18000 0x20000 s
  | 6 => r 0x40000 0x100000 s
  | 7 => r 0x100000 0x1C0000 s
  | 8 => r 0x200000 0x400000 (r 0x1C0000 0x200000 (r 0x20000 0x40000 s))
  | _ => s

/-- The bridge of a die as power-up leaves it: fused spares (R343), nothing else; a FAILED bridge stays failed, and what the
first training settled stays in the hub (R352). -/
def State.bridgeCold (s : State) (d : Nat) : Bridge :=
  let b := s.bridge d
  let fused := (s.brg.fuses.filter fun f => f.1 == d).foldl (fun (t : Tbl Spare) f =>
    let (_, dir, bundle, wire, k) := f
    Tbl.set {} t (b2n dir * 4 + k) { bundle := BitVec.ofNat 5 bundle, wire := BitVec.ofNat 7 wire, source := 1, valid := true }) []
  { state := if b.state = 9 then 9 else 0, capWord := b.capWord, firstWord := b.firstWord, reported := b.reported, spares := fused }

/-- A far half's contents are lost; copies held there go with it. -/
def State.halfLost (s : State) (h : Nat) : State :=
  let lo := farBase h
  let hi := if h = 0 then farBase 1 else itemBase
  let b := s.dbm
  let here : Bool := match s.pool with
    | some r => decide (lo ≤ (s.regionAt r).lo ∧ (s.regionAt r).lo < hi)
    | none => false
  let s := { s with
    mem := outside lo hi s.mem,
    sre := { s.sre with
      cache := s.sre.cache.filter fun p => decide (p.addr < lo ∨ hi ≤ p.addr),
      injected := outside (lo / 256) (hi / 256) s.sre.injected },
    dbm := { b with
      farWords := outside (lo / 4) (hi / 4) b.farWords,
      stuck := outside (2 ^ 40 + lo / 4) (2 ^ 40 + hi / 4) b.stuck,
      half0 := if h = 0 then {} else b.half0,
      half1 := if h = 0 then b.half1 else {} } }
  if here then
    upTo (fun g s =>
      let sl := s.slot g
      if sl.state = 0 ∨ sl.state = 4 then s
      else s.setSlot g { sl with items := [], rawLost := true }) 64 s
  else s

/-- A domain's state is lost. -/
def State.loseDomain (s : State) (dom : Nat) : State :=
  if dom < 36 then
    let d := dom / 9
    match dom % 9 with
    | 4 => (s.lanesOff d false).partCold d 4
    | 5 => (s.lanesOff d true).partCold d 5
    | 6 =>
      let s := { s with
        cfeLanes := outside (112 * d) (112 * (d + 1)) s.cfeLanes,
        chans := outside (1792 * d) (1792 * (d + 1)) s.chans,
        hitq := outside (16 * d) (16 * (d + 1)) s.hitq,
        wsus := outside d (d + 1) s.wsus }
      s.partCold d 6
    | 7 =>
      let s := { s with
        cores := outside (256 * d) (256 * (d + 1)) s.cores,
        clusters := outside (16 * d) (16 * (d + 1)) s.clusters,
        scheds := outside d (d + 1) s.scheds }
      s.partCold d 7
    | 8 =>
      let s := (s.dieUnjoined d).dropFlits d
      let s := s.setRings d { s.rings d with hold := [], hitHold := [], holdGap := 0 }
      let s := (s.setBridge d (s.bridgeCold d)).partCold d 8
      let s := { s with lsmActive := setBit s.lsmActive d false, clk := { s.clk with locked := setBit s.clk.locked d false } }
      -- both table copies hold the cold table again, and every lane uses copy 0 (R65)
      let s := (dieLanes d).foldl (fun (s : State) l => s.setLane l.key { s.lane l.key with epoch := false }) s
      s.setFab d { spanSel := (s.fab d).spanSel, netpOff := (s.fab d).netpOff }
    | q => s.quadOff d q
  else
    match dom with
    | 37 =>
      let s := s.setCore lampCore {}
      { s with wdg := { s.wdg with lampReset := true }, su := { s.su with fwOk := false } }
    | 39 => s.halfLost 0
    | 40 => s.halfLost 1
    | 41 => (s.stackLost 0).clearStack 0
    | 42 => (s.stackLost 1).clearStack 1
    | 43 => (s.stackLost 2).clearStack 2
    | 44 =>
      let s := (s.stackLost 3).clearStack 3
      { s with flt := { s.flt with logOk := false } }
    | 47 =>
      let s := s.coldRange 0x1000 0x1200
      { s with gpio := { s.gpio with edges := [], ovf := false } }
    | _ => s

/-- A curve point's frequency in MHz, and its voltages in mV (R434). -/
def curveMHz (dom j : Nat) : Nat := fld (Config.curve dom j 0) 0 12
def curveMin (dom j : Nat) : Nat := fld (Config.curve dom j 1) 0 11
def curveMax (dom j : Nat) : Nat := fld (Config.curve dom j 1) 11 11

/-- A domain's regulator voltage, in steps of 0.5 mV. -/
def State.setVolt (s : State) (dom v : Nat) : State :=
  { s with pw := { s.pw with voltage := Tbl.set 0 s.pw.voltage dom v } }

/-- The regulator of a domain goes off. -/
def State.domainOff (s : State) (dom : Nat) : State :=
  if s.on dom then (((s.loseDomain dom).setOn dom false).setVolt dom 0).injectEnds dom else s

/-- An Eclipse's completion is signalled (R425, R433). -/
def State.eclipseDone (s : State) (dom : Nat) (q : EclSeq) : State :=
  let s := { s with pw := { s.pw with
    ecl := Tbl.set none s.pw.ecl dom none,
    eclDom := BitVec.ofNat 6 dom,
    eclDie := q.whole,
    eclCause := q.cause,
    eclForced := q.forced,
    eclDrain := q.drain } }
  let s := if q.whole then upTo (fun i s => s.count (cn 12 5) hub (domDie (dom / 9) i) 1) 9 s
    else s.count (cn 12 5) hub dom 1
  s.eclipseEvent

/-- Every switched domain goes off without fence or drain (R395, R422, R565): the fault queue and FIFOs are lost (R496). -/
def State.allOff (s : State) : State :=
  let s := upTo (fun i s => s.domainOff i) 48 s
  let s := { s with
    pw := { s.pw with fenced := 0, isolated := 0, ecl := [], reqRuns := [] },
    flt := { s.flt with queue := [], fifos := [], fifoLost := [] },
    su := { s.su with dieState := 0, dieBusy := false, domBusy := false },
    hif := { s.hif with up := false, width := 0, speed := 0, busy := false, endCode := none },
    cfg := { s.cfg with staged := none, state := 0 } }
  s

-- power-on (R162, R429, R507)

/-- The point of a clock in MHz, or the next higher one; a domain with one operating point uses point 0 (R414). -/
def curvePoint (dom mhz : Nat) : Option Nat :=
  if (List.range 15).all fun j => curveMHz dom (j + 1) == 0 then some 0
  else (List.range 16).foldl (fun best j =>
    if curveMHz dom j ≠ 0 ∧ mhz ≤ curveMHz dom j then
      match best with
      | some b => if curveMHz dom j < curveMHz dom b then some j else some b
      | none => some j
    else best) none

/-- The clock of a domain that runs on a spine clock where that is mhz: CFE, FCA, BRG, SPN and LMP (R240, R396). -/
def spineDomMHz (dom mhz : Nat) : Option Nat :=
  if dom < 36 then (if 6 ≤ dom % 9 then some mhz else none)
  else if dom = 36 then some mhz
  else if dom = 37 then some (mhz / 2)
  else none

/-- The regulator of a domain comes up to v_min of the domain's point (R429), which is a free value where the manual does not
give the domain's clock; fence and isolation stay until the domain has started. -/
def State.domainOn (s : State) (dom : Nat) : State :=
  let (x, s) := s.free 4
  let j := ((spineDomMHz dom s.spineNow).bind (curvePoint dom)).getD (if curvePoint dom 0 = some 0 then 0 else x.toNat)
  (((s.setOn dom true).setFenced dom true).setIsolated dom true).setVolt dom (2 * curveMin dom j)

/-- Counters of a die restart when its BRG domain powers on after an Eclipse (R507). -/
def State.dieCountersRestart (s : State) (d : Nat) : State :=
  let c := s.cnt
  let own (k : Nat) : Bool := k / 4096 % 8 == d
  let leaves := c.leaves.map fun e => if own e.1 then (e.1, ({ floorInvalid := true } : Leaf)) else e
  let dieNodes := c.dieNodes.filter fun e => e.1 % 8 != d
  let names := (c.leaves.filter fun e => own e.1).map fun e => e.1 / 4096 / 8
  let pkgNodes := names.foldl (fun t n => Tbl.set {} t n { Tbl.get ({} : CNode) t n with inexact := true }) c.pkgNodes
  { s with cnt := { leaves := leaves, dieNodes := dieNodes, pkgNodes := pkgNodes } }

/-- A domain has started (R107, R429): its static settings are rewritten, and fence and isolation lift. -/
def State.domainStarted (s : State) (dom : Nat) : State :=
  let s := (s.setFenced dom false).setIsolated dom false
  if dom < 36 then
    let d := dom / 9
    let p := dom % 9
    let s := if 4 ≤ p ∧ p ≤ 7 then s.putSettings (partSettings p (s.dieSettings d)) else s
    if p = 6 then (if s.dieState d = 1 && !s.rb .mrgCtrl [] 0 then s.wsuCopies d else s.wsuRejoin d) else s
  else s.clampDeadline

-- quiet restores: a die's image (R449, R475)

/-- Frames written to the dies that are not out. -/
def putFrames (t : Tbl Frame) : List (Nat × Frame) → Tbl Frame
  | [] => t
  | (k, v) :: r => putFrames (Tbl.set (0, false) t k v) r

/-- A die's frames as the restore copy and its partial images hold them. -/
def State.dieFrames (s : State) (d : Nat) : List (Nat × Frame) :=
  let here (e : Nat × Frame) : Bool := e.1 / 344064 == d
  s.cfg.copy.frames.filter here ++ s.cfg.parts.flatMap fun p => p.frames.filter here

/-- Bytes of the images that a die's restore reads (R475). -/
def State.restoreBytes (s : State) (d : Nat) : Nat :=
  s.cfg.copy.bytes + ((s.cfg.parts.filter fun p => p.frames.any fun e => e.1 / 344064 == d).map fun p => p.bytes).sum

/-- Pane RAM takes its initial contents from the frames (R313): which bits of which frame make which word the manual does
not give, so each word is a free value (log entry 1). -/
def State.paneInit (s : State) (d : Nat) : State :=
  upTo (fun q s =>
    let f := s.fab d
    let b := s.freeCtr
    ({ s with freeCtr := b + 983040 }).setFab d { f.restart fun r => regionQuad r == q with
      paneFifo := outside (480 * q) (480 * (q + 1)) f.paneFifo,
      pane := outside (paneKey (480 * q) 0) (paneKey (480 * (q + 1)) 0) f.pane,
      paneErr := outside (paneKey (480 * q) 0) (paneKey (480 * (q + 1)) 0) f.paneErr,
      paneFrom := Tbl.set none (outside (paneOver (480 * q)) (paneOver (480 * (q + 1))) f.paneFrom) q (some b) }) 4 s

/-- Every cluster of a die is parked (R237). -/
def State.parkDie (s : State) (d : Nat) : State :=
  upTo (fun c s => s.wr .cluCtrl [d, c] (setBit (s.rd .cluCtrl [d, c]) 0 true)) 16 s

/-- A die's fabric takes its frames, its Pane RAM contents and its static settings, and leaves reset (R449, R473). -/
def State.putDieImage (s : State) (d : Nat) (frames : List (Nat × Frame)) (sets : List (Nat × Word)) : State :=
  let clean := s.cfg.frames.filter fun e => e.1 / 344064 != d
  let s := { s with cfg := { s.cfg with
    frames := putFrames clean frames, codeErr := s.cfg.codeErr.filter fun e => e.1 / 344064 != d } }
  let s := (s.paneInit d).putSettings sets
  let s : State := upTo (fun q s => s.overBits d q) 4 s
  let s := s.setFab d { s.fab d with netpOff := 0, held := 0 }
  s.parkDie d

end Sys2Proof.Machine
end

