-- ==== Sys2Proof/Machine/Image.lean ====
section
/-! DEFINITION. Configuration streams (17_configuration, R455–R468, R471): the container, its keys, the records, the frame
code and the settings strings, checked in the order of R471 with the codes of R472. -/

namespace Sys2Proof.Machine

-- checks over bytes

/-- One bit of the CRC-32 of IEEE 802.3, reflected. -/
def crcBit (c : BitVec 32) : BitVec 32 := if bitOf c 0 then (c >>> 1) ^^^ 0xEDB88320 else c >>> 1

/-- One byte of the CRC-32. -/
def crcByte (c : BitVec 32) (b : Byte) : BitVec 32 := upTo (fun _ c => crcBit c) 8 (c ^^^ b.setWidth 32)

/-- The CRC-32 of IEEE 802.3 over bytes. -/
def crc32 (l : List Byte) : Word := (l.foldl crcByte 0xFFFFFFFF) ^^^ 0xFFFFFFFF

/-- Powers of two from 4 up to a number. -/
def powersTo (x : Nat) : Nat := ((List.range 14).filter fun i => decide (2 ^ (i + 2) ≤ x)).length

/-- p(j) of R458: the (j + 1)-th smallest integer that is at least 3 and no power of two. -/
def hamPos (j : Nat) : Nat :=
  match (List.range 15).find? fun e => powersTo (j + 3 + e) == e with
  | some e => j + 3 + e
  | none => 0

/-- Exclusive or of p(j) over the ones of a payload, and its parity. -/
def hamSum (w : BitVec 8192) : Nat × Nat :=
  (List.range 8192).foldl (fun x j => if bitOf w j then (x.1 ^^^ hamPos j, (x.2 + 1) % 2) else x) (0, 0)

/-- The frame code of a payload at an address (R458). -/
def frameCode (w : BitVec 8192) (addr : Word) : BitVec 16 :=
  let (c, p) := hamSum w
  let q := (p + popCount c 14) % 2
  BitVec.ofNat 16 (c % 16384 + 16384 * q + 32768 * (popCount addr.toNat 32 % 2))

-- frame addresses (R456, R457)

/-- A frame address's place, die × 344,064 + index, where it is in range. -/
def frameKey (a : Word) : Option Nat :=
  let col := fld a 20 10
  let row := fld a 12 8
  let minor := fld a 0 12
  if col ≤ 447 ∧ row ≤ 5 ∧ minor ≤ 127 then some (fld a 30 2 * 344064 + (row * 448 + col) * 128 + minor) else none

def keyCol (k : Nat) : Nat := k % 344064 / 128 % 448
def keyRow (k : Nat) : Nat := k % 344064 / 57344

/-- The frame address of a place. -/
def frameAddr (k : Nat) : Word :=
  BitVec.ofNat 32 (pack [(30, k / 344064), (20, keyCol k), (12, keyRow k), (0, k % 128)])

/-- A settings frame (R457). -/
def isSettings (k : Nat) : Bool := keyCol k == 447 && decide (4 ≤ keyRow k)

/-- Mirror checks a frame (R457). -/
def mirrored (k : Nat) (vol : Bool) : Bool :=
  let c := keyCol k % 56
  !isSettings k && (if c < 48 then !vol else c != 50 && c != 51 && c != 52 && c != 53)

/-- A frame belongs to a partial region (R466). -/
def inRegion (p : Word) (k : Nat) : Bool :=
  let (d, c0, c1, r0, r1) := pregRect p
  k / 344064 == d && decide (c0 ≤ keyCol k / 56 ∧ keyCol k / 56 ≤ c1 ∧ r0 ≤ keyRow k ∧ keyRow k ≤ r1)

-- the header (R459, R460)

/-- A number at an offset of a byte list. -/
def numAt (l : List Byte) (o n : Nat) : Nat := wordOfBytes ((l.drop o).take n)

/-- Bytes at an offset. -/
def bytesAt (l : List Byte) (o n : Nat) : List Byte := (l.drop o).take n

/-- A byte range holds only zeros. -/
def zerosAt (l : List Byte) (o n : Nat) : Bool := (bytesAt l o n).all fun b => b == 0

/-- Largest declared length of a type (R460). -/
def maxDeclared (type : Nat) : Nat :=
  match type with
  | 0 => 1476395008
  | 1 => 16776912
  | _ => 134217424

/-- Plaintext bytes of a stream whose declared length fits its type (R461, R462). -/
def plainLen (type n : Nat) : Option Nat :=
  if type = 1 then
    let segs := (n + 4194319) / 4194320
    if n = 0 ∨ n ≤ 16 * segs then none
    else if n - 4194320 * (segs - 1) ≤ 16 then none else some (n - 16 * segs)
  else if n < 16 then none else some (n - 16)

/-- What a header is checked against: the type and region wanted, the package level, and where the stream lies: its size. -/
structure HeaderFor where
  type : Nat
  region : Nat
  size : Nat
  deriving DecidableEq, Repr

/-- The first code that a header is refused with (R472, in its table's order); while K_F or K_A is unprogrammed, or with
keys_void programmed, every load is refused with 0x15 (R479, R534). -/
def State.headerCode (s : State) (h : List Byte) (w : HeaderFor) : Option Nat :=
  let type := numAt h 9 1
  let mode := numAt h 11 1
  let n := numAt h 16 8
  let load := numAt h 0x50 4
  let modeOk := if type = 1 then mode == 2 else mode == 0 || mode == 1
  let keysOk := mode != 1 || s.cfg.bbKey.isSome
  let reserved := decide (numAt h 12 1 < 2) && zerosAt h 13 3 && zerosAt h 0x24 4 && zerosAt h 0x58 168 &&
    (type == 1 || (zerosAt h 0x28 40 && numAt h 10 1 == 0))
  let loadOk := if type = 2 then
      load % 4 == 0 && decide (load ≤ 4194304) && decide (load ≤ (plainLen type n).getD 0)
    else load == 0
  -- a firmware stream may load before the level is fixed (R435)
  let levelMax := if w.type = 2 ∧ s.brg.level = 0 then 2 else s.brg.level.toNat
  if s.dbg.keysVoid ∨ s.cfg.fuseKf.isNone = true ∨ s.cfg.fuseKa.isNone = true then some 0x15
  else if numAt h 0 4 ≠ 0x4D494748 ∨ numAt h 4 2 ≠ 1 then some 0x11
  else if numAt h 6 2 ≠ 0x4512 then some 0x12
  else if numAt h 8 1 = 0 ∨ levelMax < numAt h 8 1 then some 0x13
  else if type ≠ w.type ∨ (type = 1 ∧ numAt h 10 1 ≠ w.region) then some 0x14
  else if !modeOk || !keysOk then some 0x15
  else if maxDeclared type < n ∨ (plainLen type n).isNone = true ∨ (reserved && loadOk) = false then some 0x16
  else if w.size < 256 + n + 48 then some 0x17
  else none

-- decryption (R461, R462)

/-- A number as bytes, most significant first. -/
def beBytes (v n : Nat) : List Byte := (bytesOf v n).reverse

/-- "HG-ROLL" and a zero byte. -/
def rollLabel : List Byte := [0x48, 0x47, 0x2D, 0x52, 0x4F, 0x4C, 0x4C, 0x00]

/-- The next segment key (R462). -/
def nextKey (k : List Byte) (i : Nat) : List Byte :=
  (hmac384 k (beBytes 1 4 ++ rollLabel ++ beBytes (i + 1) 4 ++ beBytes 256 4)).take 32

/-- The IV of segment i (R462). -/
def segIv (iv : List Byte) (i : Nat) : List Byte := iv.take 8 ++ beBytes i 4

/-- Segments decrypted in order; none where a tag fails. -/
def openSegs (hdr iv : List Byte) : Nat → Nat → List Byte → List Byte → Option (List Byte)
  | 0, _, _, _ => some []
  | fuel + 1, i, key, body =>
    if body = [] then some []
    else
      match gcmOpen key (segIv iv i) hdr (body.take 4194320) with
      | none => none
      | some p => (openSegs hdr iv fuel (i + 1) (nextKey key i) (body.drop 4194320)).map fun r => p ++ r

/-- A fused key as bytes. -/
def keyBytes {n : Nat} (k : BitVec n) : List Byte := bytesOf k.toNat (n / 8)

/-- A stream's plaintext; none where a tag or the key unwrap fails (0x1A). -/
def State.openBody (s : State) (hdr body : List Byte) : Option (List Byte) :=
  let iv := bytesAt hdr 0x18 12
  let kf := match s.cfg.fuseKf with
    | some k => keyBytes k
    | none => []
  match numAt hdr 11 1 with
  | 0 => gcmOpen kf iv hdr body
  | 1 =>
    match s.cfg.bbKey with
    | some ws => gcmOpen (ws.flatMap fun w => bytesOf w.toNat 4) iv hdr body
    | none => none
  | _ =>
    match keyUnwrap kf (bytesAt hdr 0x28 40) with
    | some k => openSegs hdr iv (body.length / 4194320 + 1) 0 k body
    | none => none

-- records (R463, R464)

/-- What parsing has found so far: frames, in order, and the bytes since the last CHECK. -/
structure Parse where
  frames : Tbl (Option Frame) := []
  count : Nat := 0
  since : List Byte := []
  deriving DecidableEq, Repr

/-- What a parser checks its frames against: whether the stream is compressed, and a partial region's word. -/
structure ParseFor where
  compressed : Bool
  region : Option Word
  deriving DecidableEq, Repr

/-- One frame written; a code where its place, its region or its code is wrong. -/
def Parse.frame (p : Parse) (w : ParseFor) (addr : Word) (code : BitVec 16) (body : BitVec 8192) (vol : Bool) :
    Nat ⊕ Parse :=
  match frameKey addr with
  | none => .inl 0x1E
  | some k =>
    let outside : Bool := match w.region with
      | some r => !inRegion r k || isSettings k
      | none => false
    if Tbl.get none p.frames k ≠ none then .inl 0x1E
    else if outside then .inl 0x20
    else if frameCode body addr ≠ code then .inl 0x1D
    else .inr { p with frames := Tbl.set none p.frames k (some (body, vol)), count := p.count + 1 }

/-- The payload of 1,024 bytes. -/
def payloadOf (l : List Byte) : BitVec 8192 := BitVec.ofNat 8192 (wordOfBytes (l.take 1024))

/-- A FRAME record's frames: n left, the address of the next, the codes and the payloads that are left. -/
def Parse.run (p : Parse) (w : ParseFor) (vol : Bool) : Nat → Word → List Byte → List Byte → Nat ⊕ Parse
  | 0, _, _, _ => .inr p
  | n + 1, addr, codes, body =>
    match frameKey addr with
    | none => .inl 0x1E
    | some k =>
      match p.frame w addr (BitVec.ofNat 16 (numAt codes 0 2)) (payloadOf body) vol with
      | .inl c => .inl c
      | .inr p =>
        if n = 0 then .inr p
        else if (k + 1) / 344064 = k / 344064 then p.run w vol n (frameAddr (k + 1)) (codes.drop 2) (body.drop 1024)
        else .inl 0x1E

/-- A REPEAT record's frames: the addresses that are left. -/
def Parse.repeats (p : Parse) (w : ParseFor) (vol : Bool) (code : Nat) (body : BitVec 8192) : Nat → List Byte → Nat ⊕ Parse
  | 0, _ => .inr p
  | n + 1, addrs =>
    let a := BitVec.ofNat 32 (numAt addrs 0 4)
    match p.frame w a (BitVec.ofNat 16 (code + 32768 * (popCount a.toNat 32 % 2))) body vol with
    | .inl c => .inl c
    | .inr p => p.repeats w vol code body n (addrs.drop 4)

/-- A record's length in bytes by its type and n (R463). -/
def recordLen (type n : Nat) : Nat :=
  match type with
  | 1 => 16 + (2 * n + 15) / 16 * 16 + 1024 * n
  | 2 => 16 + (4 * n + 15) / 16 * 16 + 1024
  | _ => 16

/-- Records parsed in order; the code of the first that breaks a rule. -/
def Parse.records (p : Parse) (w : ParseFor) : Nat → List Byte → Nat ⊕ Parse
  | 0, _ => .inl 0x1B
  | fuel + 1, l =>
    let type := numAt l 0 1
    let n := numAt l 2 2
    let w1 := BitVec.ofNat 32 (numAt l 4 4)
    let vol := numAt l 1 1 % 2 == 1
    let len := recordLen type n
    if l.length < 16 ∨ zerosAt l 8 8 = false then .inl 0x1B
    else
      match type with
      | 1 =>
        if n = 0 ∨ 1024 < n ∨ 1 < numAt l 1 1 ∨ l.length < len then .inl 0x1B
        else
          match p.run w vol n w1 (l.drop 16) (l.drop (16 + (2 * n + 15) / 16 * 16)) with
          | .inl c => .inl c
          | .inr p => { p with since := p.since ++ l.take len }.records w fuel (l.drop len)
      | 2 =>
        if n = 0 ∨ 1 < numAt l 1 1 ∨ fld w1 15 17 ≠ 0 ∨ w.compressed = false ∨ l.length < len then .inl 0x1B
        else
          match p.repeats w vol (fld w1 0 15) (payloadOf (l.drop (len - 1024))) n (l.drop 16) with
          | .inl c => .inl c
          | .inr p => { p with since := p.since ++ l.take len }.records w fuel (l.drop len)
      | 3 =>
        if zerosAt l 1 3 = false then .inl 0x1B
        else if crc32 p.since ≠ w1 then .inl 0x1C
        else { p with since := [] }.records w fuel (l.drop 16)
      | 15 =>
        if zerosAt l 1 3 = false ∨ l.length ≠ 16 ∨ w1.toNat ≠ p.count then .inl 0x1B else .inr p
      | _ => .inl 0x1B

-- settings strings (R465)

/-- The words of 128 settings frames. -/
def stringWords (f : Tbl Frame) (d row : Nat) : List Word :=
  (List.range 128).flatMap fun m =>
    let w := (Tbl.get ((0, false) : Frame) f (d * 344064 + (row * 448 + 447) * 128 + m)).1
    (List.range 256).map fun i => BitVec.ofNat 32 (w.toNat >>> (32 * i))

/-- c words of a block, at consecutive registers; none where one lies outside the string's targets. -/
def blockWords (k : Nat) : Nat → Nat → List Word → Option (List (Nat × Word) × List Word)
  | 0, _, l => some ([], l)
  | _ + 1, _, [] => none
  | n + 1, off, v :: l =>
    if targetOk k off then (blockWords k n (off + 4) l).map fun x => ((off, v) :: x.1, x.2) else none

/-- A string's writes; none where a block is malformed, off its targets, or the end is missing (0x21). -/
def stringWrites (k : Nat) : Nat → List Word → Option (List (Nat × Word))
  | 0, _ => none
  | fuel + 1, l =>
    match l with
    | [] => none
    | w0 :: rest =>
      if w0 = 0xFFFFFFFF then some []
      else
        match rest with
        | [] => none
        | w1 :: rest =>
          if fld w0 26 6 ≠ 0 ∨ fld w0 0 2 ≠ 0 ∨ fld w1 16 16 ≠ 0 ∨ w1 = 0 then none
          else
            match blockWords k w1.toNat w0.toNat rest with
            | none => none
            | some (ws, rest) => (stringWrites k fuel rest).map fun r => ws ++ r

/-- The five strings of a FULL image; the strings of row 4 of dies 1–3 are all zeros. -/
def imageSets (f : Tbl Frame) : Option (Tbl (List (Nat × Word))) :=
  if (List.range 3).any fun i => (stringWords f (i + 1) 4).any fun w => w != 0 then none
  else
    let str (k : Nat) : Option (List (Nat × Word)) :=
      stringWrites k 32769 (if k < 4 then stringWords f k 5 else stringWords f 0 4)
    match str 0, str 1, str 2, str 3, str 4 with
    | some a, some b, some c, some d, some e =>
      some (Tbl.set [] (Tbl.set [] (Tbl.set [] (Tbl.set [] (Tbl.set [] [] 0 a) 1 b) 2 c) 3 d) 4 e)
    | _, _, _, _, _ => none

-- the whole check (R471 steps 2–5)

/-- Frames that are stored: settings frames are applied as writes (R457). -/
def storedFrames (t : Tbl (Option Frame)) (settings : Bool) : List (Nat × Frame) :=
  t.filterMap fun e => if isSettings e.1 == settings then e.2.map fun f => (e.1, f) else none

/-- The records of a FULL or PARTIAL stream checked (R471 step 4): a code, or what is to be applied. -/
def State.checkRecords (s : State) (hdr plain : List Byte) (x : Staged) : Nat ⊕ Staged :=
  let comp := numAt hdr 12 1 % 2 == 1
  let id := BitVec.ofNat 32 (numAt hdr 0x54 4)
  let region : Option Word := if x.type = 1 then some (Tbl.get (0, 0) s.cfg.preg (x.region.toNat - 1)).1 else none
  match ({} : Parse).records { compressed := comp, region := region } (plain.length / 16 + 1) plain with
  | .inl c => .inl c
  | .inr p =>
    if x.type = 1 then
      .inr { x with part := some { region := x.region, imgId := id, frames := storedFrames p.frames false, bytes := plain.length } }
    else if !comp && p.count != 1376256 then .inl 0x1F
    else
      match imageSets (putFrames [] (storedFrames p.frames true)) with
      | none => .inl 0x21
      | some sets =>
        let img : Image := {
          imgId := id,
          frames := putFrames [] (storedFrames p.frames false),
          sets := sets,
          bytes := plain.length }
        if s.tablesOk img then .inr { x with image := img } else .inl 0x22

/-- A stream whose header has passed is decrypted, parsed and compared with its tag (R471 steps 2–5). -/
def State.checkBody (s : State) (hdr body tag : List Byte) (x : Staged) (tagFails : Bool) : Nat ⊕ Staged :=
  let ka := match s.cfg.fuseKa with
    | some k => keyBytes k
    | none => []
  match s.openBody hdr body with
  | none => .inl 0x1A
  | some plain =>
    let y : Nat ⊕ Staged :=
      if x.type = 2 then
        let n := numAt hdr 0x50 4
        .inr { x with fw := (plain.take n, plain.drop n) }
      else s.checkRecords hdr plain x
    match y with
    | .inl c => .inl c
    | .inr y => if tagFails || hmac384 ka (hdr ++ body) != tag then .inl 0x19 else .inr y

-- the NV die (R467, R468)

/-- An NV byte; an erased byte reads 0xFF. -/
def State.nvByte (s : State) (a : Nat) : Byte := Tbl.get 0xFF s.nv.mem a

/-- NV bytes from an offset on. -/
def State.nvBytes (s : State) (a n : Nat) : List Byte := (List.range n).map fun i => s.nvByte (a + i)

/-- NV offset and size of a target (R467, R548). -/
def nvTarget (kind index : Nat) : Option (Nat × Nat) :=
  match kind with
  | 0 => if index < 4 then some (index * 0x60000000, 0x60000000) else none
  | 1 => if index < 64 then some (0x180000000 + index * 0x1000000, 0x1000000) else none
  | 2 => if index < 2 then some (0x1C0000000 + index * 0x8000000, 0x8000000) else none
  | 3 => if index < 16 then some (0x1D0000000 + index * 0x1000, 0x1000) else none
  | 4 => if index = 0 then some (0x1D0010000, 0x1000) else none
  | 5 => if index = 0 then some (0x1D1000000, 0x1000000) else none
  | _ => none

/-- The kind of a type's slots (R455, R467). -/
def slotKind (type : Nat) : Nat := type

end Sys2Proof.Machine
end

