-- ==== Sys2Proof/Machine/Port.lean ====
section
/-! DEFINITION. The command port (20_host_interface R545–R549): how a command starts, is refused and ends, and the commands
that run in the buffers and the sealed-region engine. A long command's effect happens at its start; COMMAND_END is its
end. -/

namespace Sys2Proof.Machine

/-- The port's two writers as requesters. -/
def portReq (lamp : Bool) : Req := if lamp then { cls := .lamp, rnum := 2 } else { cls := .host, rnum := 1 }

/-- A writer's argument bank. -/
def State.bank (s : State) (lamp : Bool) : Tbl Word := if lamp then s.hif.argLamp else s.hif.argHost

/-- The seven words of a writer's bank. -/
def State.bankArgs (s : State) (lamp : Bool) : List Word := (List.range 7).map fun i => Tbl.get 0 (s.bank lamp) i

/-- Argument words from an ARG0, an ARG1, an address, a length and a pattern. -/
def portArgs (a0 a1 : Word) (addr : Addr) (len : BitVec 64) (pattern : Word) : List Word :=
  [a0, a1, addr.setWidth 32, (addr >>> 32).setWidth 32, len.setWidth 32, (len >>> 32).setWidth 32, pattern]

/-- The named arguments with nonzero bits outside their fields (R545, R546, R548). -/
def argsBad (op : Nat) (args : List Word) : Bool :=
  let a (i : Nat) : Nat := (args.getD i 0).toNat
  let small (i : Nat) : Bool := decide (256 ≤ a i)
  let addr : Bool := decide (65536 ≤ a 3)
  match op with
  | 1 | 8 | 9 | 10 | 11 => small 0
  | 2 => small 0 || small 1
  | 3 => decide (4096 ≤ a 0) || addr
  | 4 => decide (4096 ≤ a 0)
  | 5 | 6 | 7 => addr
  | 12 => small 0 || addr
  | _ => false

/-- Opcodes that the port knows (R546). -/
def opKnown (op : Nat) : Bool := decide (1 ≤ op ∧ op ≤ 12)

/-- A command ends (R545): its code, the count, vector 1 and Lamp line 7. -/
def State.portEnd (s : State) (code : Nat) : State :=
  let op := s.hif.opcode.toNat
  let s := { s with
    hif := { s.hif with status := BitVec.ofNat 8 code, busy := false, endCode := none },
    pw := { s.pw with changing := s.pw.changing && op != 11 } }
  ((s.count (cn 16 0) hub (if opKnown op then op - 1 else 12) 1).sendVector 1).raiseLine 7

/-- The code that a start is refused with before the command's own checks (R547). -/
def State.portCheck (s : State) (op : Nat) (args : List Word) : Option Nat :=
  if opKnown op = false then some 0x2B
  else if argsBad op args then some 0x2C
  else if s.phase < 6 then some 0x35
  else none

/-- A GO write (R545): dropped while busy, else the bank is copied and the command starts. -/
def State.portGo (s : State) (lamp : Bool) (op : Nat) (args : List Word) (f : State → State) : State :=
  if s.live domSPN = false ∨ (if lamp then s.live domLMP else s.hostReaches) = false then s
  else if s.hif.busy then s.vio 84
  else
    let s := { s with hif := { s.hif with
      opcode := BitVec.ofNat 8 op,
      busy := true,
      ownerLamp := lamp,
      time := 0,
      args := args,
      endCode := none } }
    let s := s.raiseLine 7
    match s.portCheck op args with
    | some c => s.portEnd c
    | none => f s

/-- A refused command ends at once, a started one ends with a code at COMMAND_END. -/
def State.endsWith (s : State) (code : Nat) : State := { s with hif := { s.hif with endCode := some (BitVec.ofNat 8 code) } }

-- FILL, SCRUB_RANGE, REPAIR (R166–R170)

/-- The sealed entry over a checked range's region, where it has one. -/
def State.rangeSeal (s : State) (base : Nat) : Option Nat :=
  match s.regionOf base with
  | some k => s.sealOf k
  | none => none

/-- The codes of FILL after the range's own (R170). -/
def State.fillCode (s : State) (base len : Nat) : Option Nat :=
  match s.regionOf base with
  | none => some 0x21
  | some k =>
    let g := s.regionAt k
    if g.type ≠ 6 ∨ g.hi < base + len then some 0x21
    else
      match s.sealOf k with
      | none => none
      | some e =>
        if s.right .host e ≠ 3 then some 0x22
        else if sealedBytes g e < base + len - g.lo then some 0x20
        else none

/-- A pass over a checked range starts (R166–R168). -/
def State.passStart (s : State) (fill : Option Word) (base len : Nat) (errs : MemErrs) : State :=
  { s with dbm := { s.dbm with
    pass := some { fill := fill, next := base, stop := base + len, errs := errs },
    scrub := if fill.isNone then {} else s.dbm.scrub,
    cmdDone := 0 } }

/-- The running FILL. -/
def State.goFill (s : State) : State :=
  let (b, n) := s.cmdRange
  match s.rangeCode b n with
  | some c => s.portEnd c
  | none =>
    match s.fillCode b n with
    | some c => s.portEnd c
    | none => (s.passStart (some (s.hif.args.getD 6 0)) b n []).endsWith 0

/-- The running SCRUB_RANGE. -/
def State.goScrub (s : State) (errs : MemErrs) : State :=
  let (b, n) := s.cmdRange
  match s.rangeCode b n with
  | some c => s.portEnd c
  | none => (s.passStart none b n errs).endsWith 0

/-- Bytes of a pass's next piece: a unit, or what is left of a sealed far block, which the engine takes whole (R190). -/
def State.passSize (s : State) (p : RangePass) : Nat :=
  if p.fill.isSome && (s.rangeSeal p.next).isSome && decide (nearEnd ≤ p.next) then
    min (p.stop - p.next) (256 - p.next % 256)
  else unitSize p.next

/-- One piece of a pass, filled or scrubbed (R166, R167). -/
def State.passUnit (s : State) (p : RangePass) : State :=
  match p.fill with
  | none => s.scrubUnit p.errs p.next
  | some v =>
    match s.rangeSeal p.next with
    | none => s.fillUnit v p.next
    | some _ => (s.memWrite (portReq false) p.next (patternBytes v (s.passSize p)) []).2

/-- Pieces of the pass, as many as DBM_MAINT_RATE has admitted, or all that are left (R168, R170). -/
def State.passRun (s : State) (all : Bool) : Nat → State
  | 0 => s
  | n + 1 =>
    match s.dbm.pass with
    | none => s
    | some p =>
      let u := s.passSize p
      if p.stop ≤ p.next ∨ (all = false ∧ p.room < u) then s
      else
        let s := s.passUnit p
        ({ s with dbm := { s.dbm with
          pass := some { p with next := p.next + u, room := p.room - u },
          cmdDone := s.dbm.cmdDone + BitVec.ofNat 64 u } }).passRun all n

/-- The cap of FILL and scrubbing in GB/s; 0 means none (R168). -/
def State.maintRate (s : State) : Nat := s.rf .dbmMaintRate [] 0 16

/-- A tick of a running pass (R168): the cap admits more bytes, and the units that they cover are done. Without a cap the pass
waits for the command's end (log entry 165). -/
def State.passTick (s : State) : State :=
  match s.dbm.pass with
  | none => s
  | some p =>
    let a := s.maintRate * 1000000000 + p.rest
    let hz := max 1 s.tbHz
    let p := { p with room := p.room + a / hz, rest := a % hz }
    ({ s with dbm := { s.dbm with pass := some p } }).passRun false (p.room / 64)

/-- A running pass has come to its end: nothing is left of its range, or no cap holds back the rest. -/
def State.passOver (s : State) : Bool :=
  match s.dbm.pass with
  | none => true
  | some p => decide (p.stop ≤ p.next) || s.maintRate == 0

/-- The rest of a pass at its end. -/
def State.passFinish (s : State) : State :=
  match s.dbm.pass with
  | none => s
  | some p =>
    let s := s.passRun true ((p.stop - p.next) / unitSize p.next + 1)
    { s with dbm := { s.dbm with pass := none } }

/-- The running REPAIR. -/
def State.goRepair (s : State) : State :=
  let a := s.cmdRange.1
  match s.repairCode a with
  | some c => s.portEnd c
  | none => (s.repairAt a).endsWith 0

/-- The running KEY_RETIRE. -/
def State.goKeyRetire (s : State) : State :=
  let (c, s) := s.keyRetire (s.cmdArg 0)
  if c = 0 then s.endsWith 0 else s.portEnd c

/-- FILL (R166, R546). -/
def execFill (lamp : Bool) (base : Addr) (len : BitVec 64) (pattern : Word) (s : State) : Out :=
  .next (s.portGo lamp 6 (portArgs 0 0 base len pattern) State.goFill)

/-- SCRUB_RANGE (R167, R168, R546). -/
def execScrubRange (lamp : Bool) (base : Addr) (len : BitVec 64) (errs : MemErrs) (s : State) : Out :=
  .next (s.portGo lamp 5 (portArgs 0 0 base len 0) fun s => s.goScrub errs)

/-- REPAIR (R169, R546). -/
def execRepair (lamp : Bool) (addr : Addr) (s : State) : Out :=
  .next (s.portGo lamp 7 (portArgs 0 0 addr 0 0) State.goRepair)

/-- KEY_RETIRE (R199, R546). -/
def execKeyRetire (lamp : Bool) (keyId : Word) (s : State) : Out :=
  .next (s.portGo lamp 8 (portArgs keyId 0 0 0 0) State.goKeyRetire)

/-- UNKNOWN_OPCODE (R545, R547): a GO write with an opcode that the port does not know ends with 0x2B. -/
def execUnknownOpcode (lamp : Bool) (op : BitVec 8) (s : State) : Out :=
  .next (if opKnown op.toNat then s else s.portGo lamp op.toNat (s.bankArgs lamp) fun s => s)

/-- COMMAND_END (R545): the running command has come to its end; a pass over a range ends when its range is done. -/
def execCommandEnd (s : State) : Out :=
  .next (match s.hif.endCode with
    | some c => if s.hif.busy && s.passOver then s.passFinish.portEnd c.toNat else s
    | none => s)

end Sys2Proof.Machine
end

