-- ==== Sys2Proof/Machine/Loads.lean ====
section
/-! DEFINITION. Loading configuration streams (17_configuration, R469–R480): from the NV die, over the test port and at
start-up (R435–R438), and their apply; programming and erasing the NV die. -/

namespace Sys2Proof.Machine

-- the NV die's reads (R467, R488 detector 18)

/-- An NV read: its first 64 bits take an injected pattern. -/
def State.nvRead (s : State) (a n : Nat) : List Byte × Bool × State :=
  let (p, s) := s.inject 18 0 a
  match p with
  | none => (s.nvBytes a n, false, s)
  | some x =>
    let bs := s.nvBytes a n
    ((List.range (min 8 n)).map (fun i => bs.getD i 0 ^^^ BitVec.ofNat 8 (x >>> (8 * i))) ++ bs.drop 8, true, s)

-- refusals (R472)

/-- A load, a test-port load or a restore is in progress (R470). -/
def State.loadBusy (s : State) : Bool :=
  s.cfg.staged.isSome || s.cfg.tpActive || s.su.dieBusy || (List.range 4).any fun d => s.dieState d == 1

/-- A load's result is recorded and the controller is idle again. -/
def State.loadResult (s : State) (type src region code : Nat) : State :=
  let tp := src == 2
  let c := s.cfg
  { s with cfg := { c with
    staged := none,
    state := 0,
    tp := false,
    lastCode := BitVec.ofNat 8 code,
    lastType := BitVec.ofNat 2 type,
    lastTp := tp,
    lastRegion := BitVec.ofNat 6 region,
    stream := if tp then [] else c.stream,
    tpActive := if tp then false else c.tpActive,
    tpCode := if tp then BitVec.ofNat 8 code else c.tpCode } }

/-- A load is refused: it is counted for its source, and a command ends (R472). -/
def State.loadRefused (s : State) (type src region code : Nat) : State :=
  let s := (s.loadResult type src region code).count (cn 14 1) hub src 1
  if src = 1 then s.portEnd code else s

/-- A request that finds another load running is refused, and the load that runs goes on (R470). -/
def State.loadTurnedAway (s : State) (src : Nat) : State :=
  let s := s.count (cn 14 1) hub src 1
  if src = 1 then s.portEnd 0x3F else { s with cfg := { s.cfg with tpCode := 0x3F } }

-- staging (R471 steps 1–5)

/-- The start of a FULL or FIRMWARE staging takes the whole region and a fresh slot-15 key (R201, R472, R475). -/
def State.freshStaging (s : State) : State :=
  let s := s.freshKey 15
  let s := { s with
    su := { s.su with restoreOk := false },
    cfg := { s.cfg with copy := {}, parts := [] } }
  s.emptySlots

/-- Bytes that the partial store holds with a region's earlier image removed. -/
def State.partBytes (s : State) (region : Nat) : Nat :=
  ((s.cfg.parts.filter fun p => p.region.toNat != region).map fun p => p.bytes).sum

/-- The partial store has room for a staged image (R475). -/
def State.partFits (s : State) (x : Staged) : Bool :=
  match x.part with
  | some p => decide (s.partBytes x.region.toNat + p.bytes ≤ 112 * mib)
  | none => true

/-- A stream whose header has passed: staged and verified, or refused with a code. -/
def State.verify (s : State) (hdr body tag : List Byte) (x : Staged) (nvOk : Bool) : Option Nat × State :=
  let s := if x.type = 1 then s else s.freshStaging
  if nvOk = false then (some 0x18, s)
  else
    let (p, s) := s.inject 19 0 x.slot
    let s := s.stageWrite (body.length + tag.length)
    match s.checkBody hdr body tag x p.isSome with
    | .inl c => (some c, s)
    | .inr y =>
      -- decrypted in place
      let s := (s.stageRead body.length).stageWrite body.length
      if s.partFits y = false then (some 0x27, s)
      else
        (none, { s with cfg := { s.cfg with staged := some y, state := 3, type := y.type, tp := y.src == 2 } })

/-- A stream in an NV slot staged and verified, or refused with a code. -/
def State.stage (s : State) (type src slot region : Nat) (nvOk : Bool) : Option Nat × State :=
  match nvTarget (slotKind type) slot with
  | none => (some 0x10, s)
  | some (off, size) =>
    let (hdr, _, s) := s.nvRead off 256
    match s.headerCode hdr { type := type, region := region, size := size } with
    | some c => (some c, s)
    | none =>
      let n := numAt hdr 16 8
      let x : Staged := { type := BitVec.ofNat 2 type, src := BitVec.ofNat 2 src, slot := slot, region := BitVec.ofNat 6 region }
      s.verify hdr (s.nvBytes (off + 256) n) (s.nvBytes (off + 256 + n) 48) x nvOk

/-- The package is quiet (R473). -/
def State.quiet (s : State) : Bool :=
  ((List.range 4).all fun d => !s.anyLaneEn d) && !s.rb .mrgCtrl [] 0 && !s.glintBusy

/-- CFG_PREG word 0 of region r. -/
def State.pregWord (s : State) (r : Nat) : Word := (Tbl.get (0, 0) s.cfg.preg (r - 1)).1

/-- The die of a partial region is out, or its quadrant is off (code 0x26). -/
def State.regionDark (s : State) (r : Nat) : Bool :=
  let (d, c0, _, r0, _) := pregRect (s.pregWord r)
  s.dieOut d || !s.live (domDie d (c0 / 4 + 2 * (r0 / 3)))

/-- The running LOAD_IMAGE (R473). -/
def State.goLoadImage (s : State) (nvOk : Bool) : State :=
  let slot := s.cmdArg 0
  if s.loadBusy then s.loadTurnedAway 1
  else if 3 < slot then s.loadRefused 0 1 0 0x10
  else if s.quiet = false then s.loadRefused 0 1 0 0x25
  else
    match s.stage 0 1 slot 0 nvOk with
    | (some c, s) => s.loadRefused 0 1 0 c
    | (none, s) => s

/-- The running LOAD_PARTIAL (R474). -/
def State.goLoadPartial (s : State) (nvOk : Bool) : State :=
  let slot := s.cmdArg 0
  let r := s.cmdArg 1
  if s.loadBusy then s.loadTurnedAway 1
  else if 63 < slot ∨ r = 0 ∨ 32 < r then s.loadRefused 1 1 r 0x10
  else if bitOf (s.pregWord r) 2 = false then s.loadRefused 1 1 r 0x20
  else if s.regionDark r then s.loadRefused 1 1 r 0x26
  else
    match s.stage 1 1 slot r nvOk with
    | (some c, s) => s.loadRefused 1 1 r c
    | (none, s) => s

/-- LOAD_IMAGE (R473, R546): `nvOk` tells that every read of the NV die and of staging is good. -/
def execLoadImage (lamp : Bool) (slot : Word) (nvOk : Bool) (s : State) : Out :=
  .next (s.portGo lamp 1 (portArgs slot 0 0 0 0) fun s => s.goLoadImage nvOk)

/-- LOAD_PARTIAL (R474, R546). -/
def execLoadPartial (lamp : Bool) (slot region : Word) (nvOk : Bool) (s : State) : Out :=
  .next (s.portGo lamp 2 (portArgs slot region 0 0 0) fun s => s.goLoadPartial nvOk)

-- start-up (R435–R438)

/-- A phase ends (R435); its time is a free value (log entry 1). -/
def State.phaseEnds (s : State) (i : Nat) : State :=
  if bitOf s.su.ended i then s
  else
    let (t, s) := s.free 32
    { s with su := { s.su with ended := setBit s.su.ended i true, marks := Tbl.set 0 s.su.marks i t } }

/-- A boot slot is refused (R437): one record, its code in RST_BOOT. -/
def State.bootRefused (s : State) (type slot code : Nat) : State :=
  let s := (s.loadRefused type 0 0 code).offer .hub 19 0 1 (BitVec.ofNat 8 code) (Config.syndrome 19 code slot)
    (BitVec.ofNat 48 slot) false
  let b := s.su.boot.toNat
  let lo := if type = 0 then 8 else 16
  { s with su := { s.su with boot := BitVec.ofNat 24 (b - fld s.su.boot lo 8 * 2 ^ lo + code * 2 ^ lo) } }

/-- The image slots tried in order (R437): the slot's place in the list tells a fallback. -/
def State.tryImages (s : State) : Nat → List Nat → State
  | _, [] => ({ s with su := { s.su with boot := setBit s.su.boot 3 true } }).phaseEnds 5
  | i, slot :: t =>
    match s.stage 0 0 slot 0 true with
    | (some c, s) => (s.bootRefused 0 slot c).tryImages (i + 1) t
    | (none, s) =>
      let b := s.su.boot.toNat
      { s with su := { s.su with boot := BitVec.ofNat 24 (b - b % 8 + slot % 4 + 4 * b2n (decide (0 < i))) } }

/-- IMAGE starts when FIRMWARE and BRIDGES have both ended (R435). -/
def State.startImage (s : State) : State :=
  if bitOf s.su.ended 4 && bitOf s.su.ended 3 && !bitOf s.su.ended 5 && s.cfg.staged.isNone then s.tryImages 0 s.su.bootImg
  else s

/-- The load part copied to Lamp SRAM from word i on. -/
def State.loadSram (s : State) : Nat → Nat → List Byte → State
  | 0, _, _ => s
  | n + 1, i, bs => (s.writeLocal lampCore false i (BitVec.ofNat 32 (numAt bs 0 4))).loadSram n (i + 1) (bs.drop 4)

/-- The firmware slots tried in order (R437, R478). -/
def State.tryFirmware (s : State) (nvOk : Bool) : Nat → List Nat → State
  | _, [] => { s with su := { s.su with boot := setBit s.su.boot 6 true } }
  | i, slot :: t =>
    match s.stage 2 0 slot 0 nvOk with
    | (some c, s) => (s.bootRefused 2 slot c).tryFirmware nvOk (i + 1) t
    | (none, s) =>
      let fw := match s.cfg.staged with
        | some x => x.fw
        | none => ([], [])
      let s := (s.loadResult 2 0 0 0).count (cn 14 0) hub 2 1
      let s := { s with cfg := { s.cfg with fwRes := fw.2 } }
      let s := s.loadSram (fw.1.length / 4) 0 fw.1
      { s with
        wdg := { s.wdg with lampReset := false },
        su := { s.su with
          fwOk := true,
          boot := setBit (setBit s.su.boot 4 (slot == 1)) 5 (decide (0 < i)) } }

/-- FIRMWARE_LOADED (R435, R437, R478): phase FIRMWARE ends; `nvReadable` tells that the NV die and staging read well. -/
def execFirmwareLoaded (nvReadable : Bool) (s : State) : Out :=
  .next (if bitOf s.su.ended 2 && !bitOf s.su.ended 4 && s.on domLMP then
    (((s.tryFirmware nvReadable 0 s.su.bootFw).phaseEnds 4).startImage)
  else s)

-- apply (R473, R474)

/-- A die's domain is reset by an apply (R444, R473 step 2). -/
def State.resetFor (s : State) (dom : Nat) : State :=
  let s := (s.fenceOne dom).loseDomain dom
  let s := if s.on dom then s else s.domainOn dom
  let s := { s with pw := { s.pw with ecl := Tbl.set none s.pw.ecl dom none } }
  (s.setFenced dom false).setIsolated dom false

/-- A FULL image applied to one die (R473 steps 2, 3 and 5). -/
def State.applyDie (s : State) (img : Image) (d : Nat) : State :=
  if s.dieOut d then s
  else
    let s : State := upTo (fun i s => s.resetFor (domDie d i)) 8 s
    let s := s.putDieImage d (img.frames.filter fun e => e.1 / 344064 == d) (Tbl.get [] img.sets d)
    s.wsuRejoin d

/-- A verified full image is applied (R473). -/
def State.applyImage (s : State) (x : Staged) : State :=
  let img := x.image
  let s : State := upTo (fun d s => s.applyDie img d) 4 (s.stageRead img.bytes)
  let s := s.applyHub (Tbl.get [] img.sets 4)
  let s := (s.loadResult 0 x.src.toNat 0 0).count (cn 14 0) hub 0 1
  let s := { s with
    cfg := { s.cfg with copy := img, parts := [], imgId := img.imgId },
    su := { s.su with imgOk := true, restoreOk := true } }
  if x.src = 1 then s.endWith 1 0 else s.phaseEnds 5

/-- IMAGE_APPLY (R473). -/
def execImageApply (s : State) : Out :=
  .next (match s.cfg.staged with
    | some x => if x.type = 0 then s.applyImage x else s
    | none => s)

/-- Pane RAM initial contents that a partial image carries (R313, R457): every block of a clock region whose content frames
it writes takes new ones, whose values are free (log entry 1). -/
def State.partPane (s : State) (d : Nat) (frames : List (Nat × Frame)) : State :=
  let hit (b : Nat) : Bool :=
    let q := b / 480
    let (c, r) := Config.paneRegion (b % 480)
    frames.any fun e => keyCol e.1 / 56 == q % 2 * 4 + c.val && keyRow e.1 == q / 2 * 3 + r.val &&
      decide (50 ≤ keyCol e.1 % 56 ∧ keyCol e.1 % 56 ≤ 53)
  ((List.range 1920).filter hit).foldl (fun s b =>
    let f := s.fab d
    let n := s.freeCtr
    ({ s with freeCtr := n + 2048 }).setFab d { f with
      pane := outside (paneKey b 0) (paneKey (b + 1) 0) f.pane,
      paneErr := outside (paneKey b 0) (paneKey (b + 1) 0) f.paneErr,
      paneFrom := Tbl.set none f.paneFrom (paneOver b) (some n) }) s

/-- The port groups of a mask are detached (R319, R474 step 2); group 2's ports of the region's quadrant. -/
def State.detachGroups (s : State) (d mask : Nat) : State :=
  upTo (fun p s => if mask.testBit p then s.wr .portSel [d, p] (setBit (s.rd .portSel [d, p]) 5 false) else s) 6 s

/-- A verified partial image is applied (R474). -/
def State.applyPart (s : State) (x : Staged) (p : PartImage) : State :=
  let r := x.region.toNat
  let (d, c0, c1, r0, r1) := pregRect (s.pregWord r)
  let s := s.setFab d ((s.fab d).restart fun x => decide (c0 ≤ x.1 ∧ x.1 ≤ c1 ∧ r0 ≤ x.2 ∧ x.2 ≤ r1))
  let s := s.detachGroups d (Tbl.get (0, 0) s.cfg.preg (r - 1)).2.toNat
  let s := { s with cfg := { s.cfg with
    frames := putFrames s.cfg.frames p.frames,
    codeErr := s.cfg.codeErr.filter fun e => !p.frames.any fun f => f.1 == e.1 } }
  let s := (s.partPane d p.frames).stageRead p.bytes
  let s := (s.loadResult 1 x.src.toNat r 0).count (cn 14 0) hub 1 1
  let s := { s with cfg := { s.cfg with parts := (s.cfg.parts.filter fun y => y.region != p.region) ++ [p] } }
  if x.src = 1 then s.endWith 2 0 else s

/-- PARTIAL_APPLY (R474). -/
def execPartialApply (s : State) : Out :=
  .next (match s.cfg.staged with
    | some x =>
      match x.part with
      | some p => if x.type = 1 then s.applyPart x p else s
      | none => s
    | none => s)

-- test-port loads (R477)

/-- A test-port load ends with a code before its apply. -/
def State.tpEnds (s : State) (code : Nat) : State :=
  let region := match s.cfg.staged with
    | some x => x.region.toNat
    | none => if s.cfg.stream.length < 64 then 0 else ((s.cfg.stream.getD 2 0).toNat / 65536) % 64
  s.loadRefused 1 2 region code

/-- The bytes of a test-port stream so far. -/
def State.tpBytes (s : State) : List Byte := s.cfg.stream.flatMap fun w => bytesOf w.toNat 4

/-- The code that a whole header over the test port is refused with (R472, R477). -/
def State.tpHeader (s : State) (hdr : List Byte) : Option Nat :=
  let r := numAt hdr 10 1
  match s.headerCode hdr { type := 1, region := r, size := 2 ^ 64 } with
  | some c => some c
  | none =>
    if r = 0 ∨ 32 < r then some 0x10
    else if bitOf (s.pregWord r) 2 = false then some 0x20
    else if bitOf (s.pregWord r) 3 = false then some 0x23
    else if s.regionDark r then some 0x26
    else none

/-- The last word of a test-port stream has arrived. -/
def State.tpWhole (s : State) : State :=
  let bs := s.tpBytes
  let hdr := bs.take 256
  let n := numAt hdr 16 8
  let x : Staged := { type := 1, src := 2, slot := 0, region := BitVec.ofNat 6 (numAt hdr 10 1) }
  match s.verify hdr (bytesAt bs 256 n) (bytesAt bs (256 + n) 48) x true with
  | (some c, s) => s.tpEnds c
  | (none, s) => s

/-- One word of a test-port stream: the first starts a load, the 64th ends the header, the last starts the checks. -/
def State.tpWord (s : State) (w : Word) : State :=
  if s.cfg.tpActive = false then
    if s.loadBusy then s.loadTurnedAway 2
    else { s with cfg := { s.cfg with tpActive := true, tp := true, type := 1, state := 1, stream := [w], tpCode := 0 } }
  else if s.cfg.staged.isSome then s
  else
    let s := { s with cfg := { s.cfg with stream := s.cfg.stream ++ [w] } }
    let k := s.cfg.stream.length
    let bs := s.tpBytes
    let hdr := bs.take 256
    if k < 64 then s
    else
      match (if k = 64 then s.tpHeader hdr else none) with
      | some c => s.tpEnds c
      | none => if 256 + numAt hdr 16 8 + 48 ≤ 4 * k then s.tpWhole else s

/-- STREAM_TIMEOUT (R477): before the last word arrives. -/
def execStreamTimeout (s : State) : Out :=
  .next (if s.cfg.tpActive && s.cfg.staged.isNone then s.tpEnds 0x24 else s)

/-- The debug level has been lowered during a test-port load (R477). -/
def State.tpLevelLost (s : State) : State := if s.cfg.tpActive && s.cfg.tp then s.tpEnds 0x23 else s

-- the NV die's commands (R469, R548)

/-- An NV target from ARG0: its key, offset and size. -/
def State.targetOf (s : State) : Option (Nat × Nat × Nat) :=
  let a := s.cmdArg 0
  (nvTarget (a % 16) (a / 16 % 256)).map fun x => (a % 16 * 64 + a / 16 % 256, x)

/-- The firmware slot that the Lamp runs from. -/
def State.fwTarget (s : State) (key : Nat) : Bool := s.su.fwOk && key == 2 * 64 + fld s.su.boot 4 1

/-- Bytes stored in the NV die. -/
def nvPut (t : Tbl Byte) (a : Nat) : List Byte → Tbl Byte
  | [] => t
  | b :: r => nvPut (Tbl.set 0xFF t a b) (a + 1) r

/-- A failed operation leaves each byte of a target open; the target must be erased (R548). -/
def State.nvSpoilt (s : State) (off size : Nat) (marked : Nat) : State :=
  let (v, s) := s.free (8 * size)
  { s with nv := { s.nv with
    mem := nvPut s.nv.mem off (bytesOf v.toNat size),
    used := Tbl.set false s.nv.used marked true } }

/-- The running NV_PROGRAM (R548). -/
def State.goNvProgram (s : State) (errs : MemErrs) (res : NvOutcome) : State :=
  let src := s.cmdArg 2 + 4294967296 * (s.cmdArg 3 % 65536)
  let len := s.cmdArg 4
  match s.targetOf with
  | none => s.portEnd 0x2D
  | some (key, off, size) =>
    if key / 64 = 5 ∨ s.fwTarget key = true then s.portEnd 0x2D
    else if Tbl.get false s.nv.used key then s.portEnd 0x2E
    else if len = 0 ∨ size < len ∨ len % 4 ≠ 0 ∨ src % 4 ≠ 0 then s.portEnd 0x2F
    else
      let (x, t) := s.memRead cfgReq src len errs
      if x.any ByteRes.denied then s.portEnd 0x2F
      else if x.any (fun b => b.byte?.isNone) || res == .sourceFailed then (t.nvSpoilt off size key).endsWith 0x48
      else if res == .verifyFailed then (t.nvSpoilt off size key).endsWith 0x49
      else
        ({ t with nv := { t.nv with
          mem := nvPut t.nv.mem off (x.filterMap ByteRes.byte?),
          used := Tbl.set false t.nv.used key true } }).endsWith 0

/-- The running NV_ERASE (R548); an erase of the Dark Record area resets its sequence number (R532). -/
def State.goNvErase (s : State) (res : NvOutcome) : State :=
  match s.targetOf with
  | none => s.portEnd 0x2D
  | some (key, off, size) =>
    if s.fwTarget key then s.portEnd 0x2D
    else
      let s := { s with nv := { s.nv with erases := Tbl.set 0 s.nv.erases key (Tbl.get 0 s.nv.erases key + 1) } }
      if res == .eraseFailed then (s.nvSpoilt off size key).endsWith 0x4A
      else
        let s := { s with
          nv := { s.nv with mem := outside off (off + size) s.nv.mem, used := Tbl.set false s.nv.used key false },
          dbg := if key / 64 = 5 then { s.dbg with drSeq := 0 } else s.dbg }
        s.endsWith 0

/-- NV_PROGRAM (R469, R546, R548): `res` tells what the NV die reports. -/
def execNvProgram (lamp : Bool) (target : Word) (src : Addr) (len : Word) (errs : MemErrs) (res : NvOutcome) (s : State) : Out :=
  .next (s.portGo lamp 3 (portArgs target 0 src (len.setWidth 64) 0) fun s => s.goNvProgram errs res)

/-- NV_ERASE (R469, R546, R548). -/
def execNvErase (lamp : Bool) (target : Word) (res : NvOutcome) (s : State) : Out :=
  .next (s.portGo lamp 4 (portArgs target 0 0 0 0) fun s => s.goNvErase res)

-- keys and firmware reads (R478, R479, R485)

/-- A write of CFG_BBRAM_CTRL (R479). -/
def State.bbramCtrl (s : State) (v : Word) : State :=
  let c := s.cfg
  let s :=
    if bitOf v 0 then
      match (List.range 8).map fun i => Tbl.get none c.bbWritten i with
      | [some a, some b, some d, some e, some f, some g, some h, some i] =>
        { s with cfg := { c with bbKey := some [a, b, d, e, f, g, h, i], bbWritten := [] } }
      | _ => s
    else s
  if bitOf v 1 then { s with cfg := { s.cfg with bbKey := none, bbWritten := [] } } else s

/-- The configuration registers' writers (R479): the host and the Lamp. -/
def hostOrLamp (r : Req) : Bool := r.cls == .host || r.cls == .lamp

/-- BBRAM_COMMIT (R479, R485). -/
def execBbramCommit (r : Req) (s : State) : Out :=
  .next (if s.on domCFG then s.guarded r fun s => if hostOrLamp r then s.bbramCtrl 1 else s.vio 80 else s)

/-- BBRAM_ZEROISE (R479, R485). -/
def execBbramZeroise (r : Req) (s : State) : Out :=
  .next (if s.on domCFG then s.guarded r fun s => if hostOrLamp r then s.bbramCtrl 2 else s.vio 80 else s)

/-- The word of the resource part at an offset (R478). -/
def State.fwWord (s : State) : Word := BitVec.ofNat 32 (numAt s.cfg.fwRes s.cfg.fwOfs.toNat 4)

/-- A read of CFG_FW_DATA (R478); a debugger's read without effects leaves the offset. -/
def State.fwDataRead (s : State) (quiet : Bool) : Word × State :=
  (s.fwWord, if quiet then s else { s with cfg := { s.cfg with fwOfs := s.cfg.fwOfs + 4 } })

/-- CFG_FW_DATA_READ (R478). -/
def execCfgFwDataRead (r : Req) (quiet : Bool) (s : State) : Out :=
  .next (s.byReq r fun s => if s.on domCFG then
    let (w, s) := s.fwDataRead quiet
    s.answer r (.word w)
  else s)

-- Mirror (R481, R482)

/-- A frame rewritten with its code from the restore copy and its partial images (R482). -/
def State.frameRepair (s : State) (k : Nat) : State :=
  let here (l : List (Nat × Frame)) : List (Nat × Frame) := l.filter fun e => e.1 == k
  let fs := here s.cfg.copy.frames ++ s.cfg.parts.flatMap fun p => here p.frames
  { s with cfg := { s.cfg with
    frames := putFrames (Tbl.set (0, false) s.cfg.frames k (0, false)) fs, codeErr := Tbl.set 0 s.cfg.codeErr k 0 } }

/-- What one changed bit of a stored frame adds to the difference of its code (R458). -/
def bitError (i : Nat) : BitVec 16 :=
  if i < 8192 then BitVec.ofNat 16 (hamPos i + 16384 * ((1 + popCount (hamPos i) 14) % 2)) else BitVec.ofNat 16 (2 ^ (i - 8192))

/-- A frame's payload with bits changed. -/
def flipBits (w : BitVec 8192) (bits : List Nat) : BitVec 8192 :=
  bits.foldl (fun w i => if i < 8192 then w ^^^ BitVec.twoPow 8192 i else w) w

/-- Bits of a stored frame change. -/
def State.frameFlip (s : State) (k : Nat) (bits : List Nat) : State :=
  let f := Tbl.get ((0, false) : Frame) s.cfg.frames k
  let e := bits.foldl (fun e i => e ^^^ bitError i) (Tbl.get 0 s.cfg.codeErr k)
  { s with cfg := { s.cfg with
    frames := Tbl.set (0, false) s.cfg.frames k (flipBits f.1 bits, f.2), codeErr := Tbl.set 0 s.cfg.codeErr k e } }

/-- What Mirror finds in a frame (R481). -/
inductive Finding where
  | clean
  | payload (j : Nat)
  | code (k : Nat)
  | multi
  deriving DecidableEq, Repr

/-- The comparison of R481, from what the stored code differs in from the computed one: s and a are differences of code bits,
and q is the difference of stored[14:0] in parity. -/
def finding (e : BitVec 16) : Finding :=
  let s := e.toNat % 16384
  let q := popCount e.toNat 15 % 2
  let a := bitOf e 15
  if s = 0 ∧ q = 0 ∧ a = false then .clean
  else if q = 1 ∧ a = false then
    if s = 0 then .code 14
    else
      match (List.range 14).find? fun k => s == 2 ^ k with
      | some k => .code k
      | none =>
        let j := s - 3 - powersTo s
        if hamPos j = s ∧ j < 8192 then .payload j else .multi
  else if q = 0 ∧ s = 0 then .code 15
  else .multi

/-- A multi-bit frame (R482). -/
def State.mirrorUe (s : State) (d k : Nat) (inj : Bool) : State :=
  let a := frameAddr k
  let s := (s.count (cn 14 4) hub d 1).offer (.die d) 20 d 1 (Config.detCode 20 1) (Config.syndrome 20 1 k) (a.setWidth 48) inj
  let s := { s with cfg := { s.cfg with mirLast := a } }
  match s.rf .mirCtrl [] 1 2 with
  | 1 => if s.su.restoreOk then (s.frameRepair k).count (cn 14 5) hub d 1 else s
  | 2 =>
    -- PMG_ECL_LAST gives no code for this cause: a free value (log entry 1)
    let (c, s) := s.free 3
    s.fenceDie d c
  | _ => s

/-- A single-bit frame (R482): bit i, a payload bit or a code bit, is rewritten in place. -/
def State.mirrorCe (s : State) (d k i : Nat) (inj : Bool) : State :=
  ((s.frameFlip k [i]).count (cn 14 3) hub d 1).offer (.die d) 20 d 0 (Config.detCode 20 0) (Config.syndrome 20 0 k)
    ((frameAddr k).setWidth 48) inj

/-- Mirror reads a die's frame index (R481): the die is not out, its quadrant is on, the frame is checked and is not being
written. -/
def State.mirrorReads (s : State) (d i : Nat) : Bool :=
  let k := d * 344064 + i
  let vol := (Tbl.get ((0, false) : Frame) s.cfg.frames k).2
  let written : Bool := match s.cfg.staged with
    | some x => if x.type = 1 then inRegion (s.pregWord x.region.toNat) k else true
    | none => false
  decide (i < 344064) && !s.dieOut d && s.live (domDie d (frameQuad k)) && mirrored k vol && !written

/-- Mirror reads one frame and handles what it finds; `inj` tells that an injection changed it. -/
def State.mirrorFrame (s : State) (k : Nat) (inj : Bool) : State :=
  let d := k / 344064
  if s.mirrorReads d (k % 344064) then
    match finding (Tbl.get 0 s.cfg.codeErr k) with
    | .clean => s
    | .payload j => s.mirrorCe d k j inj
    | .code i => s.mirrorCe d k (8192 + i) inj
    | .multi => s.mirrorUe d k inj
  else s

/-- Frames read in order. -/
def State.mirrorFrames (s : State) (inj : Option Nat) : List Nat → State
  | [] => s
  | k :: t => (s.mirrorFrame k (inj == some k)).mirrorFrames inj t

/-- Bits of stored frames have changed since the last pass; frames of a quadrant that is off, and settings frames, are not
stored. -/
def State.upsets (s : State) : List FrameUpset → State
  | [] => s
  | u :: t =>
    let k := u.die.val * 344064 + u.index
    (if decide (u.index < 344064) && s.on (domDie u.die.val (frameQuad k)) && !isSettings k then
      s.frameFlip k (u.bits.map fun b => b.val) else s).upsets t

/-- Bits that an injected pattern changes in group w of a stored frame (R488). -/
def injectedBits (w pat : Nat) : List Nat :=
  ((List.range (if w = 128 then 16 else 64)).filter fun j => decide (w ≤ 128) && pat.testBit j).map fun j => 64 * w + j

/-- An injection into a stored frame fires as the pass reads it (R488, R499); the frame that it changed. -/
def State.mirrorInject (s : State) : Option Nat × State :=
  let sel := s.rd .fltInjSel []
  let d := fld sel 6 10
  let a := BitVec.ofNat 32 (s.rd64 .fltInjAddr [])
  match frameKey a with
  | none => (none, s)
  | some k =>
    if k / 344064 ≠ d ∨ s.mirrorReads d (k % 344064) = false then (none, s)
    else
      match s.inject 20 d a.toNat with
      | (some p, s) => (some k, s.frameFlip k (injectedBits (fld sel 16 9) p))
      | (none, s) => (none, s)

/-- MIRROR_PASS (R481, R482): one whole pass over frames of which some bits have changed since the last, in frame-index order,
one die after another, and how long it took. -/
def execMirrorPass (upsets : List FrameUpset) (micros : Nat) (s : State) : Out :=
  .next (if s.on domCFG && s.on domSPN && s.rb .mirCtrl [] 0 then
    let s := { s with cfg := { s.cfg with mirSkipping := s.cfg.staged.isSome } }
    let (inj, s) := (s.upsets upsets).mirrorInject
    let s := (s.mirrorFrames inj (s.cfg.codeErr.map fun e => e.1)).count (cn 14 2) hub 0 1
    { s with cfg := { s.cfg with mirPassUs := BitVec.ofNat 32 (satNat micros (2 ^ 32 - 1)), mirDie := 3, mirActive := false } }
  else s)

end Sys2Proof.Machine
end

