-- ==== Sys2Proof/Machine/Bridge.lean ====
section
/-! DEFINITION. Bexzil bridges (12_bexzil_bridges, R335–R357): training, spares, replay and live retrain. -/

namespace Sys2Proof.Machine

-- wires and sweeps (R340–R343)

/-- Clean steps from a start on, cyclically modulo 64. -/
def cleanFrom (m : BitVec 64) (start : Nat) : Nat → Nat
  | 0 => 0
  | n + 1 => if bitOf m (start % 64) then 1 + cleanFrom m (start + 1) n else 0

/-- The longest clean run of a sweep: (start, length), the lowest start on ties (R342). -/
def cleanRun (m : BitVec 64) : Nat × Nat :=
  if m = BitVec.allOnes 64 then (0, 64)
  else (List.range 64).foldl (fun best p =>
    if bitOf m p && !bitOf m ((p + 63) % 64) && decide (best.2 < cleanFrom m p 64) then (p, cleanFrom m p 64) else best) (0, 0)

/-- A wire after its sweep (R342): a run of at least 16 gives its delay, a shorter one marks it bad. -/
def WireSt.sweep (w : WireSt) (m : BitVec 64) : WireSt :=
  let (start, len) := cleanRun m
  if 16 ≤ len then
    { w with delay := BitVec.ofNat 6 ((start + (len - 1) / 2) % 64), run := BitVec.ofNat 7 len, bad := false }
  else { w with run := BitVec.ofNat 7 len, bad := true }

/-- What an unlisted wire is: swept clean throughout, or never swept. -/
def Bridge.wireBase (b : Bridge) : WireSt := if b.swept then ({} : WireSt).sweep (BitVec.allOnes 64) else {}

def Bridge.wire (b : Bridge) (k : Nat) : WireSt := Tbl.get b.wireBase b.wires k
def Bridge.setWire (b : Bridge) (k : Nat) (w : WireSt) : Bridge := { b with wires := Tbl.set b.wireBase b.wires k w }

/-- Key of the first wire of a direction; of a data wire, a spare and a clock wire. -/
def dirKey (dir : Bool) : Nat := 8192 * b2n dir
def dataKey (dir : Bool) (bundle wire : Nat) : Nat := dirKey dir + bundle * 128 + wire
def spareKey (dir : Bool) (k : Nat) : Nat := dirKey dir + 4096 + k
def clockKey (dir cks : Bool) : Nat := dirKey dir + 4100 + b2n cks

def Bridge.spare (b : Bridge) (dir : Bool) (k : Nat) : Spare := Tbl.get {} b.spares (4 * b2n dir + k)
def Bridge.setSpare (b : Bridge) (dir : Bool) (k : Nat) (x : Spare) : Bridge :=
  { b with spares := Tbl.set {} b.spares (4 * b2n dir + k) x }

/-- A wire's transfer shift: any value that the last DESKEW set is a free value (R341, R356; log entry 1). -/
def Bridge.shift (b : Bridge) (k : Nat) : BitVec 3 :=
  match (b.wire k).shift, b.shiftFrom with
  | some v, _ => v
  | none, some n => Config.freeValue 3 (n + k)
  | none, none => 0

/-- The sweep's findings on wires that satisfy a test. -/
def Bridge.sweepOn (b : Bridge) (p : Nat → Bool) : BridgeSweep → Bridge
  | [] => b
  | (k, m) :: t => (if p k then b.setWire k ((b.wire k).sweep m) else b).sweepOn p t

/-- Wires of a direction that satisfy a test return to what a clean sweep leaves, their error counts kept. -/
def Bridge.sweepClean (b : Bridge) (p : Nat → Bool) : Bridge :=
  let clean (e : Nat × WireSt) : Option (Nat × WireSt) :=
    if p e.1 then
      let w := e.2.sweep (BitVec.allOnes 64)
      if w = b.wireBase then none else some (e.1, w)
    else some e
  { b with wires := b.wires.filterMap clean }

-- spares (R343)

/-- A spare may take a wire: it is free and swept clean. -/
def Bridge.spareFree (b : Bridge) (dir : Bool) (k : Nat) : Bool :=
  !(b.spare dir k).valid && !(b.wire (spareKey dir k)).bad

/-- Spare k takes a data wire's place. -/
def Bridge.take (b : Bridge) (dir : Bool) (k bundle wire src : Nat) : Bridge :=
  b.setSpare dir k { b.spare dir k with
    bundle := BitVec.ofNat 5 bundle, wire := BitVec.ofNat 7 wire, source := BitVec.ofNat 2 src, valid := true }

/-- Spare k serves a data wire. -/
def Bridge.serves (b : Bridge) (dir : Bool) (k bundle wire : Nat) : Bool :=
  let x := b.spare dir k
  x.valid && x.bundle.toNat == bundle && x.wire.toNat == wire

/-- Some valid spare serves a data wire. -/
def Bridge.served (b : Bridge) (dir : Bool) (bundle wire : Nat) : Bool :=
  (List.range 4).any fun k => b.serves dir k bundle wire

/-- Wires take the lowest-numbered free spare in order; none where one finds no spare. -/
def Bridge.takeAll (b : Bridge) (dir : Bool) (src : Nat) (ok : Nat → Bool) : List (Nat × Nat) → Option Bridge
  | [] => some b
  | (bundle, wire) :: t =>
    if b.served dir bundle wire then b.takeAll dir src ok t
    else
      match (List.range 4).find? fun k => b.spareFree dir k && ok k with
      | some k => (b.take dir k bundle wire src).takeAll dir src ok t
      | none => none

/-- Data wires of a direction found bad, in order of bundle, then wire. -/
def Bridge.badData (b : Bridge) (dir : Bool) : List (Nat × Nat) :=
  (b.wires.filter fun e => decide (dirKey dir ≤ e.1 ∧ e.1 < dirKey dir + 4096) && e.2.bad).map fun e =>
    ((e.1 - dirKey dir) / 128, e.1 % 128)

/-- The bad marks of a direction's spares follow their sweep. -/
def Bridge.markSpares (b : Bridge) (dir : Bool) : Bridge :=
  upTo (fun k b => b.setSpare dir k { b.spare dir k with bad := (b.wire (spareKey dir k)).bad }) 4 b

/-- Fuse entries of a die's direction: (bundle, wire, spare), in fuse order. -/
def State.fuseSpares (s : State) (d : Nat) (dir : Bool) : List (Nat × Nat × Nat) :=
  s.brg.fuses.filterMap fun (die, fd, bundle, wire, k) => if die = d ∧ fd = dir then some (bundle, wire, k) else none

/-- Spares of one direction assigned at ASSIGN (R343); none where a bad data wire finds no spare. -/
def State.assignDir (s : State) (d : Nat) (b : Bridge) (dir : Bool) : Option Bridge :=
  let b := b.markSpares dir
  let b : Bridge := upTo (fun k b => b.setSpare dir k { bad := (b.spare dir k).bad }) 4 b
  let fused := s.fuseSpares d dir
  let b := fused.foldl (fun b (bundle, wire, k) =>
    if b.spareFree dir k then b.take dir k bundle wire 1 else b) b
  match b.takeAll dir 1 (fun _ => true) (fused.map fun (bundle, wire, _) => (bundle, wire)) with
  | some b => b.takeAll dir 2 (fun _ => true) (b.badData dir)
  | none => none

-- restores (R448)

/-- A die's restore ends with a code: the command's, or the reset request's. -/
def State.restoreEnds (s : State) (d code : Nat) : State :=
  if s.su.dieBusy ∧ s.rf .rstDieReq [] 0 2 = d then
    { s with su := { s.su with dieBusy := false, dieResult := BitVec.ofNat 8 code } }
  else if s.cmdArg 0 = d then s.endWith 10 code
  else s

/-- A restore fails (R448): the die is Eclipsed again and stays out. -/
def State.restoreFails (s : State) (d code : Nat) (cause : BitVec 3) : State :=
  let s := (s.restoreEnds d code).count (cn 13 1) hub d 1
  (s.setDieState d 0).fenceDie d cause

-- training (R341–R344, R350–R353)

/-- A bridge's fault record (R344, R346, R488 detector 9): the hub's end. -/
def State.brgRecord (s : State) (d : Nat) (dir : Bool) (cls cause addr : Nat) (inj : Bool) : State :=
  s.offer .hub 9 (2 * d + b2n dir) cls (Config.detCode 9 cause) (Config.syndrome 9 cause addr) (BitVec.ofNat 48 addr) inj

/-- BRIDGES ends when every bridge is UP or FAILED; the package level is fixed (R352, R435). -/
def State.bridgesSettled (s : State) : State :=
  let settled (d : Nat) : Bool := (s.bridge d).state == 7 || (s.bridge d).state == 9
  if !bitOf s.su.ended 3 && (List.range 4).all settled then
    let lv (d : Nat) : Nat :=
      match (s.bridge d).firstWord with
      | some w => max 1 (fld w 8 2)
      | none => 1
    let level := (List.range 4).foldl (fun m d => min m (lv d)) 2
    ({ s with brg := { s.brg with level := BitVec.ofNat 2 level } }.phaseEnds 3).startImage
  else s

/-- Training ends in FAILED (R344, R348): causes 0 no clock, 1 too many bad wires, 2 tries exhausted, 3 capability word. -/
def State.trainingFails (s : State) (d : Nat) (dir : Bool) (cause : Nat) : State :=
  let s := (s.setBridge d { s.bridge d with state := 9 }).brgRecord d dir 1 cause 0 false
  if s.dieState d = 1 then s.restoreFails d (if cause = 3 then 0x45 else 0x44) 4 else s.bridgesSettled

/-- SWEEP is entered: another try (R341). -/
def State.sweepEnter (s : State) (d : Nat) : State :=
  let b := s.bridge d
  s.setBridge d { b with state := 2, tries := b.tries + 1 }

/-- DESKEW, EXCHANGE or VERIFY failed: another try, up to three (R341). -/
def State.tryAgain (s : State) (d : Nat) (dir : Bool) : State :=
  if (s.bridge d).tries.toNat < 3 then s.sweepEnter d else s.trainingFails d dir 2

/-- UP is entered at a start: the die runs; in a restore RESTORE_COMPLETE ends the fence of the other domains. -/
def State.trainedUp (s : State) (d : Nat) : State :=
  let s := (s.setBridge d { s.bridge d with state := 7 }).domainStarted (domBRG d)
  let s := { s with noc := { s.noc with dieEpoch := setBit s.noc.dieEpoch d s.noc.active } }
  if s.dieState d = 1 then s else (s.setDieState d 2).bridgesSettled

/-- BRIDGE_TRAINING (R341): DOWN is left once BRG is on and both spine PLLs are locked. -/
def execBridgeTraining (die : Die) (s : State) : Out :=
  let d := die.val
  let b := s.bridge d
  .next (if s.on (domBRG d) && s.on domSPN && b.state == 0 && bitOf s.clk.locked d && bitOf s.clk.locked 4 then
    s.setBridge d { b with state := 1, tries := 0 }
  else s)

/-- A sweep of every wire of both directions (R342). -/
def Bridge.sweepAll (b : Bridge) (sweep : BridgeSweep) : Bridge :=
  let b := { b with swept := true, wires := [] }
  let b := b.sweepOn (fun k => decide (k < 16384 ∧ k % 8192 < 4100)) sweep
  let b := if b.upCks then b.setWire (clockKey false false) { bad := true } else b
  if b.downCks then b.setWire (clockKey true false) { bad := true } else b

/-- BRIDGE_SWEEP_DONE (R341, R342). -/
def execBridgeSweepDone (die : Die) (sweep : BridgeSweep) (s : State) : Out :=
  let b := s.bridge die.val
  .next (if b.state == 2 then s.setBridge die.val { b.sweepAll sweep with state := 3 } else s)

/-- ASSIGN is left (R341, R343). -/
def State.assignEnd (s : State) (d : Nat) : State :=
  match s.assignDir d (s.bridge d) false with
  | none => s.trainingFails d false 1
  | some b =>
    match s.assignDir d b true with
    | none => s.trainingFails d true 1
    | some b => s.setBridge d { b with state := 4 }

/-- DESKEW is left with every wire aligned: each wire's shift is a free value. -/
def State.deskewEnd (s : State) (d : Nat) : State :=
  let b := s.bridge d
  let n := s.freeCtr
  { s with freeCtr := n + 16384 }.setBridge d { b with state := 5, shiftFrom := some n }

/-- EXCHANGE is left with the die's capability word (R351, R352). -/
def State.exchangeEnd (s : State) (d : Nat) (w : Word) (dir : Bool) : State :=
  let b := s.bridge d
  let b := { b with capWord := some w, reported := true, state := 6 }
  if s.brg.level = 0 then s.setBridge d { b with firstWord := some w }
  else if b.firstWord.isSome && b.firstWord != some w then (s.setBridge d b).trainingFails d dir 3
  else s.setBridge d b

/-- TRAINING_STATE_EXIT (R341): a training state's condition or time limit passes. -/
def execTrainingStateExit (die : Die) (ev : TrainEvent) (s : State) : Out :=
  let d := die.val
  let b := s.bridge d
  .next (match b.state.toNat, ev with
    | 1, .clocked u w => (s.setBridge d { b with upCks := u, downCks := w }).sweepEnter d
    | 1, .clockNone dir => s.trainingFails d dir 0
    | 3, .assigned => s.assignEnd d
    | 4, .deskewed none => s.deskewEnd d
    | 4, .deskewed (some dir) => s.tryAgain d dir
    | 5, .exchanged (some w) dir => s.exchangeEnd d w dir
    | 5, .exchanged none dir => s.tryAgain d dir
    | 6, .verified none => s.trainedUp d
    | 6, .verified (some dir) => s.tryAgain d dir
    | _, _ => s)

-- flits (R337–R340)

/-- A wire's place from a finding. -/
def wireAt (dir spare : Bool) (bundle wire : Nat) : Nat :=
  if spare then spareKey dir (wire % 4) else dataKey dir bundle wire

/-- Events of the last 1,024 bridge clock cycles, with one of now (R345). -/
def State.within1024 (s : State) (l : List (Nat × Nat)) (k : Nat) : List (Nat × Nat) :=
  (s.clk.bridge, k) :: l.filter fun e => decide (s.clk.bridge < e.1 + 1024)

/-- How many of the last 1,024 bridge clock cycles' events are of one wire or bundle. -/
def State.recent (s : State) (l : List (Nat × Nat)) (k : Nat) : Nat :=
  (l.filter fun e => e.2 == k && decide (s.clk.bridge < e.1 + 1024)).length

/-- A codeword's error corrected (R337, R340, R354): counted and recorded, its wire named and marked suspect. -/
def State.flitCorrected (s : State) (d : Nat) (dir spare : Bool) (bundle wire : Nat) (inj : Bool) : State :=
  let k := wireAt dir spare bundle wire
  let b := s.bridge d
  let w := b.wire k
  let b := { b with ces := s.within1024 b.ces k }
  let s := s.setBridge d (b.setWire k { w with
    errors := if w.errors == 0x7FFF then w.errors else w.errors + 1, suspect := true, errAt := s.clk.bridge })
  let s := s.count (cn 9 0) hub (2 * d + b2n dir) 1
  s.offer (if dir then .die d else .hub) 9 (2 * d + b2n dir) 0 (Config.detCode 9 4) (Config.syndrome 9 4 (k % 8192))
    (BitVec.ofNat 48 (k % 8192)) inj

/-- A flit crosses a die's bridge in a direction, false UP: it has left, and the far end has not yet got it. -/
def State.onBridge (s : State) (d : Nat) (dir : Bool) (x : NetFlit) : Bool :=
  decide (s.clk.spine < x.ready) && (match x.at_ with
    | .up e => !dir && e == d
    | .port e p => dir && e == d && decide (p < 48) && p % 8 == 7
    | _ => false)

/-- The unacknowledged flits of a direction are sent again, in order (R339). -/
def State.resend (s : State) (d : Nat) (dir : Bool) : State :=
  let again (x : NetFlit) : NetFlit :=
    if s.onBridge d dir x then { x with ready := s.clk.spine + bridgeCycles s.spineNow } else x
  { s with noc := { s.noc with flits := s.noc.flits.map again } }

/-- A flit discarded and its replay requested (R339). -/
def State.flitReplayed (s : State) (d : Nat) (dir : Bool) (bundle : Nat) : State :=
  let i := 2 * d + b2n dir
  let b := s.bridge d
  let s := (s.setBridge d { b with ues := s.within1024 b.ues (32 * b2n dir + bundle) }).resend d dir
  let s := (s.count (cn 9 1) hub i 1).count (cn 9 2) hub i 1
  s.offer (if dir then .die d else .hub) 9 i 1 (Config.detCode 9 5) (Config.syndrome 9 5 bundle) (BitVec.ofNat 48 (bundle * 128))
    false

/-- An injected wire error at a receiver (R488 detector 9): one transfer inverted, or, on a wire held at a level, an error
wherever the level is not the transfer's own. -/
def State.flitInject (s : State) (d : Nat) (dir : Bool) : State :=
  let held := s.flt.injMode == 2
  match s.inject 9 (2 * d + b2n dir) 0 with
  | (none, s) => s
  | (some p, s) =>
    let w := p % 8192
    let (x, s) := if held then s.free 1 else (1, s)
    if x = 0 ∨ 4100 ≤ w then s
    else s.flitCorrected d dir (decide (4096 ≤ w)) (w / 128) (w % 128) true

/-- FLIT_RECEIVE (R339). -/
def execFlitReceive (die : Die) (dir : Bool) (f : FlitFinding) (s : State) : Out :=
  let d := die.val
  .next (if s.on (domBRG d) && (s.bridge d).state == 7 then
    let s := s.flitInject d dir
    match f with
    | .clean => s
    | .corrected spare bundle wire => s.flitCorrected d dir spare bundle.val wire.val false
    | .uncorrectable bundle => s.flitReplayed d dir bundle.val
  else s)

/-- Suspect marks lapse 1,024 bridge clock cycles after the wire's last error (R340). -/
def State.suspectsLapse (s : State) (d : Nat) : State :=
  let b := s.bridge d
  if b.wires.any fun e => e.2.suspect then
    s.setBridge d (b.wires.foldl (fun (b : Bridge) e =>
      if e.2.suspect ∧ e.2.errAt + 1024 ≤ s.clk.bridge then b.setWire e.1 { e.2 with suspect := false } else b) b)
  else s

/-- SUSPECT_EXPIRY (R340): 1,024 bridge clock cycles after the last error of a data wire, or of the spare that serves it. -/
def execSuspectExpiry (die : Die) (dir : Bool) (bundle : Fin 32) (wire : Fin 128) (s : State) : Out :=
  let b := s.bridge die.val
  let clear (b : Bridge) (k : Nat) : Bridge := b.setWire k { b.wire k with suspect := false }
  let b := clear b (dataKey dir bundle.val wire.val)
  .next (s.setBridge die.val (match (List.range 4).find? fun k => b.serves dir k bundle.val wire.val with
    | some k => clear b (spareKey dir k)
    | none => b))

/-- Bundles of a direction in which a wire that carries span signals is suspect (R340). -/
def Bridge.suspectBundles (b : Bridge) (dir : Bool) : Nat :=
  ((List.range 32).filter fun n => b.wires.any fun e => e.2.suspect && decide (dirKey dir ≤ e.1) &&
    (let i := e.1 - dirKey dir
    (decide (i < 4096) && i / 128 == n) ||
      (decide (4096 ≤ i ∧ i < 4100) && (b.spare dir (i - 4096)).valid && (b.spare dir (i - 4096)).bundle.toNat == n))).length

/-- A direction's span cycles on bundles with a suspect wire (R340). -/
def State.spanErrors (s : State) (d cycles : Nat) (dir : Bool) : State :=
  let n := (s.bridge d).suspectBundles dir
  if n = 0 ∨ (s.bridge d).state ≠ 7 then s else s.count (cn 9 3) hub (2 * d + b2n dir) (n * cycles)

-- live retrain (R345–R349)

/-- The bridge goes down from UP or RETRAIN (R348, R350): the hub runs the die's Eclipse. -/
def State.bridgeDown (s : State) (d : Nat) (dir : Bool) : State :=
  let s := (s.setBridge d { s.bridge d with state := 9, lastOk := false }).brgRecord d dir 1 6 0 false
  (s.count (cn 9 5) hub d 1).fenceDie d 4

/-- A live retrain starts (R346): both directions hold. -/
def State.retrainStart (s : State) (d : Nat) (dir : Bool) (bundle : Nat) (clock : Bool) (wire : Option Nat) : State :=
  let b := s.bridge d
  let s := (s.setBridge d { b with
    state := 8,
    rtBundle := BitVec.ofNat 5 bundle,
    rtDir := dir,
    rtClock := clock,
    ces := [],
    ues := [],
    rtWire := wire }).count (cn 9 4) hub (2 * d + b2n dir) 1
  let s := s.retrainEvent
  if clock && (if dir then b.downCks else b.upCks) then (s.bridgeDown d dir).retrainEvent else s

/-- The data wire's bundle that a spare serves, or the wire's own. -/
def Bridge.bundleOf (b : Bridge) (dir spare : Bool) (bundle wire : Nat) : Nat :=
  if spare then (b.spare dir (wire % 4)).bundle.toNat else bundle

/-- A threshold of BRG_CTRL, 0 meaning 16 (R355). -/
def State.brgThr (s : State) (d lo : Nat) : Nat :=
  let n := s.rf .brgCtrl [d] lo 4
  if n = 0 then 16 else n

/-- A wire is in use: a data wire that no spare serves, or a spare that serves one (R345). -/
def Bridge.inUse (b : Bridge) (dir spare : Bool) (bundle wire : Nat) : Bool :=
  if spare then (b.spare dir (wire % 4)).valid else !b.served dir bundle wire

/-- A trigger's condition holds (R345): thresholds are of what the receivers found within 1,024 bridge clock cycles. -/
def State.triggered (s : State) (d : Nat) (dir : Bool) (cause : RetrainCause) : Bool :=
  let b := s.bridge d
  match cause with
  | .wireErrors spare bundle wire =>
    b.inUse dir spare bundle.val wire.val && decide (s.brgThr d 0 ≤ s.recent b.ces (wireAt dir spare bundle.val wire.val))
  | .ueErrors bundle => decide (s.brgThr d 4 ≤ s.recent b.ues (32 * b2n dir + bundle.val))
  | .clockMissed => true

/-- RETRAIN_TRIGGER (R345): a threshold that the traffic has reached, or a missed clock. -/
def execRetrainTrigger (die : Die) (dir : Bool) (cause : RetrainCause) (s : State) : Out :=
  let d := die.val
  let b := s.bridge d
  .next (if s.on (domBRG d) && b.state == 7 && s.rb .brgCtrl [d] 8 && s.triggered d dir cause then
    match cause with
    | .wireErrors spare bundle wire =>
      s.retrainStart d dir (b.bundleOf dir spare bundle.val wire.val) false
        (some (wireAt dir spare bundle.val wire.val % 8192))
    | .ueErrors bundle => s.retrainStart d dir bundle.val false none
    | .clockMissed => s.retrainStart d dir 0 true none
  else s)

/-- A write of BRG_CTRL (R345, R355): a refused request leaves the rest of the word stored. -/
def State.brgCtrlWrite (s : State) (d : Nat) (v : Word) : State :=
  let s := s.store .brgCtrl [d] v
  if bitOf v 9 = false then s
  else if (s.bridge d).state ≠ 7 then s.vio (56 + d)
  else s.retrainStart d (bitOf v 15) (fld v 10 5) false none

/-- REQ_RETRAIN (R345, R349, R355). -/
def execReqRetrain (r : Req) (die : Die) (v : Word) (s : State) : Out :=
  .next (if s.live (domBRG die.val) then
    s.guarded r fun s => if hostOrLamp r then s.brgCtrlWrite die.val (setBit v 9 true) else s.vio (56 + die.val)
  else s)

/-- Wires that a retrain sweeps (R346, R347): the bundle, or every bundle on a clock's account, and the spares that are
free or stand in the bundle. -/
def Bridge.swept? (b : Bridge) (k : Nat) : Bool :=
  let dir := b.rtDir
  let i := k - dirKey dir
  if k / 8192 ≠ b2n dir then false
  else if i < 4096 then b.rtClock || i / 128 == b.rtBundle.toNat
  else if i < 4100 then
    let x := b.spare dir (i - 4096)
    (!x.bad && !x.valid) || (x.valid && (b.rtClock || x.bundle == b.rtBundle))
  else false

/-- After the sweep of a retrain, spares found bad serve no wire, and wires found bad take spares (R343, R346); none where a
needed spare is missing. -/
def Bridge.reassign (b : Bridge) : Option Bridge :=
  let dir := b.rtDir
  let lost := (List.range 4).filterMap fun k =>
    let x := b.spare dir k
    if x.valid && (b.wire (spareKey dir k)).bad then some (x.bundle.toNat, x.wire.toNat) else none
  let b : Bridge := upTo (fun k b =>
    let x := b.spare dir k
    let bad := x.bad || (b.wire (spareKey dir k)).bad
    b.setSpare dir k (if bad && x.valid then { bad := true } else { x with bad := bad })) 4 b
  let need := (b.badData dir).filter fun e => b.rtClock || e.1 == b.rtBundle.toNat
  b.takeAll dir 3 (fun k => !(b.spare dir k).bad) (need ++ lost)

/-- The wires of a retrained bundle take new shifts and lose their suspect marks where a spare has taken them. -/
def State.deskewBundle (s : State) (d : Nat) : State :=
  let b := s.bridge d
  upTo (fun i s =>
    let b := s.bridge d
    let k := dataKey b.rtDir (if b.rtClock then i / 128 else b.rtBundle.toNat) (i % 128)
    let (v, s) := s.free 3
    let w := b.wire k
    s.setBridge d (b.setWire k { w with
      shift := some v, suspect := w.suspect && !b.served b.rtDir (k % 8192 / 128) (k % 128) })) (if b.rtClock then 4096 else 128) s

/-- A retrain ends in UP (R339, R346): its last registers, its record, the unacknowledged flits sent again, and the records that
the die held. -/
def State.retrainUp (s : State) (d : Nat) (old : Bridge) (ns : Nat) : State :=
  let b := s.bridge d
  let used := decide ((b.spares.filter fun e => e.2.valid).length ≠ (old.spares.filter fun e => e.2.valid).length)
  let b := { b with
    state := 7,
    upCks := b.upCks || (b.rtClock && !b.rtDir),
    downCks := b.downCks || (b.rtClock && b.rtDir),
    lastDur := BitVec.ofNat 16 (satNat ns 65535),
    lastBundle := b.rtBundle,
    lastDir := b.rtDir,
    lastClock := b.rtClock,
    lastSpare := used,
    lastOk := true }
  let b := if b.rtClock then b.setWire (clockKey b.rtDir false) { bad := true } else b
  let s := (s.setBridge d b).brgRecord d b.rtDir 0 7 (b.rtWire.getD (b.rtBundle.toNat * 128)) false
  ((s.retrainEvent.resend d false).resend d true).sendFifo d

/-- RETRAIN_DONE (R346–R348): `ok` tells that DESKEW and VERIFY passed. -/
def execRetrainDone (die : Die) (ok : Bool) (sweep : BridgeSweep) (durationNs : Nat) (s : State) : Out :=
  let d := die.val
  let b := s.bridge d
  .next (if b.state == 8 then
    let c := (b.sweepClean b.swept?).sweepOn b.swept? sweep
    match c.reassign with
    | some c =>
      if ok then ((s.setBridge d c).deskewBundle d).retrainUp d b durationNs
      else ((s.setBridge d c).bridgeDown d b.rtDir).retrainEvent
    | none => (s.bridgeDown d b.rtDir).retrainEvent
  else s)

end Sys2Proof.Machine
end

