-- ==== Sys2Proof/Machine/Noc.lean ====
section
/-! DEFINITION. The on-chip network (13_network): flit checks, flips and epochs, fences, timeouts and snoop resends. -/

namespace Sys2Proof.Machine

-- flit layouts (R360–R362)

/-- A flit's age field: units of 16 spine cycles, saturating at 255 (R373). -/
def NetFlit.age (x : NetFlit) : Nat := min 255 (x.waited / 16)

/-- A REQ flit's 128 bits (R360). -/
def NetFlit.reqBits (x : NetFlit) : BitVec 128 :=
  let f := x.flit
  BitVec.ofNat 128 (pack [(0, f.dst.toNat), (12, f.src.toNat), (24, f.op.toNat), (28, b2n f.epoch), (29, b2n f.gt), (30, b2n f.leg),
    (32, x.age), (40, f.tag.toNat), (50, clsField f.cls), (53, b2n f.spec.isSome), (54, (f.spec.map Fin.val).getD 0),
    (60, f.len.toNat), (71, b2n f.mflit), (72, f.addr.toNat), (120, f.rnum.toNat)])

/-- An RSP flit's 128 bits (R361). -/
def NetFlit.rspBits (x : NetFlit) : BitVec 128 :=
  let f := x.flit
  BitVec.ofNat 128 (pack [(0, f.dst.toNat), (12, f.src.toNat), (24, f.op.toNat), (28, b2n f.epoch), (29, b2n f.gt), (30, b2n f.leg),
    (31, b2n f.withData), (32, x.age), (40, f.tag.toNat), (64, f.rdata.toNat)])

/-- An SNP flit's 64 bits (R362): the node is the cluster, whichever end it is; the other end is the snoop filter's. -/
def flitSnpBits (f : Flit) : BitVec 64 :=
  let node := if f.dst.toNat / 512 < 4 then f.dst.toNat else f.src.toNat
  BitVec.ofNat 64 (pack [(0, node), (12, f.op.toNat % 8), (15, b2n f.epoch), (16, b2n f.leg), (22, f.addr.toNat / 64)])

/-- A DAT flit's sideband word (R362). -/
def flitSideband (f : Flit) : Word :=
  BitVec.ofNat 32 (pack [(0, f.dst.toNat), (12, f.tag.toNat), (22, b2n f.epoch), (23, b2n f.leg), (24, b2n f.response), (25, b2n f.gt),
    (26, b2n f.last), (27, b2n f.poison)])

-- places and routes (R363–R367)

/-- The virtual channel of a flit on its network: guaranteed, or by leg, and on DAT by class (R358). -/
def flitVc (f : Flit) : Nat := if f.gt then 0 else 1 + b2n f.leg + (if f.net = 2 then 2 * b2n f.response else 0)

/-- A place's number. -/
def NocIn.code : NocIn → Nat
  | .port d p => 288 * d + p
  | .mesh d x y dir => 2000 + (36 * d + 6 * y + x) * 4 + dir
  | .up d => 3000 + d
  | .down d => 3004 + d
  | .spine p => 3100 + p
  | .switch p => 3200 + p

/-- The attachment that a die's table names for a spine port (R366, R374). -/
def attach (d p : Nat) : Nat := (Config.attachment (Fin.ofNat 4 d) p).val

/-- A mesh router's coordinates from a place on a die. -/
def NocIn.xy : NocIn → Nat × Nat
  | .port _ p => (p / 8 % 6, p / 48)
  | .mesh _ x y 0 => (x + 1, y)
  | .mesh _ x y 1 => (x - 1, y)
  | .mesh _ x y 2 => (x, y + 1)
  | .mesh _ x y _ => (x, y - 1)
  | _ => (0, 0)

/-- Where a flit makes for on die d: its node, or the attachment of its bridge (R366). -/
def flitAim (f : Flit) (d : Nat) : Nat × Nat :=
  if nodeDie f.dst.toNat = d then nodeXY f.dst.toNat else (attach d (nodePort f.dst.toNat), 0)

/-- The direction of a flit's next mesh link: first along x, then along y; none at its aim (R366). -/
def meshDir (a b : Nat × Nat) : Option Nat :=
  if a.1 < b.1 then some 0 else if b.1 < a.1 then some 1 else if a.2 < b.2 then some 2 else if b.2 < a.2 then some 3 else none

/-- The link that a flit takes next from a place (R366, R367). -/
def flitLink (f : Flit) (a : NocIn) : Nat :=
  let net := f.net.val
  let meshLink (d : Nat) : Nat :=
    match meshDir a.xy (flitAim f d) with
    | some dir => linkMesh d a.xy.1 a.xy.2 dir net
    | none => if nodeDie f.dst.toNat = d then linkPort d (f.dst.toNat % 512) net else linkUp d net
  match a with
  | .port d _ => meshLink d
  | .mesh d _ _ _ => meshLink d
  | .up d => linkIn d net
  | .spine p => linkIn p net
  | .switch _ => linkOut (nodePort f.dst.toNat) net
  | .down d => linkDown d net

/-- Where that link takes it; none at its endpoint. -/
def flitStep (f : Flit) (a : NocIn) : Option NocIn :=
  let onMesh (d : Nat) : Option NocIn :=
    match meshDir a.xy (flitAim f d) with
    | some dir => some (.mesh d a.xy.1 a.xy.2 dir)
    | none => if nodeDie f.dst.toNat = d then none else some (.up d)
  match a with
  | .port d _ => onMesh d
  | .mesh d _ _ _ => onMesh d
  | .up d => some (.switch d)
  | .spine p => some (.switch p)
  | .switch _ => if nodeDie f.dst.toNat < 4 then some (.down (nodeDie f.dst.toNat)) else none
  | .down d => some (.port d (8 * attach d (nodePort f.src.toNat) + 7))

-- endpoints (R364, R365)

/-- The domain of an endpoint. -/
def nodeDom (n : Nat) : Nat :=
  let d := nodeDie n
  if 4 ≤ d then
    let p := nodePort n
    if 4 ≤ p ∧ p < 8 then 41 + (p - 4) else if p = 8 then 39 else if p = 9 then 40 else if p = 10 then 38 else if p = 11 then domLMP
    else if p = 12 then 46 else domSPN
  else
    let (x, y) := nodeXY n
    let p := n % 8
    if y = 0 then (if p = 6 then domCFE d else domBRG d)
    else if x = 0 ∧ y = 1 then (if p = 1 then domFCA d else if p = 2 ∨ p = 3 then domCFE d else domBRG d)
    else if x = 5 ∧ y = 1 then domDie d 0
    else if x = 5 then domDie d (y - 2)
    else domFCA d

/-- The NETP port that an endpoint is (R364). -/
def netpOf (n : Nat) : Option (Nat × Nat) := if isNetp n then some (nodeDie n, (nodeXY n).2 - 2) else none

-- arbitration (R367, R371, R373)

/-- The slot table that a flit's epoch bit names (R375). -/
def State.slotsOf (s : State) (f : Flit) : SlotTable := if f.epoch then s.noc.res1 else s.noc.res0

/-- The flow that owns a link's present slot for a flit (R368, R370). -/
def State.owner (s : State) (f : Flit) (link : Nat) : Nat := Tbl.get 0 (s.slotsOf f) (link * 256 + s.clk.spine % 256)

/-- The buffer of 4 flits of a virtual channel and input has room (R367); a guaranteed flit finds the space that each reserved
slot keeps (R371). -/
def State.vcRoom (s : State) (f : Flit) (a : NocIn) : Bool :=
  f.gt || decide ((s.noc.flits.filter fun x => x.at_ == a && x.flit.net == f.net && (flitVc x.flit) == (flitVc f)).length < 4)

/-- Leg 1 begins as a flit crosses the spine (R358). -/
def flitAfter (f : Flit) (a : NocIn) : Flit :=
  match a with
  | .switch _ => { f with leg := true }
  | _ => f

/-- A flit's way on is open: its bridge is up and not held (R346, R372), and the buffer that it comes to has room, or its
endpoint sinks it, which a NETP port full of responses does not (R320, R377). -/
def State.wayOpen (s : State) (x : NetFlit) : Bool :=
  let f := x.flit
  match flitStep f x.at_ with
  | some a =>
    (match x.at_, a with
      | .down d, _ => (s.bridge d).state == 7
      | _, .up d => (s.bridge d).state == 7
      | _, _ => true) && s.vcRoom (flitAfter f x.at_) a
  | none =>
    match netpOf f.dst.toNat with
    | some (d, j) =>
      !(decide (f.net = 1) || (decide (f.net = 2) && f.response)) || !s.respAttached d (6 + j) || s.respRoom d (6 + j)
    | none => true

/-- The first of a virtual channel's flits at its place. -/
def State.isHead (s : State) (x : NetFlit) : Bool :=
  (s.noc.flits.find? fun y => y.at_ == x.at_ && y.flit.net == x.flit.net && (flitVc y.flit) == (flitVc x.flit)) == some x

/-- A best-effort flit still stands where its endpoint injected it. -/
def NetFlit.injecting (x : NetFlit) : Bool :=
  let n := x.flit.src.toNat
  !x.flit.gt && !x.flit.leg && (if nodeDie n < 4 then x.at_ == .port (nodeDie n) (n % 512) else x.at_ == .spine (nodePort n))

/-- The slots of a link that no flow reserves. -/
def State.unreserved (s : State) (f : Flit) (link : Nat) : Nat :=
  256 - ((s.slotsOf f).filter fun e => decide (e.1 / 256 = link ∧ e.2 ≠ 0)).length

/-- From shed step S3 on, injected best-effort flits take at most half of a link's unreserved slots in a frame, and from S4 on a
quarter (R418). -/
def State.injectionOpen (s : State) (x : NetFlit) : Bool :=
  let step := s.pw.step.toNat
  !x.injecting || decide (step < 3) ||
    decide (Tbl.get 0 s.noc.injected x.out < s.unreserved x.flit x.out / (if step = 3 then 2 else 4))

/-- The flits that compete for a link in this cycle. -/
def State.rivals (s : State) (link : Nat) : List NetFlit :=
  s.noc.flits.filter fun x =>
    x.out == link && decide (x.ready ≤ s.clk.spine) && s.isHead x && s.wayOpen x && s.injectionOpen x

/-- A guaranteed flit leaves in its own flow's slots; into its endpoint it leaves at once. -/
def State.ownSlot (s : State) (x : NetFlit) : Bool :=
  x.flit.gt && ((flitStep x.flit x.at_).isNone || s.owner x.flit x.out == x.flit.flow)

/-- How long after a link's last turn a place comes round. -/
def State.turnOf (s : State) (link : Nat) (a : NocIn) : Nat := (a.code + 4096 - (Tbl.get 0 s.noc.turn link + 1)) % 4096

/-- Of two best-effort flits the older; on a tie the one whose input's turn comes first (R373). -/
def State.older (s : State) (link : Nat) (x y : NetFlit) : NetFlit :=
  if x.age < y.age then y
  else if y.age < x.age then x
  else if s.turnOf link y.at_ < s.turnOf link x.at_ then y else x

/-- The flit to which a link gives the slot (R371, R373): the guaranteed flit whose own slot it is, else the oldest best-effort
flit. -/
def State.winner (s : State) (link : Nat) : Option NetFlit :=
  let all := s.rivals link
  match all.find? fun x => s.ownSlot x with
  | some x => some x
  | none =>
    match all.filter fun x => !x.flit.gt with
    | [] => none
    | x :: t => some (t.foldl (fun a b => s.older link a b) x)

/-- A flit comes to a place, where the router before has told it its next link (R367). -/
def State.putFlit (s : State) (f : Flit) (a : NocIn) (waited delay : Nat) : State :=
  { s with noc := { s.noc with
    flits := s.noc.flits ++ [{ flit := f, at_ := a, out := flitLink f a, waited := waited, ready := s.clk.spine + delay }] } }

/-- The epoch in which a node injects (R375). -/
def State.injects (s : State) (n : Nat) : Bool := if nodeDie n < 4 then bitOf s.noc.dieEpoch (nodeDie n) else s.noc.active

/-- The answering point answers a request to a fenced domain, or drops a posted write (R378); anything else that arrives for it
is discarded (R380). `a` is where the answer starts. -/
def State.darkFlit (s : State) (f : Flit) (a : NocIn) : State :=
  let dom := nodeDom f.dst.toNat
  if f.net ≠ 0 then s
  else if f.op = 4 then s.count (cn 10 5) hub dom 1
  else (s.count (cn 10 4) hub dom 1).putFlit
    { net := 1, dst := f.src, src := f.dst, op := 3, epoch := s.injects f.dst.toNat, leg := f.leg, tag := f.tag } a 0 1

/-- A flit moves over its link. -/
def State.moveFlit (s : State) (x : NetFlit) : State :=
  let s := { s with noc := { s.noc with
    flits := s.noc.flits.erase x,
    turn := Tbl.set 0 s.noc.turn x.out x.at_.code,
    injected := if x.injecting then Tbl.set 0 s.noc.injected x.out (Tbl.get 0 s.noc.injected x.out + 1) else s.noc.injected } }
  let f := x.flit
  let open_ := s.live (nodeDom f.dst.toNat)
  match flitStep f x.at_ with
  | none => if open_ then s.emit (.flit f.dst f) else s.darkFlit f x.at_
  | some a =>
    match x.at_ with
    | .switch _ => if open_ then s.putFlit (flitAfter f x.at_) a x.waited 1 else s.darkFlit f (.switch (nodePort f.dst.toNat))
    | .down _ => s.putFlit f a x.waited (bridgeCycles s.spineNow)
    | _ => s.putFlit f a x.waited (match a with
      | .up _ => bridgeCycles s.spineNow
      | _ => 1)

/-- Flits that a link moves in one spine cycle (R365, R368): DAT's share of the ports, else one. -/
def linkWidth (link : Nat) : Nat :=
  let k := link / 4
  if link % 4 = 2 ∧ k < 200 then
    (if k < 8 then 4 else portFlits ((k - 8) % 64))
  else 1

/-- A link gives what one spine cycle lets it move. -/
def State.serveLink (s : State) (link : Nat) : Nat → State
  | 0 => s
  | n + 1 =>
    match s.winner link with
    | some x => (s.moveFlit x).serveLink link n
    | none => s

/-- Of the first n spine edges those that the Facets pass: 6 of every 8 from S1 on, 4 from S2 on (R418). -/
def State.passed (s : State) (n : Nat) : Nat :=
  let w := if s.pw.step = 0 then 8 else if s.pw.step = 1 then 6 else 4
  n / 8 * w + min w (n % 8)

/-- n spine edges. -/
def State.spineOn (s : State) (n : Nat) : State :=
  let c := s.clk
  { s with clk := { c with spine := c.spine + n, facet := c.facet + (s.passed (c.spine + n) - s.passed c.spine) } }

/-- One spine cycle of the network: every link serves, and the flits that stay have waited one more. -/
def State.nocCycle (s : State) : State :=
  let links := (s.noc.flits.map fun x => x.out).eraseDups
  let s := s.spineOn 1
  let s := if s.clk.spine % 256 = 0 then { s with noc := { s.noc with injected := [] } } else s
  let s := links.foldl (fun (s : State) l => s.serveLink l (linkWidth l)) s
  { s with noc := { s.noc with
    flits := s.noc.flits.map fun x => if x.ready ≤ s.clk.spine then { x with waited := x.waited + 1 } else x } }

/-- n spine cycles. -/
def State.nocCycles (s : State) : Nat → State
  | 0 => s
  | n + 1 =>
    if s.noc.flits = [] then s.spineOn (n + 1) else s.nocCycle.nocCycles n

-- a router checks a flit (R359)

/-- The router node of a router port (R363). -/
def rpNode : RouterPort → Nat
  | .mesh d p => 512 * d.val + p.val / 8 * 8
  | .spine p => 2048 + 8 * p.val

/-- The node of the endpoint at a router port. -/
def rpEnd : RouterPort → Nat
  | .mesh d p => 512 * d.val + p.val
  | .spine p => 2048 + 8 * p.val

/-- The place of a router port. -/
def rpPlace : RouterPort → NocIn
  | .mesh d p => .port d.val p.val
  | .spine p => .spine p.val

/-- The die of a router port, or the hub (R592 kinds 8 and 9), and its leaf. -/
def rpLoc : RouterPort → Nat × Nat
  | .mesh d p => (d.val, p.val)
  | .spine p => (hub, p.val)

/-- The detector's place of a router port. -/
def rpAt : RouterPort → DetAt
  | .mesh d _ => .die d.val
  | .spine _ => .hub

/-- The router port's domain is on. -/
def State.routerOn (s : State) : RouterPort → Bool
  | .mesh d _ => s.on (domBRG d.val)
  | .spine _ => s.on domSPN

/-- An injected pattern at a router (R488 detector 10): one bit is corrected, two are detected, and what three or more give is
a free value. -/
def State.nocInject (s : State) (rp : RouterPort) (err : FlitError) : FlitError × Bool × State :=
  let (loc, _) := rpLoc rp
  let a := s.rd64 .fltInjAddr []
  if a % 4096 / 8 ≠ rpNode rp / 8 then (err, false, s)
  else
    match s.inject 10 loc a with
    | (none, s) => (err, false, s)
    | (some p, s) =>
      let worse : FlitError := if err = .none ∨ err = .oneBit then .fatalWord else err
      match popCount p 39 with
      | 0 => (err, false, s)
      | 1 => (if err = .none then .oneBit else err, err = .none, s)
      | 2 => (worse, true, s)
      | _ =>
        let (x, s) := s.free 1
        if x = 0 then (worse, true, s) else (if err = .none then .oneBit else err, true, s)

/-- A router's finding on a flit (R359): the flit as it goes on, or none where it is discarded. -/
def State.checkFlit (s : State) (rp : RouterPort) (f : Flit) (err : FlitError) : Option Flit × State :=
  let (loc, leaf) := rpLoc rp
  let (err, inj, s) := s.nocInject rp err
  match err with
  | .none => (some f, s)
  | .oneBit => (some f, s.count (cn 10 0) loc leaf 1)
  | .fatalWord =>
    (none, (s.count (cn 10 1) loc leaf 1).offer (rpAt rp) 10 loc 1 (Config.detCode 10 0) (Config.syndrome 10 0 (rpNode rp))
      (BitVec.ofNat 48 (rpNode rp)) inj)
  | .rspData => (some { f with op := 2 }, s.count (cn 10 1) loc leaf 1)
  | .datData => (some { f with poison := true }, s.count (cn 10 1) loc leaf 1)

/-- The flit that has waited longest at a place. -/
def State.waitingAt (s : State) (place : Nat) : Option NetFlit := s.noc.flits.find? fun x => x.at_.code == place

/-- An endpoint may inject a flit: its domain is on and not fenced, and the port's buffer has room (R367, R378). -/
def State.mayInject (s : State) (rp : RouterPort) (f : Flit) : Bool :=
  s.live (nodeDom (rpEnd rp)) && s.vcRoom { f with leg := false } (rpPlace rp)

/-- FLIT_FORWARD (R359, R367, R371, R373, R375): a router checks the flit that its endpoint injects, or, with none, the
one that has waited longest of those at the place in the network, and what it does not discard goes on toward its destination, cycle by cycle, as its links give it slots. -/
def execFlitForward (rp : RouterPort) (flit : Option Flit) (place : Nat) (err : FlitError) (s : State) : Out :=
  .next (if s.routerOn rp then
    match flit with
    | some f =>
      if s.mayInject rp f then
        let f := { f with src := BitVec.ofNat 12 (rpEnd rp), epoch := s.injects (rpEnd rp), leg := false }
        match s.checkFlit rp f err with
        | (some f, s) => s.putFlit f (rpPlace rp) 0 1
        | (none, s) => s
      else s
    | none =>
      match s.waitingAt place with
      | some x =>
        let (y, s) := s.checkFlit rp x.flit err
        { s with noc := { s.noc with flits := match y with
          | some f => s.noc.flits.map fun z => if z = x then { x with flit := f } else z
          | none => s.noc.flits.erase x } }
      | none => s
  else s)

/-- NOC_FLIP (R375, R376): NOC_EPOCH.flip is written 1. -/
def execNocFlip (r : Req) (s : State) : Out :=
  .next (if s.live domSPN then s.guarded r fun s => s.nocFlipWrite 1 else s.darkTo r domSPN)

/-- SHADE_COMPUTED (R375, R377): at the next frame boundary hub nodes inject in the new epoch and an EPOCH mark goes to every
die. -/
def execShadeComputed (s : State) : Out :=
  .next (if s.on domSPN && s.noc.flipPending then
    let marks := (List.range 4).foldl (fun m d => setBit m d (s.live (domBRG d))) (0 : BitVec 4)
    { s with noc := { s.noc with
      active := !s.noc.active, flipPending := false, marksDue := marks } }
  else s)

/-- EPOCH_MARK (R375). -/
def execEpochMark (die : Die) (s : State) : Out :=
  let d := die.val
  .next (if bitOf s.noc.marksDue d && s.live (domBRG d) then
    { s with noc := { s.noc with
      marksDue := setBit s.noc.marksDue d false, dieEpoch := setBit s.noc.dieEpoch d s.noc.active } }
  else s)

/-- Flits of the old epoch reach their endpoints, oldest first. -/
def State.deliver (s : State) : List NetFlit → State
  | [] => s
  | x :: t => (if s.live (nodeDom x.flit.dst.toNat) then s.emit (.flit x.flit.dst x.flit) else s).deliver t

/-- OLD_EPOCH_DRAINED (R377): every die injects in the new epoch, and the last packets of the old one reach their endpoints. -/
def execOldEpochDrained (s : State) : Out :=
  let old (x : NetFlit) : Bool := x.flit.epoch != s.noc.active
  .next (if s.on domSPN && (List.range 4).all fun d => !bitOf s.noc.marksDue d || !s.live (domBRG d) then
    ({ s with noc := { s.noc with flits := s.noc.flits.filter fun x => !old x } }).deliver (s.noc.flits.filter old)
  else s)

/-- FENCED_REQUEST (R378): a request whose data no command carries meets a fenced domain. -/
def execFencedRequest (dom : Dom) (posted : Bool) (s : State) : Out :=
  .next (if s.live dom.val || !s.on domSPN then s
    else s.count (if posted then cn 10 5 else cn 10 4) hub dom.val 1)

/-- RSP_TIMEOUT (R381). -/
def execRspTimeout (at_ : Option Die) (addr : Addr) (s : State) : Out :=
  let loc := match at_ with
    | some d => d.val
    | none => hub
  let place : DetAt := match at_ with
    | some d => .die d.val
    | none => .hub
  .next (if (match at_ with
      | some d => s.on (domBRG d.val)
      | none => s.on domSPN) then
    let (p, s) := s.inject 11 loc addr.toNat
    (s.count (cn 10 7) loc 0 1).offer place 11 loc 1 (Config.detCode 11 0) (Config.syndrome 11 0 addr.toNat) addr p.isSome
  else s)

/-- SNOOP_RESEND (R359): an invalidation that is still unanswered. -/
def execSnoopResend (cl : Cluster) (line : Addr) (s : State) : Out :=
  .next (if s.on domSPN && s.noc.snoops.contains (cl.val, line.toNat / 64) then s.count (cn 10 2) hub 0 1 else s)

end Sys2Proof.Machine
end

