-- ==== Sys2Proof/Machine/Power.lean ====
section
/-! DEFINITION. Power and heat (15_power): voltages, profiles, shedding, the thermal and current limits, the Eclipse sequence
and the requests for domains; and the resets of dies, domains and cores (16_startup_and_reset R444–R450). -/

namespace Sys2Proof.Machine

-- adaptive voltage (R414, R434)

/-- A voltage in steps of 0.5 mV, clamped to a point. -/
def clampVolt (dom j v : Nat) : Nat := max (2 * curveMin dom j) (min v (2 * curveMax dom j))

/-- AVS_STEP (R414): a domain's voltage follows the slack of its path monitor at its present clock: a spine clock, or what the
monitor tells. -/
def execAvsStep (dom : Dom) (slackPs : Int) (fMHz : Nat) (s : State) : Out :=
  let n := dom.val
  .next (if s.on n then
    match curvePoint n ((spineDomMHz n s.spineNow).getD fMHz) with
    | none => s
    | some j =>
      let v := Tbl.get 0 s.pw.voltage n
      let w :=
        if s.rb .pmgCtrl [] 3 = false then 2 * curveMax n j
        else if slackPs < 15 then clampVolt n j (v + 5)
        else if 30 < slackPs then clampVolt n j (v - 5)
        else clampVolt n j v
      s.setVolt n w
  else s)

-- profiles (R415–R417)

/-- The budget of a profile in watts. -/
def budget (p : Nat) : Nat :=
  match p with
  | 0 => 520
  | 1 => 400
  | _ => 260

/-- A started output of a PLL lies above a profile's maximum; one marked shed_ok counts at half (R416). -/
def State.outTooFast (s : State) (d q k p : Nat) : Bool :=
  let o := s.pllO d q k
  let hz := refHz s.clk.refsel.toNat * s.pllM d q / (s.pllD d q * o)
  let hz := if bitOf (s.pll d q).shedOk k then hz / 2 else hz
  s.pllEn d q && (s.pll d q).locked && o != 0 && !bitOf (s.pll d q).overBits k && decide (gcMaxHz Config.grade2 p < hz)

/-- Some started fabric output lies above a profile's maximum (code 0x39). -/
def State.fabricTooFast (s : State) (p : Nat) : Bool :=
  (List.range 4).any fun d => (List.range 4).any fun q => (List.range 4).any fun k =>
    s.live (domDie d q) && s.outTooFast d q k p

/-- Outputs marked shed_ok that are shed (R309): all of them from step S5 on, else those above the running maximum. -/
def State.shedOutputs (s : State) : State :=
  let max := gcMaxHz Config.grade2 s.pw.running.toNat
  let all := decide (5 ≤ s.pw.step.toNat)
  upTo (fun i s =>
    let d := i / 4
    let q := i % 4
    let p := s.pll d q
    let shed (k : Nat) : Bool :=
      let o := s.pllO d q k
      bitOf p.shedOk k && (all || decide (max < refHz s.clk.refsel.toNat * s.pllM d q / (s.pllD d q * o)))
    let m := (List.range 4).foldl (fun (m : BitVec 4) k => setBit m k (shed k)) 0
    if p.shedActive = m then s else s.setPll d q { p with shedActive := m }) 16 s

/-- Voltages of the domains that run on a spine clock come up to v_min of the points of a higher one (R416 step 3). -/
def State.raiseVolts (s : State) (mhz : Nat) : State :=
  upTo (fun n s =>
    match (spineDomMHz n mhz).bind (curvePoint n) with
    | some j => if s.on n then s.setVolt n (max (Tbl.get 0 s.pw.voltage n) (2 * curveMin n j)) else s
    | none => s) 48 s

/-- The running profile changes (R416): the network flips to the tables of the lower clock, voltages rise before the spine
clocks do, and lanes leave for DUSK. -/
def State.setRunning (s : State) (p : Nat) : State :=
  if s.pw.running.toNat = p then s
  else
    let s := if spineMHz s.pw.running.toNat < spineMHz p then s.raiseVolts (spineMHz p) else s
    let s := (s.flipRequest (spineMHz p)).2
    let s := { s with pw := { s.pw with running := BitVec.ofNat 2 p } }
    let s := s.shedOutputs
    if p = 2 then s.duskLanes else s

/-- The code that a change to a profile is refused with (R416). -/
def State.profileCode (s : State) (p : Nat) : Option Nat :=
  if 2 < p then some 0x38
  else if s.fabricTooFast p then some 0x39
  else if s.pw.running.toNat ≠ p ∧ s.flipRefused (spineMHz p) = true then some 0x3A
  else none

/-- The limit is lowered to the chosen profile's budget (R417). -/
def State.capLimit (s : State) : State :=
  let b := budget s.pw.chosen.toNat
  if b < s.rf .pmgLimit [] 0 16 then s.wr .pmgLimit [] (BitVec.ofNat 32 b) else s

/-- The running PROFILE_SET (R416). -/
def State.goProfile (s : State) : State :=
  let p := s.cmdArg 0
  match s.profileCode p with
  | some c => s.portEnd c
  | none =>
    let s := { s with pw := { s.pw with chosen := BitVec.ofNat 2 p, changing := true } }
    let s := if s.pw.step == (6 : BitVec 3) then s else s.setRunning p
    s.capLimit.endsWith 0

/-- PROFILE_SET (R416, R546). -/
def execProfileSet (lamp : Bool) (profile : Word) (s : State) : Out :=
  .next (s.portGo lamp 11 (portArgs profile 0 0 0 0) State.goProfile)

/-- A write of PMG_LIMIT (R417). -/
def State.pmgLimitWrite (s : State) (v : Word) : State :=
  let w := fld v 0 16
  if w < 100 then s.vio 78 else (s.wr .pmgLimit [] (BitVec.ofNat 32 w)).capLimit

/-- PMG_LIMIT_WRITE (R417). -/
def execPmgLimitWrite (r : Req) (v : Word) (s : State) : Out :=
  .next (if s.live domSPN then s.guarded r fun s => if hostOrLamp r then s.pmgLimitWrite v else s.vio 78 else s)

-- shedding (R418, R419)

/-- Some fabric output is marked shed_ok. -/
def State.anyShedOk (s : State) : Bool :=
  (List.range 4).any fun d => (List.range 4).any fun q => (s.pll d q).shedOk != 0

/-- The next allowed step after the one in force (R418). -/
def State.nextStep (s : State) : Option Nat :=
  let n := s.pw.step.toNat
  let dusk := s.rb .pmgCtrl [] 1 && s.pw.running != 2 && (s.profileCode 2).isNone
  if n < 4 then some (n + 1)
  else if n = 4 ∧ s.anyShedOk = true then some 5
  else if n < 6 ∧ dusk = true then some 6
  else none

/-- A step in force. -/
def State.setStep (s : State) (n : Nat) : State :=
  let s := { s with pw := { s.pw with step := BitVec.ofNat 3 n } }
  let s := s.setRunning (if n = 6 then 2 else s.pw.chosen.toNat)
  s.shedOutputs

/-- A step is taken (R419). -/
def State.shedTake (s : State) : State :=
  match s.nextStep with
  | some n => ((s.setStep n).count (cn 12 0) hub 0 1).pmgEvent
  | none =>
    if s.pw.overLimit then s else { s with pw := { s.pw with overLimit := true } }.raiseLine 6

/-- The last step taken is released (R419). -/
def State.shedRelease (s : State) : State :=
  let n := s.pw.step.toNat
  if n = 0 then s
  else
    let m := if n = 6 ∧ s.anyShedOk = false then 4 else n - 1
    ((s.setStep m).count (cn 12 0) hub 0 1).pmgEvent

/-- Every allowed step at once (R421); none is where shedding is off (R418). -/
def State.shedAll (s : State) : State :=
  upTo (fun _ s => if s.rb .pmgCtrl [] 0 && s.nextStep.isSome then s.shedTake else s) 6 s

/-- A check that finds power below 90 % of the limit (R419): the tenth millisecond of them releases a step. -/
def State.lowCheck (s : State) : State :=
  match s.pw.lowChecks with
  | none => { s with pw := { s.pw with lowChecks := some 0 } }
  | some k =>
    if 9 ≤ k then { s with pw := { s.pw with lowChecks := some 0 } }.shedRelease
    else { s with pw := { s.pw with lowChecks := some (k + 1) } }

/-- SHED_CHECK (R412, R419): each 1 ms, with the power that VIN_MAIN brought over the last and the VAUX draw; `settled` tells that 1 ms has passed since the last step
settled. -/
def execShedCheck (vinMw vauxMw : Nat) (settled : Bool) (s : State) : Out :=
  let powerMw := vinMw + vauxMw
  let s := { s with pw := { s.pw with power := BitVec.ofNat 20 (satNat powerMw (2 ^ 20 - 1)) } }
  let limit := s.rf .pmgLimit [] 0 16 * 1000
  let hot := s.rb .pmgCtrl [] 2 && s.pw.warn
  let none (s : State) : State := { s with pw := { s.pw with lowChecks := .none } }
  .next (if s.su.thermalOff || s.su.dark || !s.on domSPN || !s.rb .pmgCtrl [] 0 then none s
    else if limit < powerMw || hot then (if settled then (none s).shedTake else none s)
    else
      let s := { s with pw := { s.pw with overLimit := false } }
      if powerMw * 10 < limit * 9 then s.lowCheck else none s)

-- thermal limits (R412, R413, R421, R422)

/-- Thermal shutdown (R422): every switched domain goes off without fence or drain, and AON keeps the FATAL record. -/
def State.thermalShutdown (s : State) (det inst : Nat) (inj : Bool) : State :=
  let s := s.captureAhead.allOff
  let s := { s with su := { s.su with thermalOff := true }, flt := { s.flt with nmeThermal := true } }
  s.offer .hub det inst 2 (Config.detCode det 2) (Config.syndrome det 2 inst) 0 inj

def State.sensor (s : State) (k : Nat) : Sensor := Tbl.get {} s.pw.sensors k
def State.setSensor (s : State) (k : Nat) (v : Sensor) : State :=
  { s with pw := { s.pw with sensors := Tbl.set {} s.pw.sensors k v } }

/-- The die that a sensor protects: its own, or the one above a base-layer sensor. -/
def sensorDie (k : Nat) : Option Nat :=
  if k < 64 then some (k / 16)
  else if 88 ≤ k then (Config.baseSensorDie (Fin.ofNat 8 (k - 88))).map fun d => d.val
  else none

/-- A die whose 16 sensors have all failed (R413). -/
def State.dieBlind (s : State) (d : Nat) : Bool := (List.range 16).all fun i => (s.sensor (16 * d + i)).failed

/-- A working sensor of a list reads at least a temperature. -/
def State.hotSensor (s : State) (t : Int) (l : List Nat) : Bool :=
  l.any fun k => !(s.sensor k).failed && decide (t ≤ (s.sensor k).temp.toInt)

/-- Sensors of a die that reads 100 °C or more bar its restore (code 0x3E). -/
def State.dieHot (s : State) (d : Nat) : Bool := s.hotSensor 800 ((List.range 16).map fun i => 16 * d + i)

/-- The warning is raised (R421). -/
def State.thermalWarn (s : State) : State :=
  if s.pw.warn then s
  else ({ s with pw := { s.pw with warn := true } }.count (cn 12 1) hub 0 1).pmgEvent

/-- A sensor is marked failed (R413). -/
def State.sensorFails (s : State) (k : Nat) (inj : Bool) : State :=
  let s := s.setSensor k { s.sensor k with failed := true }
  let s := (s.count (cn 12 4) hub k 1).offer .hub 15 k 1 (Config.detCode 15 0) (Config.syndrome 15 0 k) 0 inj
  if k < 64 ∧ s.dieBlind (k / 16) = true then s.thermalWarn else s

/-- The thresholds that one sensor's reading reaches. -/
def State.thermalLimits (s : State) (k : Nat) (t : Int) (inj : Bool) : State :=
  if 920 ≤ t then s.thermalShutdown 15 k inj
  else
    let s := if 840 ≤ t then s.thermalWarn else s
    if 880 ≤ t then
      match sensorDie k with
      | some d =>
        if s.on (domBRG d) && s.dieState d != 3 then
          let s := s.offer .hub 15 k 1 (Config.detCode 15 1) (Config.syndrome 15 1 k) 0 inj
          (s.count (cn 12 2) hub d 1).fenceDie d 5
        else s
      | none => { s with flt := { s.flt with nmeThermal := true } }.shedAll
    else if s.hotSensor 800 (List.range 96) then s
    else
      let blind := (List.range 4).any fun d => s.dieBlind d
      { s with
        pw := { s.pw with warn := s.pw.warn && blind },
        flt := { s.flt with nmeThermal := s.flt.nmeThermal && s.su.thermalOff } }

/-- SENSOR_SAMPLE (R412, R413, R421): a reading in 0.125 °C, or none where the sensor did not answer. -/
def execSensorSample (sensor : Fin 96) (reading : Option Int) (s : State) : Out :=
  let k := sensor.val
  let (p, s) := s.inject 15 k 0
  let reading := match p with
    | some x => some (BitVec.ofNat 12 x).toInt
    | none => reading
  let x := s.sensor k
  .next (if x.failed ∨ s.rails.vaux = false ∨ s.su.thermalOff = true then s
    else
      match reading with
      | none =>
        let s := s.setSensor k { x with missed := x.missed + 1 }
        if 2 ≤ x.missed + 1 then s.sensorFails k p.isSome else s
      | some t =>
        if t < -440 ∨ 1200 < t then s.sensorFails k p.isSome
        else (s.setSensor k { x with temp := BitVec.ofInt 12 t, missed := 0 }).thermalLimits k t p.isSome)

/-- OVERCURRENT (R423). -/
def execOvercurrent (dom : Dom) (s : State) : Out :=
  let n := dom.val
  .next (if s.on n then
    let (p, s) := s.inject 16 n 0
    let s := s.count (cn 12 3) hub n 1
    if n = 36 ∨ 44 ≤ n ∧ n ≤ 46 then s.thermalShutdown 12 n p.isSome
    else
      let s := s.offer .hub 12 n 1 (Config.detCode 12 1) (Config.syndrome 12 1 n) 0 p.isSome
      if n < 36 ∧ n % 9 = 8 then s.fenceDie (n / 9) 6 else s.fenceDomain n 6 false
  else s)

-- the Eclipse sequence (R424–R427)

/-- The key of the sequence that a domain is in: its die's, where the whole die is in one, else its own. -/
def State.seqOf (s : State) (dom : Nat) : Option (Nat × EclSeq) :=
  let own := (Tbl.get none s.pw.ecl dom).map fun q => (dom, q)
  if dom < 36 then
    match Tbl.get none s.pw.ecl (domBRG (dom / 9)) with
    | some q => if q.whole then some (domBRG (dom / 9), q) else own
    | none => own
  else own


/-- DRAIN_END (R379, R424 steps 2 and 3): `owed` requests are left where the drain is forced; `ns` is its length. -/
def execDrainEnd (dom : Dom) (owed : Nat) (forced : Bool) (ns : Nat) (s : State) : Out :=
  .next (match s.seqOf dom.val with
    | some (k, q) => if bitOf s.pw.isolated k then s else s.isolate k q owed forced ns
    | none => s)

/-- A die reset's restore starts, or a command's (R446, R449 steps 1 and 2). -/
def State.restoreStart (s : State) (d : Nat) : State :=
  let s := s.setDieState d 1
  let s := (s.domainOn (domBRG d)).dieCountersRestart d
  let (p, s) := s.inject 1 0 0
  let s := if p.isSome then
      { s with board := { s.board with valid := false } }.offer .hub 1 0 1 (Config.detCode 1 0)
        (Config.syndrome 1 0 s.board.strap.toNat) (s.board.strap.setWidth 48) true
    else s
  let s := { s with clk := { s.clk with locked := setBit s.clk.locked d true } }
  s.setBridge d { s.bridge d with state := 0 }

/-- A die's Eclipse has ended: the command that asked for it ends, and a die reset goes on with the restore. -/
def State.dieEclipsed (s : State) (d : Nat) (cause : BitVec 3) : State :=
  let s := s.setDieState d 0
  let s := if s.cmdArg 0 = d then s.endWith 9 0 else s
  if s.su.dieBusy ∧ s.rf .rstDieReq [] 0 2 = d ∧ cause = 2 then s.restoreStart d else s

/-- A request of PMG_DOM_REQ for a domain ends; the last one's code shows. -/
def State.domReqEnds (s : State) (dom : Nat) (code : Byte) : State :=
  let p := s.pw
  if p.reqRuns.contains dom then
    { s with pw := { p with
      reqRuns := p.reqRuns.filter fun n => n != dom, reqResult := if p.reqDom.toNat = dom then code else p.reqResult } }
  else s

-- a pending switch meets a reset (R404)

/-- A switch ends: the new input is on. -/
def State.gcDone (s : State) (d g : Nat) : State :=
  let f := s.fab d
  s.setFab d { f with gcPending := setBit f.gcPending g false, gcOld := Tbl.set 0 f.gcOld g 0 }

/-- The image lets a quadrant of a die use a global clock. -/
def State.usesClock (s : State) (d g q : Nat) : Bool := Config.clockUse s.cfg.imgId (Fin.ofNat 4 d) g (Fin.ofNat 4 q)

/-- Every quadrant that uses a global clock is reset (R404, R441). -/
def State.quadsReset (s : State) (d g : Nat) : State :=
  upTo (fun q s => if s.usesClock d g q then s.fenceDomain (domDie d q) 0 true else s) 4 s

/-- The forced path of a global clock whose new source runs (R404). -/
def State.gcForced (s : State) (d g : Nat) : State := ((s.gcDone d g).quadsReset d g).count (cn 11 5) hub 0 1

/-- The reset of a quadrant performs the forced path of the switches that hang on its clocks (R404). -/
def State.quadForces (s : State) (d q : Nat) : State :=
  upTo (fun g s =>
    if bitOf (s.fab d).gcPending g && s.usesClock d g q && s.srcRuns d (s.gcSrc d g) then s.gcForced d g else s) 30 s

/-- ECLIPSE_POWER_OFF (R424 step 4): a domain reset keeps the regulator on and loses the state all the same (R444). -/
def execEclipsePowerOff (dom : Dom) (s : State) : Out :=
  .next (match s.seqOf dom.val with
    | some (k, q) =>
      if bitOf s.pw.isolated k = false then s
      else if q.whole then
        let d := k / 9
        let s : State := upTo (fun i s => s.domainOff (domDie d i)) 9 s
        let s := { s with pw := { s.pw with ecl := outside (9 * d) (9 * d + 8) s.pw.ecl } }
        (s.eclipseDone k q).dieEclipsed d q.cause
      else if q.back then
        let s := if k < 36 ∧ k % 9 < 4 then s.quadForces (k / 9) (k % 9) else s
        let s := s.loseDomain k
        { s with pw := { s.pw with ecl := Tbl.set none s.pw.ecl k none } }
      else ((s.domainOff k).eclipseDone k q).domReqEnds k 0
    | none => s)

-- requests for one domain (R428, R444)

/-- A restore or a load is in progress on a domain's die (code 0x32). -/
def State.dieLoading (s : State) (dom : Nat) : Bool :=
  let d := dom / 9
  decide (dom < 36) &&
    (s.dieState d == 1 ||
      (match s.cfg.staged with
        | some x => x.type == 0 || (x.type == 1 && fld (s.pregWord x.region.toNat) 0 2 == d)
        | none => false))

/-- The deep buffer manager refuses a controller's power-off (R32, R147). -/
def State.dbmKeeps (s : State) (dom : Nat) : Bool :=
  let keeps (lo hi : Nat) : Bool := (List.range 32).any fun r =>
    let g := s.regionAt r
    g.valid && !g.disposable && g.type != 3 && overlaps g.lo g.hi lo hi
  match dom with
  | 39 => keeps (farBase 0) (farBase 1)
  | 40 => keeps (farBase 1) 0x30000000000
  | 41 => keeps 0 stackBytes
  | 42 => keeps stackBytes (2 * stackBytes)
  | 43 => keeps (2 * stackBytes) (3 * stackBytes)
  | 44 => true
  | _ => false

/-- A domain is in an Eclipse or a power-on (code 0x33). -/
def State.domMoving (s : State) (dom : Nat) : Bool :=
  (s.seqOf dom).isSome || (s.on dom && bitOf s.pw.fenced dom)

/-- The code of a request for a domain (R428): `off` tells that it loses its state. -/
def State.domCode (s : State) (dom : Nat) (off : Bool) : Nat :=
  if 47 < dom ∨ dom = domSPN ∨ dom = domSEC ∨ dom = domCFG ∨ (dom < 36 ∧ dom % 9 = 8) then 0x30
  else if off && s.dbmKeeps dom then 0x31
  else if s.dieLoading dom then 0x32
  else if s.domMoving dom then 0x33
  else if !off && decide (dom < 36) && s.dieOut (dom / 9) then 0x34
  else 0

/-- The writer of PMG_DOM_REQ with go = 1 (R428, R433). -/
def State.domRequest (s : State) (dom : Nat) (on : Bool) : State :=
  let s := { s with pw := { s.pw with reqDom := BitVec.ofNat 6 dom, reqOn := on } }
  let code := s.domCode dom (!on)
  if code ≠ 0 then { s with pw := { s.pw with reqResult := BitVec.ofNat 8 code } }.vio 77
  else if s.on dom == on then { s with pw := { s.pw with reqResult := 0 } }
  else
    let s := { s with pw := { s.pw with reqRuns := s.pw.reqRuns ++ [dom] } }
    if on then s.domainOn dom else s.fenceDomain dom 0 false

/-- DOMAIN_POWER_OFF (R428). -/
def execDomainPowerOff (r : Req) (dom : BitVec 6) (s : State) : Out :=
  .next (if s.live domSPN then s.guarded r fun s => if hostOrLamp r then s.domRequest dom.toNat false else s.vio 78 else s)

/-- DOMAIN_POWER_ON (R428, R429). -/
def execDomainPowerOn (r : Req) (dom : BitVec 6) (s : State) : Out :=
  .next (if s.live domSPN then s.guarded r fun s => if hostOrLamp r then s.domRequest dom.toNat true else s.vio 78 else s)

/-- The end of a request of RST_DOM_REQ. -/
def State.domResetEnds (s : State) (dom : Nat) : State :=
  if s.su.domBusy ∧ s.rf .rstDomReq [] 0 6 = dom then { s with su := { s.su with domBusy := false, domResult := 0 } } else s

/-- DOMAIN_POWER_ON_DONE (R429): clocks run, reset is released, isolation and fence lift. A die's domains come up with their
die, its BRG domain with its bridge. -/
def execDomainPowerOnDone (dom : Dom) (s : State) : Out :=
  let n := dom.val
  .next (if s.on n && bitOf s.pw.fenced n && (s.seqOf n).isNone && !s.clk.holding && (decide (36 ≤ n) || (n % 9 != 8 && s.dieState (n / 9) == 2)) then
    ((s.domainStarted n).domReqEnds n 0).domResetEnds n
  else s)

/-- The writers of the reset block (R452): the host, the Lamp, and debug at level FULL. -/
def State.rstWriter (s : State) (r : Req) : Bool := hostOrLamp r || (r.cls == .debug && s.dbg.level == 2)

/-- A domain reset asked for (R444, R454). -/
def State.domResetStart (s : State) (dom : Nat) : State :=
  if s.su.domBusy then s.vio 79
  else
    let s := s.store .rstDomReq [] (BitVec.ofNat 32 dom)
    let code := s.domCode dom true
    let code := if code = 0 ∧ dom < 36 ∧ s.dieOut (dom / 9) = true then 0x34 else code
    if code ≠ 0 then { s with su := { s.su with domResult := BitVec.ofNat 8 code } }
    else if s.on dom = false then { s with su := { s.su with domResult := 0 } }
    else { s with su := { s.su with domBusy := true } }.fenceDomain dom 0 true

/-- DOMAIN_RESET (R444, R454). -/
def execDomainReset (r : Req) (dom : BitVec 6) (s : State) : Out :=
  .next (if s.live domSPN then s.guarded r fun s => if s.rstWriter r then s.domResetStart dom.toNat else s.vio 79 else s)

-- one die (R446–R450)

/-- The code that a restore is refused with (R448). -/
def State.restoreCode (s : State) (d : Nat) : Nat :=
  if s.su.restoreOk = false then 0x3D
  else if s.dieHot d then 0x3E
  else if s.loadBusy then 0x3F
  else 0

/-- A die reset asked for (R446, R454). -/
def State.dieResetStart (s : State) (d : Nat) : State :=
  if s.su.dieBusy then s.vio 79
  else
    let s := s.store .rstDieReq [] (BitVec.ofNat 32 d)
    let code := if s.dieState d = 2 then s.restoreCode d else 0x3C
    if code ≠ 0 then { s with su := { s.su with dieResult := BitVec.ofNat 8 code } }
    else { s with su := { s.su with dieBusy := true } }.fenceDie d 2

/-- DIE_RESET (R446, R454). -/
def execDieReset (r : Req) (die : Die) (s : State) : Out :=
  .next (if s.live domSPN then s.guarded r fun s => if s.rstWriter r then s.dieResetStart die.val else s.vio 79 else s)

/-- The running DIE_ECLIPSE (R448). -/
def State.goDieEclipse (s : State) : State :=
  let d := s.cmdArg 0
  let other := s.cfg.staged.isSome || s.cfg.tpActive || (List.range 4).any fun e => e != d && s.dieState e == 1
  if 3 < d then s.portEnd 0x3B
  else if s.dieState d = 0 ∨ s.dieState d = 3 then s.portEnd 0x3C
  else if other then s.portEnd 0x3F
  else s.fenceDie d 1

/-- DIE_ECLIPSE (R448, R546). -/
def execDieEclipse (lamp : Bool) (die : Word) (s : State) : Out :=
  .next (s.portGo lamp 9 (portArgs die 0 0 0 0) State.goDieEclipse)

/-- The running DIE_RESTORE (R448, R449). -/
def State.goDieRestore (s : State) : State :=
  let d := s.cmdArg 0
  if 3 < d then s.portEnd 0x3B
  else if s.dieState d ≠ 0 then s.portEnd 0x3C
  else
    let code := s.restoreCode d
    if code ≠ 0 then s.portEnd code else s.restoreStart d

/-- DIE_RESTORE (R448, R449, R546). -/
def execDieRestore (lamp : Bool) (die : Word) (s : State) : Out :=
  .next (s.portGo lamp 10 (portArgs die 0 0 0 0) State.goDieRestore)

-- ECLIPSE_FENCE

/-- The cause of an Eclipse of a whole die holds (R426). -/
def State.dieCause (s : State) (d : Nat) (cause : Nat) : Bool :=
  let above := (List.range 8).filter fun i => ((Config.baseSensorDie (Fin.ofNat 8 i)).map fun x => x.val) == some d
  match cause with
  | 1 => s.dieState d != 0 && s.dieState d != 3 && !s.cfg.staged.isSome && !s.cfg.tpActive &&
      (List.range 4).all fun e => e == d || s.dieState e != 1
  | 2 => s.dieState d == 2 && s.restoreCode d == 0
  | 3 => !bitOf s.clk.locked d
  | 4 => (s.bridge d).state != 7
  | 5 => s.hotSensor 880 (((List.range 16).map fun i => 16 * d + i) ++ above.map fun i => 88 + i)
  | 6 => true
  | _ => false

/-- ECLIPSE_FENCE (R424 step 1, R426): of a domain, or of the whole die that holds it, where its cause holds; the currents
behind an overcurrent the part does not show. -/
def execEclipseFence (dom : Dom) (wholeDie : Bool) (cause : BitVec 3) (s : State) : Out :=
  let n := dom.val
  .next (if n < 36 ∧ (wholeDie = true ∨ n % 9 = 8) then (if s.dieCause (n / 9) cause.toNat then s.fenceDie (n / 9) cause else s)
    else if (cause = 0 ∧ s.domCode n true = 0) ∨ (cause = 6 ∧ n ≠ 36 ∧ (n < 44 ∨ 46 < n)) then s.fenceDomain n cause false
    else s)

/-- RESTORE_COMPLETE (R449 steps 3–6): the copy was read whole and the die takes its image, or a block of it failed. -/
def execRestoreComplete (die : Die) (copyOk : Bool) (s : State) : Out :=
  let d := die.val
  .next (if s.dieState d == 1 && (s.bridge d).state == 7 && !s.clk.holding then
    if copyOk = false then
      -- PMG_ECL_LAST gives no code for this cause: a free value (log entry 1)
      let (c, s) := s.free 3
      s.restoreFails d 0x46 c
    else
      let s : State := upTo (fun i s => s.domainOn (domDie d i)) 8 s
      let s := s.setDieState d 2
      let s := (s.stageRead (s.restoreBytes d)).putDieImage d (s.dieFrames d) (s.dieSettings d)
      let s : State := upTo (fun i s => s.domainStarted (domDie d i)) 8 s
      (s.restoreEnds d 0).count (cn 13 0) hub d 1
  else s)

/-- SPINE_LOCK_LOSS (R396, R446): the die's drain cannot answer; while the die restores, it is code 0x47. -/
def execSpineLockLoss (die : Die) (s : State) : Out :=
  let d := die.val
  .next (if s.on (domBRG d) then
    let (p, s) := s.inject 14 d 0
    let s := { s with clk := { s.clk with locked := setBit s.clk.locked d false } }
    let s := s.offer .hub 14 d 1 (Config.detCode 14 0) (Config.syndrome 14 0 d) 0 p.isSome
    if s.dieState d = 1 then s.restoreFails d 0x47 3
    else
      let s := s.fenceDie d 3
      if bitOf s.su.ended 3 then s else (s.setBridge d { s.bridge d with state := 9 }).bridgesSettled
  else s)

-- one core (R445)

/-- A Facet core reset: its item aborts, its registers clear, its memories and its prefetched item stay. -/
def State.facetReset (s : State) (c : Nat) : State :=
  let s := s.abortItem c 1 0 none
  let q := s.core c
  let dbg := { q.dbg with halted := false, stopping := false, stepping := false, cause := 0 }
  let s := s.setCore c {
    dmem := q.dmem,
    imem := q.imem,
    badD := q.badD,
    badI := q.badI,
    stores := q.stores,
    dmas := q.dmas.filter fun x => x.old,
    prefetch := q.prefetch,
    lastExc := q.lastExc,
    lastAddr := q.lastAddr,
    dbg := dbg }
  s.count (cn 13 4) (coreDie c) (coreCluster c % 16) 1

/-- A core reset asked for (R445, R454). -/
def State.coreResetStart (s : State) (core : Nat) : State :=
  let s := s.store .rstCoreReq [] (BitVec.ofNat 32 core)
  let ends (s : State) (code : Byte) : State := { s with su := { s.su with coreResult := code } }
  if lampCore < core then ends s 0x30
  else if core = lampCore then (if s.live domLMP then ends s.lampCoreReset 0 else ends s 0x34)
  else if s.dieOut (coreDie core) || !s.live (domFCA (coreDie core)) then ends s 0x34
  else ends (s.facetReset core) 0

/-- CORE_RESET (R445, R454). -/
def execCoreReset (r : Req) (core : BitVec 11) (s : State) : Out :=
  .next (if s.live domSPN then s.guarded r fun s => if s.rstWriter r then s.coreResetStart core.toNat else s.vio 79 else s)

end Sys2Proof.Machine
end

