-- ==== Sys2Proof/Machine/Startup.lean ====
section
/-! DEFINITION. Start-up and the package's resets (16_startup_and_reset R435–R443, R598; 21_pins_and_electrical R563–R571;
20_host_interface R557, R558): the rails, the phases, RESET_N, PERST_N, FLR and the link. -/

namespace Sys2Proof.Machine

-- what survives (R441)

/-- The debug level at a start (R515). -/
def State.startLevel (s : State) : BitVec 2 := if s.cfg.fuseNoObserve then 0 else 1

/-- Every pending field repair takes effect (R169). -/
def repairsApply (t : Tbl StackRepair) : Tbl StackRepair := t.map fun e => (e.1, { e.2 with applied := e.2.rows.length })

/-- What a cold start and RESET_N both keep: NV contents, fuses, field repairs, BBRAM, the Dark Record and the contacts;
everything else is cold. -/
def State.kept (s : State) : State :=
  { pending := s.pending,
    freeCtr := s.freeCtr,
    outbox := s.outbox,
    nv := s.nv,
    gpio := { levels := s.gpio.levels },
    rails := s.rails,
    brg := { fuses := s.brg.fuses },
    dbm := { repairs := repairsApply s.dbm.repairs },
    cfg := {
      bbWritten := s.cfg.bbWritten,
      bbKey := s.cfg.bbKey,
      fuseKf := s.cfg.fuseKf,
      fuseKa := s.cfg.fuseKa,
      fuseHd := s.cfg.fuseHd,
      fuseNoObserve := s.cfg.fuseNoObserve },
    dbg := {
      level := s.startLevel,
      fuseProg := s.dbg.fuseProg,
      fuseLeft := s.dbg.fuseLeft,
      keysVoid := s.dbg.keysVoid,
      drSeq := s.dbg.drSeq } }

/-- BBRAM without VBAT is lost with VAUX (R441, R479). -/
def State.bbramLost (s : State) : State := { s with cfg := { s.cfg with bbWritten := [], bbKey := none } }

/-- The state of a cold start's beginning (R435, R441). -/
def State.coldStart (s : State) : State :=
  let t := s.kept
  if s.rails.vbat then t else t.bbramLost

/-- Instructions that the test port keeps below level FULL (R527). -/
def irAnyLevel (ir : BitVec 8) : Bool := ir == 0xFF || ir == 0x01 || ir == 0x02 || ir == 0x10

/-- The clock monitor after RESET_N (R441): the oscillators and their status stay, REFCLK requalifies. -/
def Clocks.afterReset (c : Clocks) : Clocks :=
  { glowOk := c.glowOk,
    lanternOk := c.lanternOk,
    lanternLost := c.lanternLost,
    glowLost := c.glowLost,
    lanternOn := c.lanternOn,
    qualifying := c.qualifying,
    checkPass := c.checkPass,
    mclkSub := c.mclkSub,
    aonBackup := c.aonBackup,
    refsel := c.refsel,
    fused := c.fused,
    fL := c.fL }

/-- The clock monitor at step 2 of R388, at the exits of DARK: GLOW trusted, LANTERN enabled. -/
def Clocks.afterDark (c : Clocks) : Clocks :=
  { glowOk := c.glowOk,
    glowLost := c.glowLost,
    aonBackup := c.aonBackup,
    lanternOn := true,
    qualifying := true,
    refsel := c.refsel,
    fused := c.fused,
    fL := c.fused }

/-- Everything that RESET_N reaches is reset (R441): start-up goes on from phase CLOCKS. AON keeps its FATAL records, the
last-records ring and a waiting capture (R531), and the test port its state. -/
def State.resetAll (s : State) (start : BitVec 3) : State :=
  let clk := if s.su.dark then s.clk.afterDark else s.clk.afterReset
  let t := s.kept
  { t with
    clk := clk,
    board := { strap := s.board.strap },
    su := { start := start, ended := s.su.ended &&& 1, marks := s.su.marks.filter fun e => decide (e.1 = 0) },
    flt := { aon := s.flt.aon },
    capture := s.capture,
    dbg := { t.dbg with
      records := s.dbg.records,
      tapIr := if irAnyLevel s.dbg.tapIr then s.dbg.tapIr else 0xFF,
      boundary := s.dbg.boundary,
      tapData := s.dbg.tapData,
      tapStat := s.dbg.tapStat } }

-- rails (R563–R565)

/-- VAUX_POWER_GOOD (R435, R564): a cold start begins; the straps and the fused estimate of LANTERN are read. -/
def execVauxPowerGood (strap : BitVec 4) (refsel : BitVec 2) (fL : Nat) (s : State) : Out :=
  .next (if s.rails.vaux && s.su.ended != 0 then s
  else
    let t := s.coldStart
    { t with
      rails := { t.rails with vaux := true },
      board := { strap := strap },
      clk := { refsel := refsel, fused := fL, fL := fL } })

/-- Phase CLOCKS ends with REFCLK qualified, or with the part on LANTERN after R395, and VIN_MAIN at power-good (R435). -/
def State.clocksEnd (s : State) : State :=
  if bitOf s.su.ended 0 && !bitOf s.su.ended 1 && (s.clk.refOk || s.clk.onLantern) && s.rails.vinMain then s.phaseEnds 1 else s

/-- VIN_MAIN_POWER_GOOD (R435, R564). -/
def execVinMainPowerGood (s : State) : Out :=
  .next { s with rails := { s.rails with vinMain := true } }.clocksEnd

/-- GLOW_TRUSTED (R387, R388 step 2, R435): phase AON ends and LANTERN is enabled. -/
def execGlowTrusted (s : State) : Out :=
  .next (if s.rails.vaux && !bitOf s.su.ended 0 then
    { s with clk := { s.clk with glowOk := true, lanternOn := true, qualifying := true, checkPass := 0 } }.clkEvent.phaseEnds 0
  else s)

/-- VAUX_LOSS (R565): AON and everything else stops. -/
def execVauxLoss (s : State) : Out :=
  .next (let t := s.coldStart
    { t with rails := { t.rails with vaux := false } })

/-- VIN_MAIN_LOSS (R565): every switched domain goes off without fence or drain. -/
def execVinMainLoss (s : State) : Out :=
  let t := { s with rails := { s.rails with vinMain := false } }
  .next (if s.on domSPN then
    let t := t.captureAhead.allOff
    { t with su := { t.su with vinOff := true } }.offer .hub 16 domSPN 2 2 (Config.syndrome 16 2 domSPN) 0 false
  else t)

/-- VIO_DDR_LOSS (R565): the far controllers are Eclipsed as for overcurrent. -/
def execVioDdrLoss (s : State) : Out :=
  .next (({ s with rails := { s.rails with vioDdr := false } }.fenceDomain (domFBC 0) 6 false).fenceDomain (domFBC 1) 6 false)

/-- VIO_GPIO_LOSS (R565): the bank's contacts go high-impedance. -/
def execVioGpioLoss (bank : Fin 2) (s : State) : Out :=
  .next { s with rails := if bank.val = 0 then { s.rails with vioGa := false } else { s.rails with vioGb := false } }

/-- VIO_GPIO_RETURN (R565): the bank goes on with its programmed functions. -/
def execVioGpioReturn (bank : Fin 2) (s : State) : Out :=
  .next { s with rails := if bank.val = 0 then { s.rails with vioGa := true } else { s.rails with vioGb := true } }

/-- VBAT_LOSS (R479, R565). -/
def execVbatLoss (s : State) : Out :=
  .next { s with rails := { s.rails with vbat := false } }.bbramLost

-- phase HUB (R435, R436, R438)

/-- HUB_PLL_LOCK (R396, R435): the hub's and the dies' spine PLLs lock, and the hub's domains and every BRG domain power
on. -/
def execHubPllLock (s : State) : Out :=
  .next (if bitOf s.su.ended 1 && !bitOf s.su.ended 2 && !s.on domSPN && s.rails.resetN && s.rails.vinMain &&
      !s.su.thermalOff && !s.su.dark && !s.su.vinOff then
    let s : State := upTo (fun i s => s.domainOn (36 + i)) 12 s
    let s : State := upTo (fun d s => (s.domainOn (domBRG d)).setBridge d (s.bridgeCold d)) 4 s
    { s with clk := { s.clk with locked := BitVec.allOnes 5 } }
  else s)

/-- A board table's bytes pass the checks of R46. -/
def boardOk (slot : Nat) (bs : List Byte) : Bool :=
  numAt bs 0 4 == 0x45514B53 && numAt bs 4 2 == 1 && numAt bs 6 1 == slot && numAt bs 8 2 == 512 &&
    numAt bs 12 4 == (crc32 (bytesAt bs 0x40 2048)).toNat

/-- The board table is read and kept in the hub, or its defaults stand (R45–R47). -/
def State.readBoard (s : State) : State :=
  let n := s.board.strap.toNat
  let (bs, inj, s) := s.nvRead (0x1D0000000 + n * 0x1000) 0x1000
  if boardOk n bs then
    let es := (List.range 512).foldl (fun (t : Tbl Word) i =>
      Tbl.set 0 t i (BitVec.ofNat 32 (numAt bs (0x40 + 4 * i) 4))) []
    { s with board := { s.board with valid := true, entries := es } }
  else
    { s with board := { s.board with valid := false, entries := [] } }.offer .hub 1 0 1 (Config.detCode 1 0)
      (Config.syndrome 1 0 n) (BitVec.ofNat 48 n) inj

/-- A boot record's bytes pass the checks of R468. -/
def bootOk (bs : List Byte) : Bool :=
  numAt bs 0 4 == 0x544F4F42 && numAt bs 4 2 == 1 && numAt bs 12 4 == (crc32 (bytesAt bs 0 12)).toNat

/-- A primary slot and its fallback, 0xFF meaning none. -/
def slotPair (p f : Nat) : List Nat := if f = 0xFF then [p] else [p, f]

/-- The boot record is read (R437, R468). -/
def State.readBoot (s : State) : State :=
  let (bs, inj, s) := s.nvRead 0x1D0010000 0x1000
  if bootOk bs then
    { s with su := { s.su with
      bootImg := slotPair (numAt bs 6 1) (numAt bs 7 1),
      bootFw := slotPair (numAt bs 8 1) (numAt bs 9 1) } }
  else
    { s with su := { s.su with bootImg := [0, 1], bootFw := [0, 1] } }.offer .hub 18 0 1 (Config.detCode 18 0)
      (Config.syndrome 18 0 0) 0x1D0010000 inj

/-- The NV die cannot be read (R438): the defaults of R47, a FATAL record, no firmware and no image. -/
def State.nvUnreadable (s : State) : State :=
  let s := { s with
    board := { s.board with valid := false, entries := [] },
    su := { s.su with bootImg := [], bootFw := [], boot := setBit s.su.boot 6 true } }
  s.offer .hub 18 0 2 (Config.detCode 18 1) (Config.syndrome 18 1 0) 0x1D0010000 false

/-- Both far halves are left unpopulated, one record each (R564). -/
def State.noDdr (s : State) : State :=
  let rec1 (h : Nat) (s : State) : State :=
    s.offer .hub 17 h 1 (Config.detCode 17 1) (Config.syndrome 17 1 h) 0 false
  let s := { s with dbm := { s.dbm with half0 := {}, half1 := {} } }
  rec1 1 (rec1 0 s)

/-- HUB_PHASE_END (R435, R436): `vioDdr` tells that VIO_DDR was at power-good when the phase started, `nvReadable` that the
NV die reads. A waiting capture is written first (R531). -/
def execHubPhaseEnd (vioDdr nvReadable : Bool) (s : State) : Out :=
  .next (if bitOf s.su.ended 1 && !bitOf s.su.ended 2 && bitOf s.dbm.cleared 3 &&
      ((List.range 12).all fun i => s.live (36 + i)) && (s.capture.isNone || !nvReadable) then
    let s := { s with rails := { s.rails with vioDdr := vioDdr } }
    let s := if vioDdr then s else s.noDdr
    if nvReadable then s.readBoard.readBoot.phaseEnds 2
    else ((s.nvUnreadable.phaseEnds 2).phaseEnds 4).startImage
  else s)

/-- FAR_TRAINING_DONE (R163, R436, R528): the half's population is read, or it returns from self-refresh. -/
def execFarTrainingDone (half : Half) (dimms size : BitVec 2) (mismatch : Bool) (s : State) : Out :=
  let h := half.val
  let old := s.half h
  let put (f : FarHalf) (s : State) : State :=
    { s with dbm := if h = 0 then { s.dbm with half0 := f } else { s.dbm with half1 := f } }
  .next (if s.live (domFBC h) && (s.rails.vioDdr || !bitOf s.su.ended 2) && !s.dbg.extest && !old.trained then
    if old.dimms != 0 then put { old with trained := true } s
    else
      let (p, s) := s.inject 17 h 0
      if mismatch || p.isSome then
        (put { dimms := dimms, size := size, mismatch := true } s).offer .hub 17 h 1 (Config.detCode 17 0)
          (Config.syndrome 17 0 h) 0 p.isSome
      else if dimms == 3 || size == 3 then s
      else put { dimms := dimms, size := size, trained := dimms != 0 } s
  else s)

-- RESET_N (R441, R422, R565)

/-- RESET_N is refused: a sensor still reads 100 °C after a thermal shutdown, or VIN_MAIN has not returned. -/
def State.resetRefused (s : State) : Bool :=
  (s.su.thermalOff && s.hotSensor 800 (List.range 96)) || (s.su.vinOff && !s.rails.vinMain)

/-- RST_CAUSE.start of a start by RESET_N (R452). -/
def State.startOf (s : State) : BitVec 3 := if s.su.dark then 3 else if s.su.thermalOff then 2 else 1

/-- RESET_N (R441): held low for at least 1 µs. -/
def execResetN (s : State) : Out :=
  let t := { s with rails := { s.rails with resetN := false } }
  .next (if s.rails.vaux = false ∨ s.resetRefused = true then t else t.resetAll s.startOf)

/-- RESET_N_RELEASE (R441, R571): a reset that was refused at the assertion takes place if its cause has gone; the straps
are sampled where the start has not passed phase CLOCKS. -/
def execResetNRelease (strap : BitVec 4) (refsel : BitVec 2) (s : State) : Out :=
  .next (if s.rails.resetN then s
  else
    let s := if (s.su.thermalOff || s.su.vinOff) && !s.resetRefused then s.resetAll s.startOf else s
    let s := { s with rails := { s.rails with resetN := true } }
    if bitOf s.su.ended 2 then s
    else { s with board := { s.board with strap := strap }, clk := { s.clk with refsel := refsel } })

-- PERST_N, FLR and the link (R440, R442, R443, R557, R558, R598)

/-- PERST_N (R442): in DARK the assertion is only remembered (R395). -/
def execPerstN (s : State) : Out :=
  let t := { s with rails := { s.rails with perstN := false } }
  .next (if s.rails.perstN = false then s
  else if s.su.dark then { t with su := { t.su with cPerst := true, darkPerst := true } }
  else if s.on domPCI then t.perst
  else { t with su := { t.su with cPerst := true } }.count (cn 13 2) hub 0 1)

/-- PERST_N_DEASSERT (R440, R395): in DARK, after an assertion there, the part starts. -/
def execPerstNDeassert (s : State) : Out :=
  let t := { s with rails := { s.rails with perstN := true } }
  .next (if s.su.dark && s.su.darkPerst then
    let u := t.resetAll 4
    { u with su := { u.su with cPerst := true } }
  else t)

/-- FLR (R443, R557): everything that PERST_N reaches but the link. -/
def execFlr (s : State) : Out :=
  .next (if s.live domPCI && s.hif.up then
    let t := s.functionReset
    { t with su := { t.su with cFlr := true } }.count (cn 13 3) hub 0 1
  else s)

/-- Pending vectors that are not masked are sent where messages may be sent (R555). -/
def State.sendPending (s : State) : State :=
  (List.range 64).foldl (fun s v =>
    if s.canMaster && bitOf s.hif.vecPend v && !s.vecMasked v then
      ({ s with hif := { s.hif with vecPend := setBit s.hif.vecPend v false } }.emit (.msix v)).count (cn 16 7) hub 0 1
    else s) s

/-- D3HOT_ENTRY (R558). -/
def execD3hotEntry (s : State) : Out :=
  .next (if s.live domPCI && s.hif.up then { s with hif := { s.hif with d3hot := true } } else s)

/-- D0_RETURN (R558): pending vectors are sent. -/
def execD0Return (s : State) : Out :=
  .next (if s.live domPCI && s.hif.up && s.hif.d3hot then { s with hif := { s.hif with d3hot := false } }.sendPending else s)

/-- The capabilities of the function (R540, R541). -/
def State.capabilities (s : State) : List Capability :=
  let h := s.hif
  [.power true 0 h.d3hot, .pciExpress true true 5 8 h.speed.toNat h.width.toNat s.maxPayload,
    .msix 64 0xFE0000 0xFE1000 h.conf.msixEnable h.conf.msixMask, .aer h.aerCe h.aerUe, .serialNumber Config.serial, .secondary,
    .dataLinkFeature true, .physical16, .physical32, .laneMargining]

/-- Configuration space as the host reads it (R541): the Revision ID is IDCODE[31:28] at the time of the read. -/
def State.confSpace (s : State) : ConfSpace :=
  let c := s.hif.conf
  { vendor := 0x1F5C,
    device := 0x4512,
    revision := BitVec.ofNat 8 (s.idcodeWord / 0x10000000),
    classCode := 0x118000,
    subVendor := 0x1F5C,
    subsystem := 0x0001,
    headerType := 0,
    interruptPin := 0,
    memSpace := c.memSpace,
    busMaster := s.hif.bme,
    bars := [{ size := 0x4000000, base := c.bar0.toNat * 0x4000000 }, {},
      { size := 0x1000000000, wide := true, prefetch := true, base := c.bar2.toNat * 0x1000000000 }, {}, {}, {}],
    capabilities := s.capabilities }

/-- What the host sets in configuration space (R541); vectors that may be sent now are sent (R555). -/
def State.configure (s : State) (sets : LinkConf) : State :=
  { s with hif := { s.hif with bme := sets.bme, conf := sets.toHostConf } }.sendPending

/-- LINK_UP (R440, R541): width and speed as negotiated, and what the host sets in configuration space once it has read it; on
a link that is up already, the host reads and sets it again (log entry 172). -/
def execLinkUp (width : BitVec 4) (speed : BitVec 3) (sets : LinkConf) (s : State) : Out :=
  .next (if s.live domPCI && s.hif.up then (s.emit (.config s.confSpace)).configure sets
  else if s.live domPCI && s.rails.perstN && !s.dbg.extest &&
      (width == 1 || width == 2 || width == 4 || width == 8) && decide (1 ≤ speed.toNat ∧ speed.toNat ≤ 5) then
    let s := { s with hif := { s.hif with up := true, width := width, speed := speed } }
    (s.emit (.config s.confSpace)).configure sets
  else s)

end Sys2Proof.Machine
end

