-- ==== Sys2Proof/Machine/Clocks.lean ====
section
/-! DEFINITION. The timebase and the clock monitor (01_package_and_flow R17–R21, 14_clocks R386–R411): SYNC loads, the
REFCLK monitor, failover and revert, the faults of LANTERN and GLOW, the glitch-free muxes and CLKOUT. -/

namespace Sys2Proof.Machine

/-- A write of a clock register: by the host, the Lamp or debug at FULL, else refused (R406). -/
def State.clkWrite (s : State) (r : Req) (f : State → State) : State :=
  if s.live domSPN then s.guarded r fun s => if s.rstWriter r then f s else s.vio 75 else s

-- the timebase (R17–R20, R397–R399)

/-- Some data lane of the package is LIT. -/
def State.anyLit (s : State) : Bool := (List.range 4).any fun d => (dieLanes d).any s.isLit

/-- A rising edge of SYNC is sampled (R18, R399). -/
def State.syncSampled (s : State) : State :=
  if s.tb.armed && !s.tb.edgeS then { s with tb := { s.tb with edgeS := true } } else s.count (cn 11 6) hub 0 1

/-- SYNC_EDGE (R18, R392, R399): one that comes during a hold is sampled at the first TBCLK edge after the restart. -/
def execSyncEdge (s : State) : Out :=
  .next (if s.tb.counting = false then s
  else if s.clk.holding then { s with tb := { s.tb with syncDue := true } }
  else s.syncSampled)

/-- The load value (R399, R409). -/
def State.loadTick (s : State) : BitVec 58 := BitVec.ofNat 58 (s.rd64 .clkTbLoad [])

/-- SYNC_LOAD (R18, R103, R399): at edge s + 4. -/
def execSyncLoad (s : State) : Out :=
  .next (if s.tb.edgeS && s.tb.counting && !s.clk.holding then
    let was := s.tb.degraded
    let s := s.windowsReload s.loadTick
    let s := { s with tb := { s.tb with
      armed := false, edgeS := false, loaded := true, degraded := s.tb.degraded && s.clk.onLantern } }
    if was && !s.tb.degraded then s.clkEvent else s
  else s)

/-- The timebase is armed, or the request is refused while a lane is LIT (R20). -/
def State.armWrite (s : State) : State :=
  if s.anyLit && !s.tb.degraded then s.vio 76 else { s with tb := { s.tb with armed := true } }

/-- The timebase is disarmed while edge s has not occurred (R18). -/
def State.cancelWrite (s : State) : State :=
  if s.tb.edgeS then s else { s with tb := { s.tb with armed := false } }

/-- ARM (R18, R20, R399). -/
def execArm (r : Req) (s : State) : Out := .next (s.clkWrite r State.armWrite)

/-- TIMEBASE_CANCEL (R18, R399). -/
def execTimebaseCancel (r : Req) (s : State) : Out := .next (s.clkWrite r State.cancelWrite)

/-- A ratio that gives 200–800 MHz (R397). -/
def State.tbRatioOk (s : State) (v : Word) : Bool :=
  let m := fld v 0 8
  let d := fld v 8 8
  let f := refHz s.clk.refsel.toNat * m
  decide (1 ≤ m ∧ m ≤ 64 ∧ 1 ≤ d ∧ d ≤ 16 ∧ 200000000 * d ≤ f ∧ f ≤ 800000000 * d)

/-- A write of CLK_TB (R397): TBCLK stops until the timebase PLL has locked again. -/
def State.tbWrite (s : State) (v : Word) : State :=
  if s.tbRatioOk v = false ∨ s.rb .mrgCtrl [] 0 = true ∨ s.anyLit = true ∨ s.clk.onLantern = true ∨ s.tb.armed = true then s.vio 75
  else
    let s := s.store .clkTb [] v
    { s with tb := { s.tb with counting := false, started := false }, clk := { s.clk with relocking := true } }

/-- CLK_TB_WRITE (R397). -/
def execClkTbWrite (r : Req) (v : Word) (s : State) : Out := .next (s.clkWrite r fun s => s.tbWrite v)

/-- The CFE holds no anchor after a restart of the timebase (R73). -/
def State.anchorsDropped (s : State) : State :=
  { s with cfeLanes := (s.cfeLanes.map fun e => (e.1, { e.2 with anchor := none })).filter fun e => e.2 != ({} : CfeLane) }

/-- TIMEBASE_START (R17, R397): every tick counter restarts at 0 on one edge. -/
def execTimebaseStart (s : State) : Out :=
  .next (if s.on domSPN && bitOf s.clk.locked 4 && !s.tb.counting && !s.clk.holding then
    { s with
      tb := { s.tb with tick := 0, counting := true, started := true, loaded := false, edge := 0 },
      clk := { s.clk with relocking := false } }.anchorsDropped
  else s)

-- records and causes (R488 detector 13)

/-- A clock event is noted in CLK_LAST_CAUSE and CLK_LAST_TRIP (R407). -/
def State.clkCause (s : State) (c : Nat) : State :=
  { s with clk := { s.clk with cause := BitVec.ofNat 3 c, lastTrip := s.now } }

/-- The monitor's fault record: its code is the cause. -/
def State.clkRecord (s : State) (inst cls cause : Nat) (inj : Bool) : State :=
  s.offer .hub 13 inst cls (BitVec.ofNat 8 cause) (Config.syndrome 13 cause inst) 0 inj

-- trips (R390, R391, R395)

/-- A trip (R391): the held group stops, the reference moves to RSV, and timestamps are DEGRADED. -/
def State.refTrip (s : State) (cause inst : Nat) (inj : Bool) : State :=
  let s := s.clkCause cause
  let s := { s with
    tb := { s.tb with degraded := true },
    clk := { s.clk with
      onLantern := true, refOk := false, frozen := true, holdover := true, holding := true, reverting := false, deciding := false, monFail := 0, monPass := 0 } }
  let s := if s.flt.nmeRef then s else { s with flt := { s.flt with nmeRef := true } }.nonMaskable
  (s.clkRecord inst 1 cause inj).count (cn 11 0) hub 0 1

/-- A trip with nothing to fall back to (R395): the REFCLK-derived domains are held harmless until LANTERN qualifies or
200 µs pass; the model keeps them as domains that are off. -/
def State.noFallback (s : State) (inst : Nat) (inj : Bool) : State :=
  let s := (s.clkCause 5).count (cn 11 4) hub 0 1
  let s := s.captureAhead.allOff
  let s := { s with
    tb := { s.tb with counting := false },
    clk := { s.clk with
      refOk := false, lanternOk := false, onLantern := false, holding := true, noFallback := true, deciding := false, monFail := 0, monPass := 0, lanternOn := true, qualifying := true, checkPass := 0, locked := 0 } }
  s.clkRecord inst 2 5 inj

/-- LANTERN is lost (R393), or, where the part runs on it, there is nothing to fall back to (R395). -/
def State.lanternGone (s : State) (inj : Bool) : State :=
  if s.clk.onLantern then s.noFallback 2 inj
  else
    let s := s.clkCause 3
    let s := { s with clk := { s.clk with
      lanternOk := false, lanternLost := true, lanternOn := false, qualifying := false, checkPass := 0, mclkSub := true, deciding := false, monFail := 0, frozen := false } }
    let s := ((s.clkRecord 2 1 3 inj).count (cn 11 2) hub 0 1).count (cn 11 5) hub 0 1
    s.clkEvent

/-- GLOW is lost (R394): AON moves onto LANTERN ÷ 16. -/
def State.glowGone (s : State) (inj : Bool) : State :=
  if s.clk.glowLost then s
  else
    let s := s.clkCause 4
    let s := { s with clk := { s.clk with glowOk := false, glowLost := true, aonBackup := true } }
    let s := ((s.clkRecord 3 1 4 inj).count (cn 11 3) hub 0 1).count (cn 11 5) hub 0 1
    s.clkEvent

-- LANTERN's check (R387, R393, R394)

/-- LANTERN qualifies (R387, R393): MCLK returns to it where it had left, and REFCLK requalifies. -/
def State.lanternQualified (s : State) : State :=
  let back := s.clk.mclkSub
  let s := { s with clk := { s.clk with
    lanternOk := true, lanternLost := false, qualifying := false, mclkSub := false, monPass := 0, refOk := s.clk.refOk && !back } }
  let s := if back then s.count (cn 11 5) hub 0 1 else s
  s.clkEvent

/-- A check window has failed (R393, R394). -/
def State.checkFails (s : State) (count : Nat) (monitorPassed inj : Bool) : State :=
  let s := if count = 0 ∨ monitorPassed = true then s.glowGone inj else s
  if s.clk.lanternOk && (monitorPassed || !s.clk.refOk) then s.lanternGone inj else s

/-- CHECK_WINDOW (R387): the GLOW cycles of one check window; `monitorPassed` tells that the monitor windows that cover it
passed. -/
def execCheckWindow (glowCount : Nat) (monitorPassed : Bool) (s : State) : Out :=
  .next (if s.rails.vaux = false ∨ s.clk.lanternOn = false ∨ s.clk.glowLost = true ∨ s.su.dark = true then s
  else
    let (p, s) := s.inject 13 2 0
    let (q, s) := match p with
      | some x => (some x, s)
      | none => s.inject 13 3 0
    let n := match q with
      | some x => x % 65536
      | none => glowCount
    let s := { s with clk := { s.clk with glowCount := BitVec.ofNat 16 n } }
    if 205 ≤ n ∧ n ≤ 307 then
      let s := { s with clk := { s.clk with checkPass := s.clk.checkPass + 1 } }
      if s.clk.qualifying && decide (2 ≤ s.clk.checkPass) then s.lanternQualified else s
    else
      { s with clk := { s.clk with checkPass := 0 } }.checkFails n monitorPassed q.isSome)

/-- LANTERN_CHECK_TIMEOUT (R393, R395): no check window completes within 512 GLOW cycles. -/
def execLanternCheckTimeout (s : State) : Out :=
  .next (if s.rails.vaux && s.clk.lanternOk && !s.clk.glowLost && !s.su.dark then s.lanternGone false else s)

-- the REFCLK monitor (R389, R390, R392)

/-- f_sel in Hz. -/
def State.fSel (s : State) : Nat := refHz s.clk.refsel.toNat

/-- A count lies in ⌈0.98 N_e⌉ to ⌊1.02 N_e⌋, with N_e = f_sel × 1,024 / f_L (R389). -/
def State.monPasses (s : State) (n : Nat) : Bool :=
  let ref := s.fSel * 1024
  decide (98 * ref ≤ 100 * n * s.clk.fL ∧ 100 * n * s.clk.fL ≤ 102 * ref)

/-- A count lies below 50 % of N_e. -/
def State.monLost (s : State) (n : Nat) : Bool := decide (2 * n * s.clk.fL < s.fSel * 1024)

/-- LANTERN's error against REFCLK in units of 0.01 ppm (R408). -/
def lanError (fL : Nat) : Word := BitVec.ofInt 32 (((fL : Int) - 400000000) / 4)

/-- A window's learning (R389): f_L from REFCLK cycles per 2^20 LANTERN cycles, and G in units of 1/64 count. -/
def State.learn (s : State) (ref mean : Nat) : State :=
  if ref = 0 then s
  else
    let f := s.fSel * 1048576 / ref
    { s with clk := { s.clk with fL := f, g := BitVec.ofNat 16 (satNat mean 65535), lanErr := lanError f } }

/-- A window while REFCLK serves (R390). -/
def State.monServing (s : State) (n ref mean : Nat) (inj : Bool) : State :=
  if s.monLost n then s.refTrip 1 0 inj
  else if s.monPasses n then
    let was := s.clk.frozen
    let s := s.learn ref mean
    let s := { s with clk := { s.clk with frozen := false, holdover := false, deciding := false, monFail := 0 } }
    if was then s.clkEvent else s
  else
    let was := s.clk.frozen
    let s := (s.learn ref mean).count (cn 11 1) hub 0 1
    let s := { s with clk := { s.clk with frozen := true, deciding := true, monFail := s.clk.monFail + 1 } }
    if was then s else s.clkEvent

/-- A window that counts towards REFCLK's qualification: four at a start, 64 on LANTERN (R388, R392). -/
def State.monQualifies (s : State) (n : Nat) : State :=
  let need := if s.clk.onLantern then 64 else 4
  if s.monPasses n then
    let s := { s with clk := { s.clk with monPass := s.clk.monPass + 1 } }
    if need ≤ s.clk.monPass ∧ s.clk.refOk = false then
      { s with clk := { s.clk with refOk := true } }.clkEvent.clocksEnd
    else s
  else
    let was := s.clk.refOk
    let s := { s with clk := { s.clk with monPass := 0, refOk := false } }
    if was then s.clkEvent else s

/-- MONITOR_WINDOW (R389–R392): REFCLK cycles of one monitor window, and what the long averages give. -/
def execMonitorWindow (count refPer2e20 glowMean64 : Nat) (s : State) : Out :=
  .next (if s.rails.vaux = false ∨ s.clk.lanternOk = false ∨ s.clk.mclkSub = true ∨ s.clk.noFallback = true ∨ s.su.dark = true then s
  else
    let (p, s) := s.inject 13 0 0
    let n := match p with
      | some x => x % 65536
      | none => count
    let s := { s with clk := { s.clk with
      refCount := BitVec.ofNat 16 (satNat n 65535),
      refExpected := BitVec.ofNat 16 ((2 * s.fSel * 1024 + s.clk.fL) / (2 * s.clk.fL)) } }
    if s.clk.refOk && !s.clk.onLantern then s.monServing n refPer2e20 glowMean64 p.isSome else s.monQualifies n)

/-- DECISION_WINDOW (R390): the GLOW count, in units of 1/64, over 2,048 MCLK cycles after two failing windows. -/
def execDecisionWindow (glowCount64 : Nat) (s : State) : Out :=
  let g := s.clk.g.toNat
  .next (if s.clk.deciding && decide (2 ≤ s.clk.monFail) then
    if 98 * g ≤ 100 * glowCount64 ∧ 100 * glowCount64 ≤ 102 * g then s.refTrip 2 0 false else s.lanternGone false
  else s)

/-- COARSE_CHECK (R389, R390, R395): REFCLK cycles in 64 GLOW cycles. -/
def execCoarseCheck (count : Nat) (s : State) : Out :=
  .next (if s.rails.vaux && s.clk.refOk && !s.clk.onLantern && !s.su.dark then
    let (p, s) := s.inject 13 1 0
    let n := match p with
      | some x => x % 65536
      | none => count
    if 100 * n * 25000000 < 40 * s.fSel * 64 then
      if s.clk.lanternOk then s.refTrip 1 1 p.isSome else s.noFallback 1 p.isSome
    else s
  else s)

/-- PLL_HOLDOVER (R391): four reference periods without an edge freeze the PLLs' loops. -/
def execPllHoldover (s : State) : Out :=
  .next (if s.on domSPN && !s.clk.holdover then
    let was := s.clk.frozen
    let s := { s with clk := { s.clk with holdover := true, frozen := true } }
    if was then s else s.clkEvent
  else s)

/-- Records that waited in the dies' FIFOs reach the hub when the hold ends (R391, R496). -/
def State.fifosSend (s : State) : State :=
  upTo (fun d s => if s.on (domBRG d) && !s.dieHeld d then s.sendFifo d else s) 4 s

/-- FAILOVER_RESTART (R391 step 4, R392): the PLLs have locked on the new reference and the held group restarts. -/
def execFailoverRestart (s : State) : Out :=
  .next (if s.clk.holding && !s.clk.noFallback then
    let due := s.tb.syncDue
    let s := { s with
      tb := { s.tb with syncDue := false },
      clk := { s.clk with holding := false, holdover := false, frozen := false, reverting := false } }.clkEvent.fifosSend
    if due then s.syncSampled else s
  else s)

/-- A write of revert (R392). -/
def State.revertWrite (s : State) : State :=
  if s.clk.onLantern && s.clk.refOk && !s.clk.holding then
    let s := s.clkCause 6
    { s with clk := { s.clk with
      onLantern := false, holding := true, reverting := true, frozen := true, holdover := true, monPass := 0, monFail := 0 } }.clkEvent
  else s.vio 75

/-- REVERT (R392). -/
def execRevert (r : Req) (s : State) : Out := .next (s.clkWrite r State.revertWrite)

/-- A write of lantern_rearm (R393). -/
def State.rearmWrite (s : State) : State :=
  if s.clk.lanternLost && !s.clk.onLantern then
    { s with clk := { s.clk with lanternOn := true, qualifying := true, checkPass := 0, fL := s.clk.fused } }
  else s.vio 75

/-- LANTERN_REARM (R393). -/
def execLanternRearm (r : Req) (s : State) : Out := .next (s.clkWrite r State.rearmWrite)

/-- HELD_RESTART (R395 step 3): LANTERN has qualified, and the held domains run the RESET_N sequence on it. -/
def execHeldRestart (s : State) : Out :=
  .next (if s.clk.noFallback && s.clk.lanternOk then
    let t := s.resetAll 5
    { t with
      tb := { t.tb with degraded := true },
      clk := { t.clk with onLantern := true, fL := t.clk.fused } }.clocksEnd
  else s)

/-- DARK_ENTRY (R395 step 4): 200 µs have passed without LANTERN. -/
def execDarkEntry (s : State) : Out :=
  .next (if s.clk.noFallback && !s.clk.lanternOk then
    let s := s.allOff
    { s with
      su := { s.su with dark := true, darkPerst := false },
      clk := { s.clk with noFallback := false, holding := false, lanternOn := false, qualifying := false } }
  else s)

-- CLKOUT and the muxes (R402–R405, R411)

/-- Nominal frequency in Hz of a CLKOUT source (R405); none where the code names none. -/
def State.outSource (s : State) (sel : Nat) : Option Nat :=
  let spine := s.spineNow * 1000000
  if sel = 0 ∨ sel = 15 then some s.fSel
  else if sel = 1 then some 25000000
  else if sel = 2 ∨ sel = 3 then some 400000000
  else if sel = 4 then some s.tbHz
  else if sel = 5 then some (spanMHz (s.fab 0).spanSel.toNat * 1000000)
  else if sel = 7 then some (spine / 2)
  else if sel < 12 then some spine
  else if sel = 12 then some (Config.bufferPllHz 0)
  else if sel = 13 then some (Config.bufferPllHz 1)
  else if sel = 14 then some 100000000
  else if sel < 64 then none
  else if sel < 128 then
    -- L7 runs at half the lanes' rate; ÷ 256
    some (if s.rb .laneBctrl [(sel - 64) / 16, sel % 16] 10 then 25000000 else 50000000)
  else
    let d := (sel - 128) / 32
    let g := sel % 32
    if g = 30 then some s.tbHz
    else if g = 31 then some (spanMHz (s.fab d).spanSel.toNat * 1000000)
    else some (s.outHz d (s.gcSrc d g / 4) (s.gcSrc d g % 4))

/-- A write of CLK_OUT (R402, R405, R410). -/
def State.clkOutPut (s : State) (v : Word) : State :=
  let sel := fld v 0 8
  match s.outSource sel with
  | none => s.vio 75
  | some hz =>
    let old := s.rf .clkOut [] 0 8
    if 800000000 * (fld v 16 16 + 1) < hz ∨ (s.clk.outPending = true ∧ sel ≠ old) then s.vio 75
    else
      let s := s.store .clkOut [] v
      if sel = old then s
      else { s with clk := { s.clk with outPending := true, outOld := BitVec.ofNat 8 old } }

/-- CLK_OUT_WRITE (R405, R410). -/
def execClkOutWrite (r : Req) (v : Word) (s : State) : Out := .next (s.clkWrite r fun s => s.clkOutPut v)

/-- Die and number of the global clock that a mux target names (R411). -/
def gcTarget (t : Nat) : Option (Nat × Nat) :=
  if 0x20 ≤ t ∧ t < 0xA0 ∧ t % 32 < 30 then some ((t - 0x20) / 32, t % 32) else none

/-- MUX_SWITCH_REQUEST (R402, R403): of CLKOUT or of a global clock; the other muxes switch by themselves. -/
def execMuxSwitchRequest (r : Req) (target src : BitVec 8) (s : State) : Out :=
  .next (match gcTarget target.toNat with
    | some (d, g) =>
      if s.live (domBRG d) then
        s.guarded r fun s => s.gcSelWrite d g (BitVec.ofNat 32 (fld (s.rd .gcSel [d, g]) 4 1 * 16 + src.toNat % 16))
      else s
    | none =>
      if target = 0 then s.clkWrite r fun s => s.clkOutPut ((s.rd .clkOut [] &&& 0xFFFFFF00) ||| src.setWidth 32) else s)

def State.outDone (s : State) : State := { s with clk := { s.clk with outPending := false, outOld := 0 } }

/-- A CLKOUT source carries a clock (CLK_PRES, R404). -/
def State.outRuns (s : State) (sel : Nat) : Bool :=
  let spine (d : Nat) : Bool := s.live (domBRG d) && bitOf s.clk.locked d
  if sel = 0 then s.clk.refCount != 0
  else if sel = 1 then !s.clk.glowLost
  else if sel = 2 then s.clk.lanternOk
  else if sel = 3 then s.clk.mclkSub || s.clk.lanternOk
  else if sel = 4 then s.tb.counting
  else if sel < 8 then s.on domSPN && bitOf s.clk.locked 4
  else if sel < 12 then spine (sel - 8)
  else if sel < 0x40 then s.on domSPN
  else if sel < 0x80 then s.live (domLG ((sel - 0x40) / 16) (sel % 16))
  else s.live (domBRG ((sel - 128) / 32)) && s.gcRuns ((sel - 128) / 32) (sel % 32)

/-- MUX_SWITCH_DONE (R402, R403): a switch waits for edges of both its clocks. -/
def execMuxSwitchDone (target : BitVec 8) (s : State) : Out :=
  .next (match gcTarget target.toNat with
    | some (d, g) =>
      let old := Tbl.get 0 (s.fab d).gcOld g
      if s.on (domBRG d) && !s.clk.holding && bitOf (s.fab d).gcPending g && s.srcRuns d old && s.srcRuns d (s.gcSrc d g) then
        s.gcDone d g
      else s
    | none =>
      if target = 0 ∧ s.clk.holding = false ∧ s.outRuns s.clk.outOld.toNat = true ∧ s.outRuns (s.rf .clkOut [] 0 8) = true then
        s.outDone
      else s)

/-- The forced path of a global clock (R404). -/
def State.gcForce (s : State) (d g : Nat) : State :=
  if s.live (domBRG d) && s.srcRuns d (s.gcSrc d g) then s.gcForced d g else s.vio 75

/-- A write of CLK_MUX_FORCE (R404, R411). -/
def State.muxForce (s : State) (t : Nat) : State :=
  match gcTarget t with
  | some (d, g) => s.gcForce d g
  | none =>
    if t = 0 then (if s.outRuns (s.rf .clkOut [] 0 8) then s.outDone.count (cn 11 5) hub 0 1 else s.vio 75)
    else if t = 1 then
      (if s.outRuns 3 then { s with clk := { s.clk with deciding := false, monFail := 0 } }.count (cn 11 5) hub 0 1
      else s.vio 75)
    else if t = 2 then (if s.outRuns (if s.clk.aonBackup then 2 else 1) then s.count (cn 11 5) hub 0 1 else s.vio 75)
    else s.vio 75

/-- CLK_MUX_FORCE (R404, R411). -/
def execClkMuxForce (r : Req) (target : BitVec 8) (s : State) : Out := .next (s.clkWrite r fun s => s.muxForce target.toNat)

end Sys2Proof.Machine
end

