-- ==== Sys2Proof/Machine/FaultCmds.lean ====
section
/-! DEFINITION. The log ring, the non-maskable event's causes, injection and the counters' clears (18_errors_and_counters
R495–R512). -/

namespace Sys2Proof.Machine

-- the log ring (R495)

/-- A record from its 32 bytes (R490). -/
def FaultRec.ofBits (w : BitVec 256) : FaultRec :=
  { ts := w.extractLsb' 0 64,
    source := w.extractLsb' 64 16,
    cls := w.extractLsb' 80 2,
    deg := w.getLsbD 82,
    inj := w.getLsbD 83,
    seqPend := w.getLsbD 84,
    rep := w.extractLsb' 96 16,
    code := w.extractLsb' 112 8,
    syndrome := w.extractLsb' 128 64,
    addr := w.extractLsb' 192 48,
    seq := w.extractLsb' 240 16 }

/-- Word w of a record replaced by a free value. -/
def State.recordSpoilt (s : State) (r : FaultRec) (w : Nat) : FaultRec × State :=
  let (v, s) := s.free 32
  let bits := r.bits
  let lo := 32 * (w % 8)
  let x : BitVec 256 := BitVec.ofNat 256 (bits.toNat - fld bits lo 32 * 2 ^ lo + v.toNat * 2 ^ lo)
  (FaultRec.ofBits x, s)

/-- The queue's storage is checked as its head is read (R488 detector 22): one bit is corrected, a word with more is open. -/
def State.queueCheck (s : State) (r : FaultRec) : FaultRec × State :=
  let w := fld (s.rd .fltInjSel []) 16 9
  match s.inject 22 0 0 with
  | (none, s) => (r, s)
  | (some p, s) =>
    match popCount p 39 with
    | 0 => (r, s)
    | 1 => (r, s.offer .hub 22 0 0 (Config.detCode 22 0) (Config.syndrome 22 0 w) 0 true)
    | _ =>
      let (r, s) := s.recordSpoilt r w
      (r, s.offer .hub 22 0 1 (Config.detCode 22 1) (Config.syndrome 22 1 w) 0 true)

/-- The log is full (R495). -/
def State.logFull (s : State) : Bool := s.flt.prod - s.flt.cons == (131072 : Word)

/-- Signals of a record stored in the log: Lamp line 1 and vector 2, by class (R495, R555). -/
def State.logSignals (s : State) (cls : BitVec 2) : State :=
  let s := if (cls == 0 && s.rb .fltCtrl [] 2) || (cls == 1 && s.rb .fltCtrl [] 3) then s.raiseLine 1 else s
  if (cls == 0 && s.rb .hifFltIen [] 0) || (cls == 1 && s.rb .hifFltIen [] 1) then s.sendVector 2 else s

/-- A record is written to the log. -/
def State.logStore (s : State) (r : FaultRec) : State :=
  let n := s.flt.prod.toNat
  let s := ({ s with flt := { s.flt with logged := some r, prod := s.flt.prod + 1, stopped := false } }).logWrite n r
  s.logSignals r.cls

/-- FAULT_QUEUE_DRAIN (R491, R495): the queue's head goes to the log, or the drain stops. -/
def execFaultQueueDrain (s : State) : Out :=
  .next (if s.on domSPN = false ∨ s.flt.logOk = false then s
  else
    match s.flt.queue with
    | [] => s
    | r :: t =>
      if s.logFull && !s.rb .fltCtrl [] 0 then { s with flt := { s.flt with stopped := true } }
      else
        let s := if s.logFull then
            { s with flt := { s.flt with cons := s.flt.cons + 1 } }.count (cn 15 3) hub 0 1
          else s
        let s := { s with flt := { s.flt with queue := t } }
        let (r, s) := s.queueCheck r
        s.logStore r)

/-- A write of a fault register: by the host, the Lamp or debug at FULL, else refused. -/
def State.fltWrite (s : State) (r : Req) (f : State → State) : State :=
  if s.live domSPN then s.guarded r fun s => if s.rstWriter r then f s else s.vio 81 else s

/-- A write of FLT_LOG_CONS (R495). -/
def State.logCons (s : State) (v : Word) : State :=
  if 131072 < (s.flt.prod - v).toNat then s.vio 81
  else
    let s := { s with flt := { s.flt with cons := v } }
    if s.logFull then s else { s with flt := { s.flt with stopped := false } }

/-- FLT_LOG_CONS_WRITE (R495). -/
def execFltLogConsWrite (r : Req) (v : Word) (s : State) : Out := .next (s.fltWrite r fun s => s.logCons v)

/-- A write of FLT_NME (R498, R510). -/
def State.nmeWrite (s : State) (v : Word) : State :=
  { s with flt := { s.flt with nmeRef := s.flt.nmeRef && !bitOf v 0, nmeFatal := s.flt.nmeFatal && !bitOf v 2 } }

/-- NME_CLEAR (R498). -/
def execNmeClear (r : Req) (v : Word) (s : State) : Out := .next (s.fltWrite r fun s => s.nmeWrite v)

-- injection (R499, R500, R511)

/-- Instances of a detector, and values of w where the row uses it (R488). -/
def injCounts (det : Nat) : Nat × Nat :=
  match det with
  | 0 => (448, 512)
  | 2 => (4, 272)
  | 3 => (8, 512)
  | 4 => (15, 512)
  | 5 => (1024, 2)
  | 6 => (1, 2)
  | 8 | 14 => (4, 512)
  | 9 => (8, 512)
  | 10 | 11 | 21 => (5, 512)
  | 12 | 16 => (48, 512)
  | 13 => (4, 512)
  | 15 => (96, 512)
  | 17 => (2, 512)
  | 20 => (4, 129)
  | 22 => (1, 8)
  | 1 | 7 | 18 | 19 | 23 => (1, 512)
  | _ => (0, 0)

/-- Rows that only debug at FULL may inject (R488). -/
def injFull (det : Nat) : Bool :=
  [7, 9, 11, 12, 13, 14, 15, 16, 18, 20].contains det

/-- The writer is debug at level FULL. -/
def State.debugFull (s : State) (r : Req) : Bool := r.cls == .debug && s.dbg.level == 2

/-- A write of mode 1 or 2 is refused (R500). -/
def State.injRefused (s : State) (r : Req) : Bool :=
  let sel := s.rd .fltInjSel []
  let det := fld sel 0 6
  let inst := fld sel 6 10
  let (insts, ws) := injCounts det
  !s.rstWriter r || (injFull det && !s.debugFull r) || decide (insts ≤ inst ∨ ws ≤ fld sel 16 9) ||
    (match injDomain det inst with
      | some dom => !s.on dom
      | none => false)

/-- A write of FLT_INJ_CTRL (R499, R500, R511). -/
def State.injCtrl (s : State) (r : Req) (v : Word) : State :=
  let mode := fld v 0 2
  if mode = 3 then s.vio 82
  else if mode = 0 then
    if s.rstWriter r then
      { s with flt := { s.flt with injMode := 0, injFired := s.flt.injFired && !bitOf v 2 } }
    else s.vio 81
  else if s.injRefused r then { s with flt := { s.flt with injMode := 0 } }.vio 82
  else
    { s with flt := { s.flt with
      injMode := BitVec.ofNat 2 mode, injFires := 0, injFired := s.flt.injFired && !bitOf v 2 } }

/-- INJECT_ONE_SHOT (R499). -/
def execInjectOneShot (r : Req) (s : State) : Out :=
  .next (if s.live domSPN then s.guarded r fun s => s.injCtrl r 1 else s)

/-- INJECT_CONTINUOUS (R499). -/
def execInjectContinuous (r : Req) (s : State) : Out :=
  .next (if s.live domSPN then s.guarded r fun s => s.injCtrl r 2 else s)

/-- A write of FLT_INJ_SEL, FLT_INJ_PAT or FLT_INJ_ADDR (R500). -/
def State.injSetup (s : State) (r : Req) (f : State → State) : State :=
  if s.flt.injMode ≠ 0 then s.vio 82 else if s.rstWriter r then f s else s.vio 81

-- the counters' writes (R502, R505, R506, R512)

/-- What lies at a counter's register. -/
inductive CntAt where
  | leaf (n loc inst : Nat)
  | sink (d p : Nat)
  | dieNode (n d : Nat)
  | pkgNode (n : Nat)
  | none
  deriving DecidableEq, Repr

/-- The counter and word at a register: word 0 or 1. -/
def cntAt (n : RegName) (ix : List Nat) : CntAt × Nat :=
  match n, ix with
  | .cntVio, [v, w] => (.leaf vioName hub v, w)
  | .cntVioAll, [w] => (.pkgNode vioName, w)
  | .cntVioFabSink, [d, p, w] => (.sink d p, w)
  | .cntPkgNode, [k, w] => (.pkgNode k, w)
  | .cntDieNode, [d, k, w] => (.dieNode k d, w)
  | .cntHubLeaf, [i, w] => ((match hubLeafAt i with
      | some (k, j) => .leaf k hub j
      | none => .none), w)
  | .cntDieLeaf, [d, i, w] => ((match dieLeafAt i with
      | some (k, j) => .leaf k d j
      | none => .none), w)
  | _, _ => (.none, 0)

/-- A node without k of its sum. -/
def CNode.sub (x : CNode) (k : BitVec 48) : CNode := { x with value := x.value - k }

/-- A leaf is cleared: its value leaves every ancestor in the same step (R505). -/
def State.leafClear (s : State) (n loc inst : Nat) : State :=
  let c := s.cnt
  let k := leafKey n loc inst
  let v := (Tbl.get ({} : Leaf) c.leaves k).value
  let dieNodes := if loc < 4 then Tbl.set {} c.dieNodes (n * 8 + loc) ((Tbl.get ({} : CNode) c.dieNodes (n * 8 + loc)).sub v)
    else c.dieNodes
  let pkgNodes : Tbl CNode := Tbl.set {} c.pkgNodes n ((Tbl.get ({} : CNode) c.pkgNodes n).sub v)
  { s with cnt := { c with leaves := Tbl.set {} c.leaves k {}, dieNodes := dieNodes, pkgNodes := pkgNodes } }

/-- A port leaf of CNT_VIO_FAB_SINK is cleared (R502). -/
def State.sinkClear (s : State) (d p : Nat) : State :=
  let k := leafKey sinkName hub (d * 32 + p)
  let v := (s.leaf k).value
  let c := s.cnt
  let up := leafKey vioName hub (44 + d)
  let x := Tbl.get ({} : Leaf) c.leaves up
  let leaves : Tbl Leaf := Tbl.set {} (Tbl.set {} c.leaves k {}) up { x with value := x.value - v }
  let pkgNodes : Tbl CNode := Tbl.set {} c.pkgNodes vioName ((Tbl.get ({} : CNode) c.pkgNodes vioName).sub v)
  { s with cnt := { c with leaves := leaves, pkgNodes := pkgNodes } }

/-- The sum modulo 2^48 of the leaves of a name at a place. -/
def Counters.leafSum (c : Counters) (n loc : Nat) : BitVec 48 :=
  c.leaves.foldl (fun (x : BitVec 48) e => if e.1 / 4096 = n * 8 + loc then x + e.2.value else x) 0

/-- A node re-formed from its children (R506). -/
def State.dieNodeReform (s : State) (n d : Nat) : State :=
  let c := s.cnt
  { s with cnt := { c with dieNodes := Tbl.set {} c.dieNodes (n * 8 + d) { value := c.leafSum n d } } }

def State.pkgNodeReform (s : State) (n : Nat) : State :=
  let c := s.cnt
  let v := (List.range 4).foldl (fun (x : BitVec 48) d => x + (Tbl.get ({} : CNode) c.dieNodes (n * 8 + d)).value) (c.leafSum n hub)
  { s with cnt := { c with pkgNodes := Tbl.set {} c.pkgNodes n { value := v } } }

/-- The wrapped flag of a leaf is cleared (R512). -/
def State.wrapClear (s : State) (k : Nat) : State :=
  { s with cnt := { s.cnt with leaves := Tbl.set {} s.cnt.leaves k { s.leaf k with wrapped := false } } }

/-- The counter's storage is on: a die's lies in its BRG domain. -/
def State.cntOn (s : State) (c : CntAt) : Bool :=
  match c with
  | .leaf _ loc _ => if loc < 4 then s.live (domBRG loc) else s.live domSPN
  | .dieNode _ d => s.live (domBRG d)
  | _ => s.live domSPN

/-- A write of a counter's word (R505, R506, R512). -/
def State.cntWrite (s : State) (r : Req) (c : CntAt) (w : Nat) (v : Word) : State :=
  if c = .none ∨ 2 ≤ w then s
  else if s.rstWriter r = false then s.vio 83
  else if w = 0 then
    match c with
    | .leaf n loc inst =>
      if v ≠ 0 ∨ (n = vioName ∧ 44 ≤ inst ∧ inst < 48) then s.vio 83 else s.leafClear n loc inst
    | .sink d p => if v ≠ 0 then s.vio 83 else s.sinkClear d p
    | _ => s.vio 83
  else
    match c with
    | .leaf n loc inst => if bitOf v 18 then s.wrapClear (leafKey n loc inst) else s
    | .sink d p => if bitOf v 18 then s.wrapClear (leafKey sinkName hub (d * 32 + p)) else s
    | .dieNode n d => if bitOf v 17 then s.dieNodeReform n d else s
    | .pkgNode n => if bitOf v 17 then s.pkgNodeReform n else s
    | .none => s

/-- A write at a counter's register offset. -/
def State.cntWriteAt (s : State) (r : Req) (off : Nat) (v : Word) : State :=
  match regAt off with
  | some (n, ix) =>
    let (c, w) := cntAt n ix
    if s.cntOn c then s.guarded r fun s => s.cntWrite r c w v else s
  | none => s

/-- COUNTER_CLEAR (R505, R512): a write of word 0 of the counter at an offset. -/
def execCounterClear (r : Req) (off : BitVec 26) (v : Word) (s : State) : Out :=
  .next (s.cntWriteAt r (off.toNat / 16 * 16) v)

/-- INEXACT_CLEAR (R506, R512): a write of word 1 of the counter at an offset. -/
def execInexactClear (r : Req) (off : BitVec 26) (v : Word) (s : State) : Out :=
  .next (s.byReq r fun s => s.cntWriteAt r (off.toNat / 16 * 16 + 4) v)

end Sys2Proof.Machine
end

