-- ==== Sys2Proof/Machine/Flags.lean ====
section
/-! DEFINITION. Results and flags of the Facet operations (R253–R265): integer results, rounding, accumulators, extraction,
exponents, peaks and extremes. -/

namespace Sys2Proof.Machine

-- flags (R255)

abbrev flZ : Nat := 0
abbrev flN : Nat := 1
abbrev flC : Nat := 2
abbrev flV : Nat := 3
abbrev flAZ : Nat := 4
abbrev flAN : Nat := 5
abbrev flAV : Nat := 6
abbrev flSSat : Nat := 8
abbrev flSOv : Nat := 9
abbrev flSV : Nat := 10

/-- What an integer operation gives: its result, and the flags that its table row names; none leaves a flag unchanged. -/
structure AluRes where
  val : Word
  z : Bool
  n : Bool
  c : Option Bool := none
  v : Option Bool := none
  ssat : Bool := false
  deriving DecidableEq, Repr

/-- A flag set to what an operation gives it. -/
def setFlag (fl : BitVec 16) (i : Nat) (o : Option Bool) : BitVec 16 :=
  match o with
  | some b => setBit fl i b
  | none => fl

/-- The flags after an integer operation: setting v sets sv too, and the sticky bits stay set (R255). -/
def AluRes.flags (r : AluRes) (fl : BitVec 16) : BitVec 16 :=
  let fl := setFlag (setFlag (setBit (setBit fl flZ r.z) flN r.n) flC r.c) flV r.v
  let fl := if r.v = some true then setBit fl flSV true else fl
  if r.ssat then setBit fl flSSat true else fl

/-- A plain 32-bit result: z and n follow it. -/
def plainRes (w : Word) (c v : Option Bool) (ssat : Bool) : AluRes :=
  { val := w, z := w == 0, n := w.msb, c := c, v := v, ssat := ssat }

/-- Bounds of a signed number of n bits. -/
def sMin (n : Nat) : Int := -(2 : Int) ^ (n - 1)
def sMax (n : Nat) : Int := (2 : Int) ^ (n - 1) - 1

/-- A value lies outside the signed range of n bits. -/
def outRange (n : Nat) (v : Int) : Bool := decide (v < sMin n ∨ sMax n < v)

/-- Sum and difference (R257 rows 0x01–0x04), wrapped or clamped. -/
def resAdd (clamp : Bool) (x y : Word) : AluRes :=
  let e := x.toInt + y.toInt
  let c := decide (2 ^ 32 ≤ x.toNat + y.toNat)
  let w := if clamp then BitVec.ofInt 32 (clampInt e (sMin 32) (sMax 32)) else x + y
  plainRes w (some c) (some (outRange 32 e)) (clamp && outRange 32 e)

def resSub (clamp : Bool) (x y : Word) : AluRes :=
  let e := x.toInt - y.toInt
  let c := decide (y.toNat ≤ x.toNat)
  let w := if clamp then BitVec.ofInt 32 (clampInt e (sMin 32) (sMax 32)) else x - y
  plainRes w (some c) (some (outRange 32 e)) (clamp && outRange 32 e)

/-- The 16-bit lanes of a word. -/
def laneLo (x : Word) : BitVec 16 := x.extractLsb' 0 16
def laneHi (x : Word) : BitVec 16 := x.extractLsb' 16 16

/-- A lane operation from its exact lane results (R257 rows 0x05–0x07). -/
def resLanes (clamp : Bool) (lo hi : Int) : AluRes :=
  let cut (e : Int) : BitVec 16 := BitVec.ofInt 16 (if clamp then clampInt e (sMin 16) (sMax 16) else e)
  let v := outRange 16 lo || outRange 16 hi
  let w : Word := cut hi ++ cut lo
  { val := w, z := w == 0, n := w.msb, c := some false, v := some v, ssat := clamp && v }

def resAdd2 (clamp : Bool) (x y : Word) : AluRes :=
  resLanes clamp ((laneLo x).toInt + (laneLo y).toInt) ((laneHi x).toInt + (laneHi y).toInt)

def resSub2 (x y : Word) : AluRes :=
  resLanes false ((laneLo x).toInt - (laneLo y).toInt) ((laneHi x).toInt - (laneHi y).toInt)

/-- A result with c and v cleared (R257 rows 0x08–0x0B, 0x0D, 0x0E). -/
def resLogic (w : Word) : AluRes := plainRes w (some false) (some false) false

def resAnd (x y : Word) : AluRes := resLogic (x &&& y)
def resOr (x y : Word) : AluRes := resLogic (x ||| y)
def resXor (x y : Word) : AluRes := resLogic (x ^^^ y)
def resMax (x y : Word) : AluRes := resLogic (if x.toInt < y.toInt then y else x)
def resMin (x y : Word) : AluRes := resLogic (if y.toInt < x.toInt then y else x)

/-- ABS (R257 row 0x0C). -/
def resAbs (x : Word) : AluRes :=
  let e : Int := if x.toInt < 0 then -x.toInt else x.toInt
  plainRes (BitVec.ofInt 32 (clampInt e (sMin 32) (sMax 32))) (some false) (some (outRange 32 e)) (outRange 32 e)

/-- Shifts (R258): the last bit shifted out, 0 for a shift of 0. -/
def resShl (x : Word) (k : Nat) : AluRes :=
  plainRes (x <<< k) (some (decide (1 ≤ k ∧ k ≤ 32) && x.getLsbD (32 - k))) (some false) false

def resShr (x : Word) (k : Nat) : AluRes :=
  plainRes (x >>> k) (some (decide (1 ≤ k ∧ k ≤ 32) && x.getLsbD (k - 1))) (some false) false

def resAsr (x : Word) (k : Nat) : AluRes :=
  plainRes (x.sshiftRight k) (some (decide (1 ≤ k) && (if k ≤ 32 then x.getLsbD (k - 1) else x.msb))) (some false) false

/-- MULW (R258). -/
def resMulw (x y : Word) : AluRes := resLogic (x * y)

/-- A result that touches z and n alone. -/
def resZN (w : Word) : AluRes := plainRes w none none false

/-- Redundant sign bits of the low n bits of a number below its top bit (R263). -/
def redundant {m : Nat} (w : BitVec m) : Nat → Nat
  | 0 => 0
  | n + 1 => if w.getLsbD n = w.msb then redundant w n + 1 else 0

/-- EXPN and NORM (R263). -/
def resExpn (x : Word) : AluRes := resZN (BitVec.ofNat 32 (redundant x 31))
def resNorm (x : Word) : AluRes := resZN (x <<< redundant x 31)

-- modes and rounding (R253, R254)

def stSat (st : BitVec 16) : Bool := bitOf st 8
def stRnd (st : BitVec 16) : Nat := fld st 9 2
def stFrac (st : BitVec 16) : Bool := bitOf st 11

/-- rnd(a, s) (R254), for s ≥ 1. -/
def rnd (mode : Nat) (a : Int) (s : Nat) : Int :=
  let d : Int := 2 ^ s
  let q := a.fdiv d
  let r := a - q * d
  let h : Int := 2 ^ (s - 1)
  if mode = 0 then (if h ≤ r then q + 1 else q)
  else if mode = 1 then (if h < r ∨ (r = h ∧ q % 2 ≠ 0) then q + 1 else q)
  else if mode = 3 then (if a < 0 ∧ r ≠ 0 then q + 1 else q)
  else q

-- accumulators (R259–R261)

/-- An accumulator. -/
abbrev Acc := BitVec 80

/-- What an accumulator operation gives: the accumulator, and whether it wrapped (none where sov is not named). -/
structure AccRes where
  val : Acc
  sov : Bool := false
  deriving DecidableEq, Repr

/-- write(a, s) (R259). -/
def accWrite (e : Int) : AccRes := { val := BitVec.ofInt 80 e, sov := outRange 80 e }

/-- az, an, av and the sticky sov (R255, R259). -/
def AccRes.flags (r : AccRes) (fl : BitVec 16) : BitVec 16 :=
  let fl := setBit (setBit (setBit fl flAZ (r.val == 0)) flAN r.val.msb) flAV (outRange 64 r.val.toInt)
  if r.sov then setBit fl flSOv true else fl

/-- P and PL (R259). -/
def prod (frac : Bool) (u w : Int) : Int := if frac then 2 * (u * w) else u * w

def prodLo (st : BitVec 16) (x y : Word) : Int := prod (stFrac st) (laneLo x).toInt (laneLo y).toInt
def prodHi (st : BitVec 16) (x y : Word) : Int := prod (stFrac st) (laneHi x).toInt (laneHi y).toInt
def prodFull (st : BitVec 16) (x y : Word) : Int := prod (stFrac st) x.toInt y.toInt

/-- Extraction of v to n bits (R262). -/
def extract (st : BitVec 16) (v : Int) (n : Nat) : AluRes :=
  if stSat st then
    let w : Word := BitVec.ofInt 32 (clampInt v (sMin n) (sMax n))
    plainRes w none none (outRange n v)
  else plainRes ((BitVec.ofInt n v).signExtend 32) none none false

def extH (st : BitVec 16) (a : Acc) : AluRes := extract st (rnd (stRnd st) a.toInt 16) 16
def extW (st : BitVec 16) (a : Acc) : AluRes := extract st a.toInt 32
def extS (st : BitVec 16) (a : Acc) (s : Nat) : AluRes :=
  extract st (if s = 0 then a.toInt else rnd (stRnd st) a.toInt s) 32

/-- EXPA (R263). -/
def resExpa (a : Acc) : AluRes := resZN (BitVec.ofInt 32 ((redundant a 79 : Int) - 16))

-- peaks and extremes (R264, R265)

/-- The kinds of running search. -/
inductive Peak where
  | pkn | maxi | mini
  deriving DecidableEq, Repr

/-- Bits [lo + n − 1 : lo] of an accumulator replaced. -/
def putAcc (a : Acc) (lo n v : Nat) : Acc :=
  BitVec.ofNat 80 (a.toNat - (a.toNat >>> lo) % 2 ^ n * 2 ^ lo + v % 2 ^ n * 2 ^ lo)

/-- step(s) of R264, with the value v (16 bits) that it compares. -/
def peakStep (k : Peak) (a : Acc) (v : BitVec 16) : Acc :=
  let cnt := fld a 32 16
  let held : BitVec 16 := BitVec.ofNat 16 (fld a 0 16)
  let better := match k with
    | .pkn => decide (held.toNat < v.toNat)
    | .maxi => decide (held.toInt < v.toInt)
    | .mini => decide (v.toInt < held.toInt)
  let a := if cnt = 0 ∨ better = true then putAcc (putAcc a 0 16 v.toNat) 16 16 cnt else a
  putAcc a 32 16 (cnt + 1)

/-- abs(s) of a 16-bit sample: abs(−32768) is 32768 (R264). -/
def abs16 (s : BitVec 16) : BitVec 16 := if s.msb then -s else s

/-- Bits needed to write n. -/
def bitLength (n : Nat) : Nat := if n = 0 then 0 else Nat.log2 n + 1

/-- The exponent of the peak, and a[79:64] := 0 (R264). -/
def peakEnd (k : Peak) (a : Acc) : Acc :=
  let a := match k with
    | .pkn =>
      let m := fld a 0 16
      putAcc a 48 4 (if m = 0 then 15 else 15 - bitLength m)
    | _ => a
  putAcc a 64 16 0

/-- PKN, MAXI and MINI (R264): the low sample first. -/
def peak (k : Peak) (a : Acc) (x : Word) : Acc :=
  let v (s : BitVec 16) : BitVec 16 := match k with
    | .pkn => abs16 s
    | _ => s
  peakEnd k (peakStep k (peakStep k a (v (laneLo x))) (v (laneHi x)))

/-- The sample value of extended PKN (R265). -/
def pknxVal (mode : Nat) (s : BitVec 16) : BitVec 16 :=
  match mode with
  | 1 => if s.msb then 0 else s
  | 2 => if s.msb then -s else 0
  | _ => abs16 s

/-- One sample of extended PKN (R265). -/
def pknxStep (t : Word) (a : Acc) (s : BitVec 16) : Acc :=
  let v := pknxVal (fld t 16 2) s
  let a := peakStep .pkn a v
  if fld t 0 16 ≤ v.toNat then putAcc a 52 12 (min (fld a 52 12 + 1) 4095) else a

/-- PKNX (R265). -/
def pknx (a : Acc) (x t : Word) : Acc := peakEnd .pkn (pknxStep t (pknxStep t a (laneLo x)) (laneHi x))

-- branch conditions (R256)

/-- A branch is taken. -/
def taken (fl : BitVec 16) (cond : BitVec 4) : Bool :=
  let z := bitOf fl flZ
  let n := bitOf fl flN
  let v := bitOf fl flV
  match cond.toNat with
  | 0 => true
  | 1 => z
  | 2 => !z
  | 3 => n != v
  | 4 => n == v
  | 5 => !z && n == v
  | 6 => z || n != v
  | 7 => !bitOf fl flC
  | 8 => bitOf fl flC
  | 9 => bitOf fl flAZ
  | 10 => !bitOf fl flAZ
  | 11 => bitOf fl flAN
  | 12 => !bitOf fl flAN
  | 13 => bitOf fl flAV
  | 14 => v
  | _ => true

end Sys2Proof.Machine
end

