-- ==== Sys2Proof/Machine/Operands.lean ====
section
/-! DEFINITION. Operands of the Facet operations: registers, moves and their addresses, the local address space, loops and
control registers (R209–R222, R241, R252, R266–R272). -/

namespace Sys2Proof.Machine

-- registers

def CoreSt.getX (q : CoreSt) (i : Fin 16) : Word := q.x.get i
def CoreSt.setX (q : CoreSt) (i : Fin 16) (v : Word) : CoreSt := { q with x := q.x.set i.val v i.isLt }
def CoreSt.getA (q : CoreSt) (i : Fin 4) : Acc := q.a.get i
def CoreSt.setA (q : CoreSt) (i : Fin 4) (v : Acc) : CoreSt := { q with a := q.a.set i.val v i.isLt }
def CoreSt.getP (q : CoreSt) (i : Fin 8) : Word := q.p.get i
def CoreSt.getM (q : CoreSt) (i : Fin 8) : Word := q.m.get i

/-- A pointer in its width: 18 bits, 32 on the Lamp (R209, R240). -/
def ptrWidth (c : Nat) (v : Word) : Word := if c = lampCore then v else v &&& 0x3FFFF

/-- A modifier in its width: 18 bits signed, 32 on the Lamp. -/
def modWidth (c : Nat) (v : Word) : Word := if c = lampCore then v else (v.extractLsb' 0 18).signExtend 32

/-- A code offset in its width: 14 bits, 32 on the Lamp. -/
def pcWidth (c : Nat) (v : Word) : Word := if c = lampCore then v else v &&& 0x3FFF

def CoreSt.setP (q : CoreSt) (c : Nat) (i : Fin 8) (v : Word) : CoreSt :=
  { q with p := q.p.set i.val (ptrWidth c v) i.isLt }
def CoreSt.setM (q : CoreSt) (c : Nat) (i : Fin 8) (v : Word) : CoreSt :=
  { q with m := q.m.set i.val (modWidth c v) i.isLt }

/-- x8–x15 (R252). -/
def hi8 (i : Fin 8) : Fin 16 := ⟨8 + i.val, by omega⟩

/-- An integer result written with its flags. -/
def CoreSt.putRes (q : CoreSt) (d : Fin 16) (r : AluRes) : CoreSt := { q.setX d r.val with fl := r.flags q.fl }

/-- Flags alone (CMP). -/
def CoreSt.putFlags (q : CoreSt) (r : AluRes) : CoreSt := { q with fl := r.flags q.fl }

/-- An accumulator written with its flags (R259). -/
def CoreSt.putAcc (q : CoreSt) (a : Fin 4) (r : AccRes) : CoreSt := { q.setA a r.val with fl := r.flags q.fl }

-- moves (R218, R252, R266)

/-- A move as it issues: direction, bytes, sign extension, data register, pointer and the modifier of a post-modify. -/
structure MoveOp where
  store : Bool
  size : Nat := 4
  sext : Bool := false
  xr : Fin 16
  p : Fin 8
  pm : Option (Fin 8) := none
  deriving DecidableEq, Repr

/-- A pointer number plus or minus 4. -/
def cross4 (p : Fin 8) : Fin 8 := ⟨(p.val + 4) % 8, by omega⟩

/-- Move slot k of a parallel instruction (R252). -/
def parMove (slot1 : Bool) (m : Move) : MoveOp :=
  let p : Fin 8 := ⟨m.q.val + (if slot1 then 4 else 0), by split <;> omega⟩
  { store := m.store, xr := hi8 m.r, p := p, pm := match m.pm with
    | .none => none
    | .own => some p
    | .cross => some (cross4 p) }

/-- The moves of a parallel instruction, slot 0 first. -/
def parMoves (mv : Moves) : List MoveOp :=
  ((mv.m0.map (parMove false)).toList) ++ ((mv.m1.map (parMove true)).toList)

/-- The move of an LDST instruction (R266). -/
def lsMove (f : LsForm) (store : Bool) (size : Nat) (sext : Bool) : List MoveOp :=
  [{ store := store, size := size, sext := sext, xr := f.xr, p := f.p, pm := if f.pm then some f.m else none }]

/-- A move's address: the pointer before the instruction (R218). -/
def CoreSt.moveAddr (q : CoreSt) (m : MoveOp) : Nat := (q.getP m.p).toNat

/-- Post-modify of one move, from the registers `o` before the instruction: two on one pointer add up (R218). -/
def postMod (c : Nat) (o : CoreSt) (q : CoreSt) (m : MoveOp) : CoreSt :=
  match m.pm with
  | some k => q.setP c m.p (q.getP m.p + o.getM k)
  | none => q

/-- Where a local address leads (R213, R241). -/
inductive Target where
  | here (a : Nat)
  | table (dev : Nat)
  | remote (dev : Nat)
  | access
  deriving DecidableEq, Repr

/-- A device address in register space (R585). -/
def inRegs (dev : Nat) : Bool := decide (regBase ≤ dev ∧ dev < regEnd)

/-- The target of a move at address a. -/
def CoreSt.target (q : CoreSt) (c a : Nat) (store : Bool) : Target :=
  if c = lampCore then
    if a < 0x400000 then .here a
    else if a < 0x40000000 then .access
    else if a < 0x80000000 then
      let dev := q.dwin.toNat * 0x40000000 + (a - 0x40000000)
      if inRegs dev && bitOf q.st 4 then .access else .remote dev
    else if a < 0x84000000 ∧ bitOf q.st 4 = false then .remote (regBase + (a - 0x80000000))
    else .access
  else if a < 0x10000 then .here a
  else if a < 0x20000 then .access
  else if a < 0x30000 then
    let dev := q.tbase.toNat * 0x10000 + (a - 0x20000)
    if store ∨ inRegs dev then .access else .table dev
  else .remote (q.rbase.toNat * 0x10000 + (a - 0x30000))

def CoreSt.moveTarget (q : CoreSt) (c : Nat) (m : MoveOp) : Target := q.target c (q.moveAddr m) m.store

/-- A move's store data: the low bytes of its register (R266). -/
def CoreSt.moveData (q : CoreSt) (m : MoveOp) : List Byte := bytesOf (q.getX m.xr).toNat m.size

/-- A loaded value extended to a word (R266). -/
def MoveOp.extend (m : MoveOp) (v : Nat) : Word :=
  if m.sext then
    (if m.size = 1 then (BitVec.ofNat 8 v).signExtend 32 else if m.size = 2 then (BitVec.ofNat 16 v).signExtend 32
      else BitVec.ofNat 32 v)
  else BitVec.ofNat 32 (v % 2 ^ (8 * m.size))

/-- Banks of a core's data memory (R214, R240). -/
def bankOf (c a : Nat) : Nat := a / 4 % (if c = lampCore then 16 else 8)

/-- Two moves meet one bank at different words (R214). -/
def CoreSt.bankConflict (q : CoreSt) (c : Nat) : List MoveOp → Bool
  | [m, n] =>
    match q.moveTarget c m, q.moveTarget c n with
    | .here a, .here b => bankOf c a == bankOf c b && a / 4 != b / 4
    | _, _ => false
  | _ => false

/-- The banks that the moves access in the core's own memory, slot 0 first. -/
def CoreSt.moveBanks (q : CoreSt) (c : Nat) (ms : List MoveOp) : List Nat :=
  ms.filterMap fun m => match q.moveTarget c m with
    | .here a => some (bankOf c a)
    | _ => none

/-- Cycles that the moves wait for their banks (R214–R216). -/
def CoreSt.bankWait (q : CoreSt) (c : Nat) (ms : List MoveOp) : Nat :=
  let banks := q.moveBanks c ms
  if banks = [] then 0 else q.time.served banks (q.bankConflict c ms) q.time.clock - q.time.clock

/-- Merged words that the narrow stores of an instruction write two cycles after the cycle t in which they read (R215). -/
def CoreSt.mergesOf (q : CoreSt) (c : Nat) (ms : List MoveOp) (t : Nat) : List (Nat × Nat) :=
  ms.filterMap fun m => match q.moveTarget c m with
    | .here a => if m.store && m.size < 4 then some (t + 2, bankOf c a) else none
    | _ => none

-- loops (R220–R222, R243)

/-- Active levels, and those that an exception or interrupt has suspended. -/
def CoreSt.ld (q : CoreSt) : Nat := fld q.st 0 3
def CoreSt.susp (q : CoreSt) : Nat := q.suspended.headD 0

def CoreSt.setLd (q : CoreSt) (n : Nat) : CoreSt := { q with st := BitVec.ofNat 16 (q.st.toNat / 8 * 8 + n % 8) }

def level (v : Vector Word 4) (i : Nat) : Word := v.get (Fin.ofNat 4 i)
def setLevel (v : Vector Word 4) (i : Nat) (w : Word) : Vector Word 4 := v.set (Fin.ofNat 4 i).val w (Fin.ofNat 4 i).isLt

/-- The end check after an instruction that completes without a taken branch (R221). -/
def CoreSt.endCheck (q : CoreSt) : Nat → CoreSt
  | 0 => { q with pc := q.pc + 4 }
  | n + 1 =>
    if q.ld ≤ q.susp ∨ level q.le (q.ld - 1) ≠ q.pc then { q with pc := q.pc + 4 }
    else if 1 < (level q.lc (q.ld - 1)).toNat then
      { q with lc := setLevel q.lc (q.ld - 1) (level q.lc (q.ld - 1) - 1), pc := level q.ls (q.ld - 1) }
    else (q.setLd (q.ld - 1)).endCheck n

/-- The PC moves on (R221). -/
def CoreSt.retire (q : CoreSt) : CoreSt := q.endCheck 8

/-- Levels whose body does not hold the target close (R222). -/
def CoreSt.closeLevels (q : CoreSt) (t : Word) : Nat → CoreSt
  | 0 => q
  | n + 1 =>
    if q.ld ≤ q.susp then q
    else if (level q.ls (q.ld - 1)).toNat ≤ t.toNat ∧ t.toNat ≤ (level q.le (q.ld - 1)).toNat then q
    else (q.setLd (q.ld - 1)).closeLevels t n

/-- A taken branch (R222, R269). -/
def CoreSt.branchTo (q : CoreSt) (t : Word) : CoreSt := { q.closeLevels t 8 with pc := t }

-- control registers (R211, R272)

/-- The Lamp in mode S. -/
def CoreSt.isS (q : CoreSt) (c : Nat) : Bool := c == lampCore && !bitOf q.st 4

/-- A control register number that is listed and that the core may reach. -/
def CoreSt.crOk (q : CoreSt) (c n : Nat) : Bool :=
  n = 0 || n = 1 || (decide (4 ≤ n) && decide (n < 0x10)) || n = 0x10 || n = 0x11 || n = 0x12 || n = 0x15 || n = 0x16 ||
    n = 0x17 || (decide (0x20 ≤ n) && decide (n ≤ 0x24)) || (decide (0x30 ≤ n) && decide (n ≤ 0x38) && q.isS c)

/-- dstat (R211). -/
def CoreSt.dstat (q : CoreSt) : Word :=
  BitVec.ofNat 32 (pack [(0, q.dmas.length), (3, b2n (q.dmas != [])), (4, b2n q.dblocked), (5, b2n q.dpart),
    (16, q.dbitmap.toNat)])

/-- The item register (R211). -/
def CoreSt.itemWord (q : CoreSt) : Word :=
  match q.item with
  | some it => if descSpec it.desc then BitVec.ofNat 32 (descHandle it.desc + 65536) else 0
  | none => 0

/-- A control register read; a write-only one reads 0 (R8). -/
def CoreSt.crRead (q : CoreSt) (c n : Nat) : Word :=
  match n with
  | 0x00 => q.st.setWidth 32
  | 0x01 => q.fl.setWidth 32
  | 0x10 => q.rbase
  | 0x11 => q.tbase
  | 0x12 => q.itemWord
  | 0x15 => q.bleft
  | 0x16 => q.cyc
  | 0x17 => BitVec.ofNat 32 c
  | 0x20 => q.dla
  | 0x21 => q.ddaLo
  | 0x22 => q.ddaHi
  | 0x24 => q.dstat
  | 0x30 => q.vbase
  | 0x31 => q.epc
  | 0x32 => q.est.setWidth 32
  | 0x33 => q.ecause
  | 0x34 => q.eaddr
  | 0x35 => q.imask
  | 0x36 => q.ipend
  | 0x37 => q.dwin.setWidth 32
  | 0x38 => q.tcmp
  | _ =>
    if 4 ≤ n ∧ n < 8 then level q.lc (n - 4)
    else if 8 ≤ n ∧ n < 12 then level q.ls (n - 8)
    else if 12 ≤ n ∧ n < 16 then level q.le (n - 12)
    else 0

/-- A control register written in its width (R211, R253, R255, R272); dctl's transfer apart. The mode bit changes only by a
return (R242). -/
def CoreSt.crWrite (q : CoreSt) (c n : Nat) (v : Word) : CoreSt :=
  match n with
  | 0x00 =>
    let m : Nat := if q.isS c then 0x0FE0 else 0x0F00
    { q with st := (q.st &&& ~~~ BitVec.ofNat 16 m) ||| (v.setWidth 16 &&& BitVec.ofNat 16 m) }
  | 0x01 => { q with fl := v.setWidth 16 &&& 0x077F }
  | 0x10 => { q with rbase := v }
  | 0x11 => { q with tbase := v }
  | 0x20 => { q with dla := v }
  | 0x21 => { q with ddaLo := v }
  | 0x22 => { q with ddaHi := v &&& 0xFFFF }
  | 0x30 => { q with vbase := v &&& 0xFFFFF000 }
  | 0x31 => { q with epc := v }
  | 0x32 => { q with est := v.setWidth 16 &&& 0x0FFF }
  | 0x35 => { q with imask := v }
  | 0x37 => { q with dwin := v.setWidth 18 }
  | 0x38 => { q with tcmp := v }
  | _ =>
    if 4 ≤ n ∧ n < 8 then { q with lc := setLevel q.lc (n - 4) v }
    else if 8 ≤ n ∧ n < 12 then { q with ls := setLevel q.ls (n - 8) (pcWidth c v) }
    else if 12 ≤ n ∧ n < 16 then { q with le := setLevel q.le (n - 12) (pcWidth c v) }
    else q

/-- A write of dctl queues a transfer, or is not queued (R211, R227, R228). -/
def State.dctl (s : State) (c : Nat) (v : Word) : State :=
  let q := s.core c
  if q.glint.isSome then
    (s.setCore c { q with dblocked := true, specBlocked := true }).count (cn 3 8) hub 0 1
  else
    let len := fld v 0 17
    let dev := q.ddaLo.toNat + 4294967296 * q.ddaHi.toNat
    if q.dmas.length < 4 ∧ 4 ≤ len ∧ len ≤ 65536 ∧ q.dla.toNat % 32 = 0 ∧ dev % 4 = 0 ∧
        q.dla.toNat + len ≤ 4 * dmemWords c then
      let t : Dma := { loc := q.dla, dev := BitVec.ofNat 48 dev, len := len, out := bitOf v 17 }
      let rows := if q.dmas = [] then rowsOf len else q.time.rows
      s.setCore c { q with dmas := q.dmas ++ [t], dblocked := false, time := { q.time with rows := rows } }
    else
      let s := s.setCore c { q with dblocked := true }
      if c = lampCore then s else s.vio (28 + coreDie c)

end Sys2Proof.Machine
end

