-- ==== Sys2Proof/Machine/Debug.lean ====
section
/-! DEFINITION. The debug block and the test port (19_debug_and_test): the access level and its unlock, halts, steps and
accesses to a halted core, the virtual terminal, captures, and the test port's instructions. Accesses to device addresses by
the debugger and the Dark Record's writing lie in `Machine/Access.lean`. -/

namespace Sys2Proof.Machine

/-- The classes that may reach the debug block (R519, R537; log entry 130). -/
def dbgMayUse (r : Req) : Bool := r.cls == .host || r.cls == .lamp || r.cls == .debug

/-- A write or an operation of the debug block (R514): at FULL only. -/
def State.dbgFull (s : State) (r : Req) (vio : Nat) (f : State → State) : State :=
  if s.live domSPN then
    s.guarded r fun s => if dbgMayUse r && s.dbg.level == 2 then f s else s.vio vio
  else s

-- the level (R515)

/-- The Lamp is released: a held watchdog count goes on with the grace at least (R246). -/
def State.wdgRelease (s : State) (c : Nat) : State :=
  let grace := s.rd .wdgGrace []
  if c = lampCore ∧ s.rb .wdgCtrl [] 1 = true ∧ s.wdg.left.toNat < grace.toNat then { s with wdg := { s.wdg with left := grace } }
  else s

/-- A halted core resumes (R246, R520, R521): after a BREAK's halt at the next instruction. -/
def State.resumeCore (s : State) (c : Nat) : State :=
  let s := s.sync c
  let s := if (s.core c).dbg.halted then s.wdgRelease c else s
  let q := s.core c
  if q.dbg.halted then
    let q := if q.dbg.cause = 3 ∧ (c = lampCore ∨ q.item.isSome = true) then q.retire else q
    s.setCore c { q with dbg := { q.dbg with halted := false, stepping := false, cause := 0 } }
  else s.setCore c { q with dbg := { q.dbg with stopping := false, stepping := false, cause := 0 } }

/-- The instruction register's codes that need FULL (R527). -/
def irFull (ir : BitVec 8) : Bool :=
  (decide (0x03 ≤ ir.toNat) && decide (ir.toNat ≤ 0x07)) || ir == 0x12 || ir == 0x13

/-- Leaving FULL (R515), all in one step. -/
def State.leaveFull (s : State) : State :=
  let s := (s.cores.map fun e => e.1).foldl (fun (s : State) c =>
    let s := s.resumeCore c
    let q := s.core c
    s.setCore c { q with dbg := { q.dbg with bkHalt := false } }) s
  let s := s.tpLevelLost
  let ir := if irFull s.dbg.tapIr then 0xFF else s.dbg.tapIr
  { s with dbg := { s.dbg with extest := false, tapIr := ir } }

/-- The level becomes v. -/
def State.setDbgLevel (s : State) (v : BitVec 2) : State :=
  let s := if s.dbg.level = 2 ∧ v ≠ 2 then s.leaveFull else s
  { s with dbg := { s.dbg with level := v } }

/-- A write of DBG_LEVEL (R515). -/
def State.levelWrite (s : State) (r : Req) (v : Word) : State :=
  let n := v.setWidth 2
  if dbgMayUse r = false ∨ s.dbg.level.toNat < n.toNat then s.vio 90
  else s.setDbgLevel n

/-- DBG_LEVEL_LOWER (R515). -/
def execDbgLevelLower (r : Req) (v : Word) (s : State) : Out :=
  .next (if s.live domSPN then s.guarded r fun s => s.levelWrite r v else s)

-- the unlock (R516, R517)

/-- The challenge is voided. -/
def State.voidChallenge (s : State) : State := { s with dbg := { s.dbg with chalValid := false, chalLeft := 0, chal := [] } }

/-- Eight words from the hub's random source (R516). -/
def State.freshChallenge (s : State) : State :=
  upTo (fun i (s : State) =>
    let (w, s) := s.free 32
    { s with dbg := { s.dbg with chal := Tbl.set 0 s.dbg.chal i w } }) 8 s

/-- A request for a challenge (R516, R517, R537). -/
def State.unlockReq (s : State) (target : BitVec 2) : State :=
  if s.dbg.lockout ∨ target = 0 ∨ target = 3 then s.vio 89
  else
    let s := (s.wr .dbgUnlock [] (target.setWidth 32)).voidChallenge.freshChallenge
    { s with dbg := { s.dbg with chalValid := true, chalLeft := 1000000 } }

/-- UNLOCK_REQ. -/
def execUnlockReq (r : Req) (target : BitVec 2) (s : State) : Out :=
  .next (if s.live domSPN then
    s.guarded r fun s => if dbgMayUse r then s.unlockReq target else s.vio 91
  else s)

/-- A sparse table's words as bytes, low word first. -/
def wordBytes (t : Tbl Word) (n : Nat) : List Byte := (List.range n).flatMap fun i => bytesOf (Tbl.get 0 t i).toNat 4

/-- The target that DBG_UNLOCK holds. -/
def State.unlockTarget (s : State) : BitVec 2 := (s.rd .dbgUnlock []).setWidth 2

/-- The response matches (R516): every response while the debug-key hash is unprogrammed, and none once keys_void is
(R534). -/
def State.responseOk (s : State) : Bool :=
  if s.dbg.keysVoid then false
  else
    match s.cfg.fuseHd with
    | none => true
    | some h =>
      let m := wordBytes s.dbg.chal 8 ++ bytesOf Config.serial.toNat 8 ++ bytesOf s.unlockTarget.toNat 1
      decide (hmac384 (bytesOf h.toNat 48) m = wordBytes s.dbg.resp 12)

/-- A check of the response (R516, R517): the level becomes the target, or nothing but the lockout begins. -/
def State.unlockCheck (s : State) : State :=
  if s.dbg.chalValid && s.responseOk then
    let s := { s.voidChallenge with dbg := { s.voidChallenge.dbg with lastOk := true } }
    (s.setDbgLevel s.unlockTarget).count (cn 17 0) hub 0 1
  else
    { s.voidChallenge with dbg := { s.voidChallenge.dbg with lastOk := false, lockout := true, lockLeft := 1000000 } }.vio 89

/-- UNLOCK_CHECK. -/
def execUnlockCheck (r : Req) (s : State) : Out :=
  .next (if s.live domSPN then
    s.guarded r fun s => if dbgMayUse r then s.unlockCheck else s.vio 91
  else s)

/-- The lockout ends (R517). -/
def State.endLockout (s : State) : State := { s with dbg := { s.dbg with lockout := false, lockLeft := 0 } }

/-- n µs of MCLK pass for the challenge, the lockout and the fuse programming (R516, R517, R530). -/
def State.debugMicros (s : State) (n : Nat) : State :=
  if n = 0 then s
  else
    let s := { s with dbg := { s.dbg with
      chalLeft := s.dbg.chalLeft - n, lockLeft := s.dbg.lockLeft - n, fuseLeft := s.dbg.fuseLeft - n } }
    let s := if s.dbg.chalValid && s.dbg.chalLeft == 0 then s.voidChallenge else s
    if s.dbg.lockout && s.dbg.lockLeft == 0 then s.endLockout else s

/-- CHALLENGE_EXPIRY (R516): the time that the challenge has left passes. -/
def execChallengeExpiry (s : State) : Out := .next s.voidChallenge

/-- LOCKOUT_EXPIRY (R517): the time that the lockout has left passes. -/
def execLockoutExpiry (s : State) : Out := .next s.endLockout

-- halts (R520–R522)

/-- Every member of a group resumes (R520). -/
def State.resumeGroup (s : State) (g : Nat) : State := (s.groupMembers g).foldl (fun s c => s.resumeCore c) s

/-- A halt, resume or step of one core (R520, R521, R539): refused below FULL and for a core whose domain is off. -/
def State.coreControl (s : State) (r : Req) (c : Nat) (f : State → State) : State :=
  s.dbgFull r 92 fun s => if s.coreLive c then f s else s.vio 92

/-- CORE_HALT. -/
def execCoreHalt (r : Req) (core : Core) (s : State) : Out :=
  .next (s.coreControl r core.val fun s => s.haltCore core.val 1)

/-- CORE_RESUME. -/
def execCoreResume (r : Req) (core : Core) (s : State) : Out :=
  .next (s.coreControl r core.val fun s => s.resumeCore core.val)

/-- One instruction is to issue before the core halts again (R521); refused unless the core is halted. -/
def State.stepCore (s : State) (c : Nat) : State :=
  if (s.core c).dbg.halted then
    let s := s.resumeCore c
    let q := s.core c
    s.setCore c { q with dbg := { q.dbg with stepping := true } }
  else s.vio 92

/-- CORE_STEP. -/
def execCoreStep (r : Req) (core : Core) (s : State) : Out :=
  .next (s.coreControl r core.val fun s => s.stepCore core.val)

/-- GROUP_HALT. -/
def execGroupHalt (r : Req) (g : Fin 16) (s : State) : Out := .next (s.dbgFull r 92 fun s => s.haltGroup g.val)

/-- GROUP_RESUME. -/
def execGroupResume (r : Req) (g : Fin 16) (s : State) : Out := .next (s.dbgFull r 92 fun s => s.resumeGroup g.val)

/-- A write of DBG_CORE + 0x00 (R539). -/
def State.coreCtrlWrite (s : State) (c : Nat) (v : Word) : State :=
  let q := s.core c
  let dbg := { q.dbg with bkHalt := bitOf v 3, group := BitVec.ofNat 4 (fld v 4 4), groupEn := bitOf v 8 }
  let s := if s.coreLive c then s.setCore c { q with dbg := dbg } else s
  let act (i : Nat) (f : State → State) (s : State) : State :=
    if bitOf v i then if s.coreLive c then f s else s.vio 92 else s
  act 2 (fun s => s.stepCore c) (act 1 (fun s => s.resumeCore c) (act 0 (fun s => s.haltCore c 1) s))

/-- A write of DBG_HG W0 (R538): halt, resume and freeze_cfe. -/
def State.groupWrite (s : State) (g : Nat) (v : Word) : State :=
  let s := { s with dbg := { s.dbg with freeze := Tbl.set 0 s.dbg.freeze g (BitVec.ofNat 4 (fld v 2 4)) } }
  let s := if bitOf v 0 then s.haltGroup g else s
  if bitOf v 1 then s.resumeGroup g else s

-- registers and memory of a core (R521)

/-- The control registers that the debugger may name: those of the core's instructions, and on the Lamp its own ones in either
mode. -/
def CoreSt.dbgCrOk (q : CoreSt) (c n : Nat) : Bool := { q with st := setBit q.st 4 false }.crOk c n || n == 0x23

/-- A register by its selector, as D0–D2. -/
def CoreSt.selRead (q : CoreSt) (c n : Nat) : Option (Word × Word × Word) :=
  if n < 0x10 then some (q.getX (Fin.ofNat 16 n), 0, 0)
  else if n < 0x14 then
    let a := q.getA (Fin.ofNat 4 n)
    some (a.extractLsb' 0 32, a.extractLsb' 32 32, (a.extractLsb' 64 16).setWidth 32)
  else if 0x18 ≤ n ∧ n < 0x20 then some (q.getP (Fin.ofNat 8 n), 0, 0)
  else if 0x20 ≤ n ∧ n < 0x28 then some (q.getM (Fin.ofNat 8 n), 0, 0)
  else if n = 0x28 then some (q.pc, 0, 0)
  else if 0x40 ≤ n ∧ q.dbgCrOk c (n - 0x40) then some (q.crRead c (n - 0x40), 0, 0)
  else none

/-- A register written from D0–D2 by its selector. -/
def State.selWrite (s : State) (c n : Nat) (d0 d1 d2 : Word) : State :=
  let q := s.core c
  if n < 0x10 then s.setCore c (q.setX (Fin.ofNat 16 n) d0)
  else if n < 0x14 then s.setCore c (q.setA (Fin.ofNat 4 n) (d2.setWidth 16 ++ d1 ++ d0))
  else if 0x18 ≤ n ∧ n < 0x20 then s.setCore c (q.setP c (Fin.ofNat 8 n) d0)
  else if 0x20 ≤ n ∧ n < 0x28 then s.setCore c (q.setM c (Fin.ofNat 8 n) d0)
  else if n = 0x28 then s.setCore c { q with pc := pcWidth c d0 }
  else if n = 0x63 then s.dctl c d0
  else s.setCore c (q.crWrite c (n - 0x40) d0)

/-- A write of DBG_CORE + 0x08 (R521, R539): the selector and direction, and with go the access. -/
def State.regGo (s : State) (c : Nat) (v : Word) : State :=
  let put (s : State) (f : CoreDbg → CoreDbg) : State :=
    let q := s.core c
    s.setCore c { q with dbg := f q.dbg }
  let s := put (s.sync c) fun d => { d with reg := v.setWidth 8, wr := bitOf v 9 }
  if bitOf v 8 = false then s
  else
    let q := s.core c
    match (if q.dbg.halted then q.selRead c q.dbg.reg.toNat else none) with
    | none => put s fun d => { d with ok := false }
    | some (d0, d1, d2) =>
      if q.dbg.wr then
        put (s.selWrite c q.dbg.reg.toNat q.dbg.d0 q.dbg.d1 q.dbg.d2) fun d => { d with ok := true }
      else put s fun d => { d with ok := true, d0 := d0, d1 := d1, d2 := d2 }

/-- REG_ACCESS. -/
def execRegAccess (r : Req) (core : Core) (v : Word) (s : State) : Out :=
  .next (s.dbgFull r 91 fun s => s.regGo core.val v)

/-- A word that MEM_ADDR names: instruction memory or not, and its number (R521). -/
def memWord (c a : Nat) : Option (Bool × Nat) :=
  if c = lampCore then if a < 0x400000 then some (false, a / 4) else none
  else if a < 0x10000 then some (false, a / 4)
  else if a < 0x14000 then some (true, (a - 0x10000) / 4)
  else none

/-- MEM_ADDR after an access. -/
def State.memNext (s : State) (c : Nat) : State :=
  let q := s.core c
  s.setCore c { q with dbg := { q.dbg with memAddr := q.dbg.memAddr + 4 } }

/-- A read of MEM_DATA (R521): the word, or none where it is uncorrectable; 0 where no memory lies at MEM_ADDR. A quiet read
— every one below FULL — leaves MEM_ADDR (R518). -/
def State.memDataRead (s : State) (c : Nat) (quiet : Bool) : Option Word × State :=
  let next (s : State) : State := if quiet || s.dbg.level != 2 then s else s.memNext c
  match memWord c (s.core c).dbg.memAddr.toNat with
  | none => (some 0, next s)
  | some (im, i) =>
    let (w, s) := s.readLocal none c im i
    (w, next s)

/-- A write of MEM_DATA (R521): instruction memory only while the core is halted or its cluster parked. -/
def State.memDataWrite (s : State) (c : Nat) (v : Word) : State :=
  match memWord c (s.core c).dbg.memAddr.toNat with
  | none => s.memNext c
  | some (im, i) =>
    if im && !(s.core c).dbg.halted && !s.parked (coreCluster c) then s
    else
      let s := s.writeLocal c im i v
      (if im then s else s.nearLost c (4 * i)).memNext c

/-- MEM_ACCESS. -/
def execMemAccess (r : Req) (core : Core) (write : Option Word) (s : State) : Out :=
  let c := core.val
  .next (s.byReq r fun s => match write with
  | some v => s.dbgFull r 91 fun s => if s.coreLive c then s.memDataWrite c v else s.vio 91
  | none =>
    if s.live domSPN = false then s
    else if dbgMayUse r = false ∨ s.dbg.level = 0 then (s.countFor r.spec vioName hub 91 1).answer r .error
    else if s.coreLive c = false then s.answer r .dark
    else
      match s.memDataRead c false with
      | (some w, s) => s.answer r (.word w)
      | (none, s) => s.answer r .poisoned)

/-- DBG_LCK_FORCE (R523). -/
def State.dbgForce (s : State) (n : Nat) : State := if (s.lock n).owner = 0 then s.vio 91 else s.lockForce n

/-- The force-release command. -/
def execDbgLckForce (r : Req) (n : BitVec 8) (s : State) : Out := .next (s.dbgFull r 91 fun s => s.dbgForce n.toNat)

-- the virtual terminal (R524)

/-- A core writes its TX. -/
def State.vtPut (s : State) (c : Nat) (b : Byte) : State :=
  if (Tbl.get none s.dbg.vtTx c).isSome then s.vio 93
  else { s with dbg := { s.dbg with vtTx := Tbl.set none s.dbg.vtTx c (some b) } }

/-- A byte register as it reads: the byte in [7:0] and valid in [8]. -/
def vtWord (v : VtReg) : Word :=
  match v with
  | some b => BitVec.ofNat 32 (256 + b.toNat)
  | none => 0

/-- VT_TX_WRITE: the core writes through its alias; a speculative item's write is blocked (R125). -/
def execVtTxWrite (core : Core) (b : Byte) (s : State) : Out :=
  let c := core.val
  .next (if s.coreLive c && s.live domSPN then
    if (s.core c).glint.isSome then s.count (cn 3 8) hub 0 1 else s.vtPut c b
  else s)

/-- A read of a TX: a live one at FULL takes the byte (R518). -/
def State.vtTake (s : State) (c : Nat) (live : Bool) : Word × State :=
  let w := vtWord (Tbl.get none s.dbg.vtTx c)
  (w, if live && s.dbg.level == 2 then { s with dbg := { s.dbg with vtTx := Tbl.set none s.dbg.vtTx c none } } else s)

/-- VT_TX_READ. -/
def execVtTxRead (r : Req) (core : Core) (live : Bool) (s : State) : Out :=
  .next (s.byReq r fun s => s.onBehalfOf r.spec fun s => if s.live domSPN = false then s
  else if dbgMayUse r = false ∨ s.dbg.level = 0 then (s.vio 91).answer r .error
  else
    let (w, s) := s.vtTake core.val live
    s.answer r (.word w))

/-- A write of a core's RX by the debugger, or by a core at an address other than its alias. -/
def State.vtRxPut (s : State) (r : Req) (c : Nat) (b : Byte) : State :=
  if r.cls = .facet ∨ r.cls = .lamp then s.vio 93
  else if dbgMayUse r = false ∨ s.dbg.level ≠ 2 then s.vio 91
  else if (Tbl.get none s.dbg.vtRx c).isSome then s.vio 93
  else { s with dbg := { s.dbg with vtRx := Tbl.set none s.dbg.vtRx c (some b) } }

/-- VT_RX_WRITE. -/
def execVtRxWrite (r : Req) (core : Core) (b : Byte) (s : State) : Out :=
  .next (if s.live domSPN then s.guarded r fun s => s.vtRxPut r core.val b else s)

/-- A core takes its RX byte. -/
def State.vtGet (s : State) (c : Nat) : Word × State :=
  (vtWord (Tbl.get none s.dbg.vtRx c), { s with dbg := { s.dbg with vtRx := Tbl.set none s.dbg.vtRx c none } })

/-- VT_RX_READ. -/
def execVtRxRead (core : Core) (s : State) : Out :=
  let c := core.val
  .next (if s.coreLive c && s.live domSPN then
    let (w, s) := s.vtGet c
    s.answer (coreReq c (s.core c).glint) (.word w)
  else s)

-- captures (R531)

/-- DBG_DR_CTRL.capture: one capture at a time. -/
def State.captureWrite (s : State) : State :=
  if s.capture.isSome then s else { s with capture := some (s.captureOf false none) }

/-- DR_CAPTURE. -/
def execDrCapture (r : Req) (s : State) : Out := .next (s.dbgFull r 91 State.captureWrite)

-- the test port (R526–R530)

/-- The codes of the family that takes the contacts (R528). -/
def irFamily (ir : BitVec 8) : Bool := decide (0x03 ≤ ir.toNat) && decide (ir.toNat ≤ 0x07)

/-- Entry to the family (R528): every lane enters state 0, the far halves enter self-refresh and are unmapped, and the link
goes down. -/
def State.takeContacts (s : State) : State :=
  let s := { s with dbg := { s.dbg with extest := true } }
  let s := (List.range 4).foldl (fun (s : State) d => (dieLanes d).foldl (fun s l => s.forceDark l) s) s
  let dbm := { s.dbm with
    half0 := { s.dbm.half0 with trained := false }, half1 := { s.dbm.half1 with trained := false } }
  { s with dbm := dbm, hif := { s.hif with up := false, width := 0, speed := 0 } }

/-- The instruction register takes a code (R527, R528): the family is entered, or left. -/
def State.setIr (s : State) (ir : BitVec 8) : State :=
  let s := if irFamily ir && !s.dbg.extest then s.takeContacts else s
  { s with dbg := { s.dbg with tapIr := ir, extest := irFamily ir } }

/-- An instruction is loaded (R526, R527): below its level it selects BYPASS and is counted. The test port answers once
phase AON has ended. -/
def State.loadIr (s : State) (ir : BitVec 8) : State :=
  if bitOf s.su.ended 0 = false then s
  else if irFull ir && s.dbg.level != 2 then (s.setIr 0xFF).vio 91
  else s.setIr ir

/-- The boundary register captures the contacts; its cells' values lie outside the manual. -/
def State.captureCells (s : State) : State :=
  { s with dbg := { s.dbg with boundary := some s.freeCtr }, freeCtr := s.freeCtr + 1 }

/-- TEST_LOGIC_RESET (R526). -/
def execTestLogicReset (s : State) : Out := .next (s.loadIr 0x01)

/-- BYPASS. -/
def execBypass (s : State) : Out := .next (s.loadIr 0xFF)

/-- IDCODE: the code leaves at TDO. -/
def execIdcode (s : State) : Out :=
  .next (if bitOf s.su.ended 0 then (s.loadIr 0x01).emit (.tdo s.idcodeWord) else s)

/-- SAMPLE/PRELOAD. -/
def execSamplePreload (s : State) : Out :=
  .next (if bitOf s.su.ended 0 then (s.loadIr 0x02).captureCells else s)

/-- An instruction of the boundary register: its cells are captured once it is selected. -/
def State.boundaryIr (s : State) (ir : BitVec 8) : State :=
  let s := s.loadIr ir
  if s.dbg.tapIr = ir then s.captureCells else s

/-- EXTEST. -/
def execExtest (s : State) : Out := .next (s.boundaryIr 0x03)

/-- CLAMP. -/
def execClamp (s : State) : Out := .next (s.loadIr 0x04)

/-- HIGHZ. -/
def execHighz (s : State) : Out := .next (s.loadIr 0x05)

/-- EXTEST_PULSE. -/
def execExtestPulse (s : State) : Out := .next (s.boundaryIr 0x06)

/-- EXTEST_TRAIN. -/
def execExtestTrain (s : State) : Out := .next (s.boundaryIr 0x07)

/-- A customer fuse group takes its value (R530). -/
def State.fuseTake (s : State) (g : Nat) (v : BitVec 388) : State :=
  let prog := { s with dbg := { s.dbg with fuseProg := setBit s.dbg.fuseProg g true } }
  match g with
  | 0 => { prog with cfg := { s.cfg with fuseKf := some (v.setWidth 256) } }
  | 1 => { prog with cfg := { s.cfg with fuseKa := some (v.setWidth 384) } }
  | 2 => { prog with cfg := { s.cfg with fuseHd := some (v.setWidth 384) } }
  | 3 => { prog with cfg := { s.cfg with fuseNoObserve := bitOf v 0 } }
  | _ => s

/-- A customer fuse group is programmed (R530): busy for a time of at most 20 ms, a free value (log entry 131). -/
def State.fuseStart (s : State) (g : Nat) (v : BitVec 388) : State :=
  if 4 ≤ g then s
  else
    let (k, s) := s.free 15
    let s := s.fuseTake g v
    { s with dbg := { s.dbg with fuseLeft := k.toNat % 20000 + 1 } }

/-- FUSE_PROG (R527, R530): a group is programmed only once, and one at a time. -/
def execFuseProg (dr : BitVec 392) (s : State) : Out :=
  let s := s.loadIr 0x13
  .next (if s.dbg.tapIr = 0x13 ∧ bitOf s.su.ended 0 = true then
    let g := fld dr 0 4
    if s.dbg.fuseLeft ≠ 0 ∨ (g < 4 ∧ bitOf s.dbg.fuseProg g = true) then s.vio 91
    else s.fuseStart g (dr.extractLsb' 4 388)
  else s)

/-- CFG_STREAM (R470, R477, R527): the instruction is selected, and one Update-DR brings a word of the stream. -/
def execCfgStream (w : Word) (s : State) : Out :=
  let s := s.loadIr 0x12
  .next (if s.dbg.tapIr = 0x12 ∧ s.on domCFG = true ∧ s.on domSPN = true then s.tpWord w else s)

/-- Entry to a private mode (R527, R534): the private instruction has been selected by the maker, keys_void is programmed, and
every NV area but the Dark Record is erased. The test port answers once phase AON has ended. -/
def execPrivateMode (s : State) : Out :=
  .next (if bitOf s.su.ended 0 then
    let s := s.setIr 0x7F
    { s with
      dbg := { s.dbg with keysVoid := true },
      nv := { s.nv with
        mem := s.nv.mem.filter fun e => decide (0x1D1000000 ≤ e.1 ∧ e.1 < 0x1D2000000),
        used := s.nv.used.filter fun e => decide (e.1 / 64 = 5) } }
  else s)

end Sys2Proof.Machine
end

