-- ==== Sys2Proof/Machine/Gpio.lean ====
section
/-! DEFINITION. The GPIO banks (21_pins_and_electrical R576–R580, R583, R584). -/

namespace Sys2Proof.Machine

/-- A write of the GPIO block (R580): the host and the Lamp only. -/
def State.gpiWrite (s : State) (r : Req) (f : State → State) : State :=
  if s.live domGPI then s.guarded r fun s => if hostOrLamp r then f s else s.vio 95 else s

/-- A pin's own func field. -/
def State.pinFunc (s : State) (b i : Nat) : Nat := s.rf .gpiPin [b, i] 0 3

/-- The function that a pin follows (R580): an odd pin of a pair follows its even neighbour; bank GA is the accept function
while acc_en is 1 (R578). -/
def State.pinActs (s : State) (b i : Nat) : Nat :=
  if b = 0 ∧ s.rb .gpiCtrl [] 0 = true then 5
  else if i % 2 = 1 ∧ s.rb .gpiPin [b, i - 1] 3 = true then s.pinFunc b (i - 1)
  else s.pinFunc b i

/-- The bank's rail is at power-good (R583). -/
def State.bankOk (s : State) (b : Nat) : Bool := if b = 0 then s.rails.vioGa else s.rails.vioGb

/-- A write of GPI_PIN (R580). -/
def State.gpiPinPut (s : State) (b i : Nat) (v : Word) : State :=
  if 5 ≤ fld v 0 3 ∨ (i % 2 = 1 ∧ bitOf v 3 = true) ∨ (b = 0 ∧ s.rb .gpiCtrl [] 0 = true) then s.vio 95
  else s.store .gpiPin [b, i] v

/-- GPI_PIN_WRITE. -/
def execGpiPinWrite (r : Req) (bank : Fin 2) (pin : Fin 24) (v : Word) (s : State) : Out :=
  .next (s.gpiWrite r fun s => s.gpiPinPut bank.val pin.val v)

/-- A write of GPI_CTRL (R580): acc_en only over idle GA pins, mark_k 8–40. -/
def State.gpiCtrlPut (s : State) (v : Word) : State :=
  let k := fld v 8 6
  if k < 8 ∨ 40 < k ∨ (bitOf v 0 = true ∧ (List.range 24).any (fun i => s.pinFunc 0 i != 0) = true) then s.vio 95
  else s.store .gpiCtrl [] v

/-- ACC_EN_WRITE (R578). -/
def execAccEnWrite (r : Req) (v : Word) (s : State) : Out := .next (s.gpiWrite r fun s => s.gpiCtrlPut v)

/-- The levels at an input's contact. -/
def State.pinLevel (s : State) (b i : Nat) : Bool :=
  let f := s.pinActs b i
  (f == 1 || f == 3) && s.bankOk b && (bitOf s.gpio.levels (24 * b + i) != s.rb .gpiPin [b, i] 4)

/-- GPI_IN of a bank. -/
def State.gpiInWord (s : State) (b : Nat) : Word :=
  BitVec.ofNat 32 (((List.range 24).map fun i => if s.pinLevel b i then 2 ^ i else 0).sum)

/-- BUSY_EDGE (R577, R579): the contact takes its new level, and the edge of a BUSY pin enters the queue with its tick
count. -/
def execBusyEdge (bank : Fin 2) (pin : Fin 24) (rising : Bool) (s : State) : Out :=
  let b := bank.val
  let i := pin.val
  let n := 24 * b + i
  .next (if bitOf s.gpio.levels n == rising then s
  else
    let s := { s with gpio := { s.gpio with levels := setBit s.gpio.levels n rising } }
    if s.live domGPI && s.bankOk b && s.pinActs b i == 3 then
      let e : Edge := { tick := s.tb.tick, pin := BitVec.ofNat 6 n, rising := rising != s.rb .gpiPin [b, i] 4 }
      let g := s.gpio
      if g.edges.length < 64 then { s with gpio := { g with edges := g.edges ++ [e] } }
      else { s with gpio := { g with ovf := true } }
    else s)

/-- The head of the edge queue is removed (R579). -/
def State.edgeDrop (s : State) : State := { s with gpio := { s.gpio with edges := s.gpio.edges.drop 1 } }

/-- EDGE_POP. -/
def execEdgePop (r : Req) (s : State) : Out := .next (s.gpiWrite r State.edgeDrop)

/-- MARK_PULSE (R577): at a tick that is a multiple of 2^mark_k. -/
def execMarkPulse (bank : Fin 2) (pin : Fin 24) (s : State) : Out :=
  .next (if s.live domGPI && s.bankOk bank.val && s.tb.counting && s.pinActs bank.val pin.val == 4 &&
      s.tb.tick.toNat % 2 ^ s.rf .gpiCtrl [] 8 6 == 0 then
    s.emit (.mark bank pin)
  else s)

/-- GPI_STAT (R583). -/
def State.gpiStatWord (s : State) : Word :=
  BitVec.ofNat 32 (pack [(0, b2n s.rails.vioGa), (1, b2n s.rails.vioGb),
    (2, b2n (s.rb .gpiCtrl [] 0 && s.on domGPI && s.rails.vioGa)), (3, b2n s.gpio.ovf)])

/-- GPI_EDGE (R583). -/
def State.gpiEdgeWord (s : State) (w : Nat) : Word :=
  match s.gpio.edges, w with
  | e :: _, 0 => BitVec.ofNat 32 (e.tick.toNat * 64)
  | e :: _, 1 => BitVec.ofNat 32 (e.tick.toNat * 64 / 4294967296)
  | e :: l, 2 => BitVec.ofNat 32 (pack [(0, e.pin.toNat), (6, b2n e.rising), (7, 1), (8, l.length + 1)])
  | _, _ => 0

end Sys2Proof.Machine
end

