-- ==== Sys2Proof/Machine/Hif.lean ====
section
/-! DEFINITION. The host interface's rings, vectors, window base and AER (20_host_interface), and the command
DARK_RECORD_READ. -/

namespace Sys2Proof.Machine

/-- A write of a readout ring's block (R561): the host and the Lamp only. -/
def State.ringWrite (s : State) (r : Req) (f : State → State) : State :=
  if s.live domSPN then s.guarded r fun s => if hostOrLamp r then f s else s.vio 86 else s

/-- The event of ring k that is to be published next: the first confirmed one, once it is PUBLISHING (R128, R552). -/
def State.ringNext (s : State) (k : Nat) : Option Nat :=
  (List.range 64).find? fun g => (s.slot g).state == 3 && (s.slot g).ring == k && s.firstOnRing g

/-- Ring k is to stop: an event that is being written is cut off, and is written from its beginning when en has risen again
(R551). -/
def State.stopRing (s : State) (k : Nat) : State :=
  match s.ringNext k with
  | some g => s.cutEvent g
  | none => s

/-- A write of a ring's control word (R550, R561): sizes outside 20–36 and a new size while en = 1 are refused; a rising edge
of en zeroes prod and cons. -/
def State.ringCtrlPut (s : State) (k : Nat) (v : Word) : State :=
  let n := fld v 1 6
  let on := s.ringOn k
  if n < 20 ∨ 36 < n ∨ (on = true ∧ n ≠ s.rf .ringCtrl [k] 1 6) then s.vio 86
  else
    let s := if on && !bitOf v 0 then s.stopRing k else s
    let s := s.store .ringCtrl [k] v
    if bitOf v 0 && !on then s.setRing k { s.ring k with prod := 0, cons := 0 } else s

/-- RING_ENABLE: a write with en = 1. -/
def execRingEnable (r : Req) (ring : Fin 16) (v : Word) (s : State) : Out :=
  .next (s.ringWrite r fun s => s.ringCtrlPut ring.val (setBit v 0 true))

/-- RING_DISABLE (R551): a write with en = 0. -/
def execRingDisable (r : Req) (ring : Fin 16) (v : Word) (s : State) : Out :=
  .next (s.ringWrite r fun s => s.ringCtrlPut ring.val (setBit v 0 false))

/-- A base or write-back address (R550, R561): refused while en = 1; bits that must be 0 are stored as 0. -/
def State.ringAddrPut (s : State) (n : RegName) (k i : Nat) (v : Word) : State :=
  let keep : Word := if i = 0 then (if n == .ringBase then 0xFFFFF000 else 0xFFFFFFF8) else 0xFFFFFFFF
  if s.ringOn k then s.vio 86 else s.store n [k, i] (v &&& keep)

/-- A cons write (R550): refused where it lowers cons or makes prod − cons exceed the ring. -/
def State.ringConsPut (s : State) (k : Nat) (v : BitVec 64) : State :=
  let q := s.ring k
  if v.toNat < q.cons.toNat ∨ s.ringSize k < (q.prod - v).toNat then s.vio 86
  else s.setRing k { q with cons := v }

/-- RING_CONS_WRITE. -/
def execRingConsWrite (r : Req) (ring : Fin 16) (v : BitVec 64) (s : State) : Out :=
  .next (s.ringWrite r fun s => s.ringConsPut ring.val v)

/-- An event that waits for its ring (R552 step 1): the first PUBLISHING Glint of ring k and the length that it needs. -/
def State.ringWaits (s : State) (k : Nat) : Option Nat :=
  (s.ringNext k).map fun g =>
      let full := s.eventLen (s.slot g)
      if s.ringSize k < full then 64 else full

/-- The status word of a ring (R561). -/
def State.ringStatWord (s : State) (k : Nat) : Word :=
  match s.ringWaits k with
  | some len =>
    BitVec.ofNat 32 (pack [(0, b2n (!s.ringReady k len)), (1, b2n (decide (s.ringRoom k < len))),
      (2, b2n (s.ring k).truncSeen)])
  | none => BitVec.ofNat 32 (pack [(2, b2n (s.ring k).truncSeen)])

/-- A ring's holdoff ends (R552): one message covers every advance since the last. -/
def State.holdoffEnds (s : State) (k : Nat) : State :=
  let q := s.ring k
  if q.msgDue then (s.setRing k ({ q with msgDue := false }.held (s.rf .ringCtrl [k] 16 16))).sendVector (16 + k)
  else s.setRing k (q.held 0)

/-- MSIX_HOLDOFF_EXPIRY (R552): the time that the ring's holdoff has left passes. -/
def execMsixHoldoffExpiry (ring : Fin 16) (s : State) : Out :=
  let k := ring.val
  .next (if (s.ring k).holdoff then s.holdoffEnds k else s)

/-- A microsecond of a ring's holdoff (R398, R552). -/
def State.holdoffMicro (s : State) (k : Nat) : State :=
  let q := s.ring k
  if q.holdoff = false then s
  else if q.left ≤ 1 then s.holdoffEnds k
  else s.setRing k { q with left := q.left - 1 }

/-- MSIX_PENDING_SEND (R555): a pending vector is sent once when it is allowed again. -/
def execMsixPendingSend (v : Fin 64) (s : State) : Out :=
  let k := v.val
  .next (if s.canMaster && bitOf s.hif.vecPend k && !s.vecMasked k then
    { s with hif := { s.hif with vecPend := setBit s.hif.vecPend k false } }.sendVector k
  else s)

/-- A write of the BAR2 window base (R544). -/
def State.winBasePut (s : State) (v : Word) : State :=
  if 0x3FBC0 < fld v 0 18 then s.vio 87 else s.store .hifWinBase [] v

/-- HIF_WIN_BASE_WRITE. -/
def execHifWinBaseWrite (r : Req) (v : Word) (s : State) : Out :=
  .next (if s.live domSPN then s.guarded r fun s => if hostOrLamp r then s.winBasePut v else s.vio 85 else s)

-- AER (R556)

/-- An error logged in AER: its status bit, its counter, and the message. -/
def State.aerLog (s : State) (bit : Nat) (corrected : Bool) : State :=
  let h := if corrected then { s.hif with aerCe := setBit s.hif.aerCe bit true }
    else { s.hif with aerUe := setBit s.hif.aerUe bit true }
  (({ s with hif := h }).count (cn 16 (if corrected then 5 else 6)) hub 0 1).emit (.aer bit corrected)

/-- A receiver, link or TLP error (R556): AER and one record of detector 23 whose code is the AER status bit. -/
def State.tlpFault (s : State) (bit : Nat) (corrected : Bool) : State :=
  (s.aerLog bit corrected).offer .hub 23 0 (b2n (!corrected)) (BitVec.ofNat 8 bit) (Config.syndrome 23 0 bit) 0 false

/-- TLP_ERROR. -/
def execTlpError (aerBit : BitVec 8) (corrected : Bool) (s : State) : Out :=
  .next (if s.live domPCI && s.hif.up then s.tlpFault aerBit.toNat corrected else s)

-- DARK_RECORD_READ (R532, R548)

/-- The Dark Record area's offset in the NV die (R467). -/
abbrev darkArea : Nat := 0x1D1000000

/-- Bytes of an entry. -/
def State.darkEntry (s : State) (k : Nat) : List Byte :=
  (List.range 0x10000).map fun i => Tbl.get 0xFF s.nv.mem (darkArea + k * 0x10000 + i)

/-- The destination lies within one valid USER region that the host may write. -/
def State.darkDstOk (s : State) (dst : Nat) : Bool :=
  dst % 0x10000 == 0 &&
    (match s.regionOf dst with
    | none => false
    | some k =>
      let g := s.regionAt k
      g.type == 6 && decide (dst + 0x10000 ≤ g.hi) &&
        (match s.sealOf k with
        | none => true
        | some e => s.right .host e == 3))

/-- The running DARK_RECORD_READ. -/
def State.goDarkRead (s : State) (errs : MemErrs) : State :=
  let k := s.cmdArg 0
  let dst := s.cmdRange.1
  let bs := s.darkEntry k
  if numAt bs 0 4 ≠ 0x4B524144 then s.portEnd 0x36
  else if s.darkDstOk dst = false then s.portEnd 0x37
  else
    let (x, s) := s.memWrite (portReq false) dst bs errs
    if x.any fun b => b.byte?.isNone then s.endsWith 0x4D
    else if crc32 (bs.take 0x48 ++ [0, 0, 0, 0] ++ bs.drop 0x4C) ≠ BitVec.ofNat 32 (numAt bs 0x48 4) then s.endsWith 0x4C
    else s.endsWith 0

/-- DARK_RECORD_READ (R546, R548). -/
def execDarkRecordRead (lamp : Bool) (entry : Word) (dst : Addr) (errs : MemErrs) (s : State) : Out :=
  .next (s.portGo lamp 12 (portArgs entry 0 dst 0 0) fun s => s.goDarkRead errs)

end Sys2Proof.Machine
end

