-- ==== Sys2Proof/Machine/RegRead.lean ====
section
/-! DEFINITION. What a read of each register word shows (the field tables of 02_lanes to 22_register_map), and what a read
changes where it changes anything. -/

namespace Sys2Proof.Machine

/-- A word from fields at bit positions. -/
def fields (l : List (Nat × Nat)) : Word := BitVec.ofNat 32 (pack l)

/-- Word w of a number. -/
def wordOf (v w : Nat) : Word := BitVec.ofNat 32 (v / 4294967296 ^ w)

-- the hub's global block, clocks, start-up, power

/-- BRG_HUB (R357). -/
def State.brgHubWord (s : State) (d : Nat) : Word :=
  let b := s.bridge d
  let w := b.capWord.getD 0
  fields [(0, b.state.toNat), (4, b2n (b.state == 7)), (8, fld w 0 8), (16, fld w 8 2), (18, b2n b.reported)]

/-- BRG_PKG (R357). -/
def State.brgPkgWord (s : State) : Word :=
  fields [(0, s.brg.level.toNat), (8, 0xA2),
    (16, ((List.range 4).map fun d => if (s.bridge d).firstWord.isSome then 2 ^ d else 0).sum)]

/-- FLT_NME (R498, R510). -/
def State.nmeWord (s : State) : Word :=
  let t := s.flt.nmeThermal
  let any := s.flt.nmeRef || s.sre.alarm || s.flt.nmeFatal || t
  fields [(0, b2n s.flt.nmeRef), (1, b2n s.sre.alarm), (2, b2n s.flt.nmeFatal), (3, b2n t), (4, b2n any)]

/-- HIF_GSTAT (R589). -/
def State.gstatWord (s : State) : Word :=
  fields [(0, s.pw.running.toNat), (2, b2n s.tb.degraded), (3, b2n (bitOf s.nmeWord 4)),
    (4, ((List.range 4).map fun d => if s.dieState d = 2 then 2 ^ d else 0).sum), (8, s.phase)]

/-- CLK_STAT (R407). -/
def State.clkStatWord (s : State) : Word :=
  let c := s.clk
  fields [(0, b2n c.glowOk), (1, b2n c.lanternOk), (2, b2n c.refOk), (3, b2n c.onLantern), (4, b2n s.tb.degraded),
    (5, b2n c.lanternLost), (6, b2n c.glowLost), (7, b2n c.frozen), (8, c.refsel.toNat), (10, b2n s.tb.started)]

/-- CLK_PRES (R411): lock bits follow the domains and the held group (log entry 132). -/
def State.clkPresWord (s : State) : Word :=
  let c := s.clk
  let run := s.tb.started && !c.holding
  let pll (p : Bool) : Bool := p && !c.holding
  fields [(0, b2n (c.refCount != 0)), (1, b2n (c.glowCount != 0)), (2, b2n c.glowOk), (3, b2n run),
    (4, b2n (pll (bitOf c.locked 4))), (5, if c.holding then 0 else c.locked.toNat),
    (10, b2n (pll ((List.range 4).any fun n => s.on (domNBC n)))),
    (11, b2n (pll (s.on (domFBC 0) || s.on (domFBC 1)))), (12, b2n (pll (s.on domPCI)))]

/-- RST_STAT (R452). -/
def State.rstStatWord (s : State) : Word :=
  fields [(0, s.phase), (4, b2n s.su.fwOk), (5, b2n s.su.imgOk), (6, b2n s.su.restoreOk), (8, s.su.dieState.toNat)]

/-- RST_CAUSE (R452). -/
def State.rstCauseWord (s : State) : Word :=
  fields [(0, s.su.start.toNat), (8, b2n s.su.cPerst), (9, b2n s.su.cFlr), (10, b2n s.su.cLamp), (11, b2n s.su.cDie)]

/-- The hottest working sensor (R432): temperature and index; of equal ones the lowest. -/
def State.hottest (s : State) : BitVec 12 × Nat :=
  ((List.range 96).filter fun k => !(s.sensor k).failed).foldl (fun b k =>
    if b.1.toInt < (s.sensor k).temp.toInt then ((s.sensor k).temp, k) else b)
    (match (List.range 96).find? fun k => !(s.sensor k).failed with
      | some k => ((s.sensor k).temp, k)
      | none => (0, 0))

/-- The clock, reset, watchdog and power blocks. -/
def State.readAon (s : State) (n : RegName) (ix : List Nat) : Word :=
  match n, ix with
  | .clkStat, _ => s.clkStatWord
  | .clkMonRef, _ => fields [(0, s.clk.refCount.toNat), (16, s.clk.refExpected.toNat)]
  | .clkMonLan, _ => fields [(0, s.clk.glowCount.toNat), (16, s.clk.g.toNat)]
  | .clkMonCorr, _ => s.clk.lanErr
  | .clkLastCause, _ => fields [(0, s.clk.cause.toNat)]
  | .clkLastTrip, [w] => wordOf s.clk.lastTrip.toNat w
  | .clkTbArm, _ => fields [(1, b2n s.tb.armed)]
  | .clkTbNow, [w] => wordOf s.now.toNat w
  | .clkOut, _ => setBit (s.rd .clkOut []) 9 s.clk.outPending
  | .clkMuxStat, _ => fields [(0, b2n s.clk.outPending), (3, b2n s.clk.mclkSub), (4, b2n s.clk.aonBackup)]
  | .clkPres, _ => s.clkPresWord
  | .rstStat, _ => s.rstStatWord
  | .rstCause, _ => s.rstCauseWord
  | .rstBoot, _ => s.su.boot.setWidth 32
  | .rstDieReq, _ => s.rd .rstDieReq [] + fields [(3, b2n s.su.dieBusy), (8, s.su.dieResult.toNat)]
  | .rstDomReq, _ => s.rd .rstDomReq [] + fields [(7, b2n s.su.domBusy), (8, s.su.domResult.toNat)]
  | .rstCoreReq, _ => s.rd .rstCoreReq [] + fields [(16, s.su.coreResult.toNat)]
  | .rstMark, [i] => Tbl.get 0 s.su.marks i
  | .wdgCtrl, _ => setBit (s.rd .wdgCtrl []) 2 s.wdg.stage
  | .wdgLeft, _ => s.wdg.left
  | .pmgStat, _ =>
    fields [(0, s.pw.running.toNat), (2, s.pw.chosen.toNat), (4, s.pw.step.toNat), (7, b2n s.pw.overLimit),
      (8, b2n s.pw.warn), (9, b2n s.pw.changing)]
  | .pmgPower, _ => s.pw.power.setWidth 32
  | .pmgTempMax, _ => fields [(0, s.hottest.1.toNat), (12, s.hottest.2)]
  | .pmgDomReq, _ => s.rd .pmgDomReq [] + fields [(8, b2n (!s.pw.reqRuns.isEmpty)), (16, s.pw.reqResult.toNat)]
  | .pmgDomOn, [w] => wordOf s.pw.on.toNat w
  | .pmgEclLast, _ =>
    fields [(0, s.pw.eclDom.toNat), (6, b2n s.pw.eclDie), (7, s.pw.eclCause.toNat), (10, b2n s.pw.eclForced),
      (11, s.pw.eclDrain.toNat)]
  | .pmgSensor, [k] => fields [(0, (s.sensor k).temp.toNat), (12, b2n (s.sensor k).failed)]
  | .pmgDomPwr, [d] => fields [(16, Tbl.get 0 s.pw.voltage d / 2)]
  | .pmgCurve, [d, j, w] => Config.curve d j w
  | n, ix => s.rd n ix

-- faults and counters

/-- A leaf's word (R512). -/
def Leaf.word (l : Leaf) (w : Nat) : Word :=
  if w = 0 then wordOf l.value.toNat 0
  else fields [(0, l.value.toNat / 4294967296), (16, b2n l.floorInvalid), (18, b2n l.wrapped)]

/-- A node's word (R512). -/
def CNode.word (x : CNode) (w : Nat) : Word :=
  if w = 0 then wordOf x.value.toNat 0 else fields [(0, x.value.toNat / 4294967296), (17, b2n x.inexact)]

/-- A counter's word. -/
def State.cntWord (s : State) (c : CntAt) (w : Nat) : Word :=
  if 2 ≤ w then 0
  else
    match c with
    | .leaf n loc i => (s.leaf (leafKey n loc i)).word w
    | .sink d p => (s.leaf (leafKey sinkName hub (d * 32 + p))).word w
    | .dieNode n d => (s.dieNode n d).word w
    | .pkgNode n => (s.pkgNode n).word w
    | .none => 0

/-- CNT_DIR of name n (R513). -/
def dirWord (n w : Nat) : Word :=
  let c := cntRow n
  match w with
  | 0 => if c.dieCount = 0 then 0 else fields [(0, dieOff n), (24, 1)]
  | 1 => if c.dieCount = 0 then 0 else fields [(0, c.dieCount), (16, c.dieKind)]
  | 2 => if c.hubCount = 0 then 0 else fields [(0, hubOff n), (24, 1)]
  | 3 => if c.hubCount = 0 then 0 else fields [(0, c.hubCount), (16, c.hubKind)]
  | _ => 0

/-- Word w of a record, 0 where there is none. -/
def recWord (r : Option FaultRec) (w : Nat) : Word :=
  match r with
  | some r => wordOf r.bits.toNat w
  | none => 0

/-- The fault block. -/
def State.readFaults (s : State) (n : RegName) (ix : List Nat) : Word :=
  match n, ix with
  | .fltStat, _ => fields [(0, s.flt.queue.length), (8, b2n s.flt.stopped), (9, b2n s.flt.logOk)]
  | .fltLogProd, _ => s.flt.prod
  | .fltLogCons, _ => s.flt.cons
  | .fltFirstV, [w] => wordOf s.flt.firstV.toNat w
  | .fltSeq, _ => s.flt.seq.setWidth 32
  | .fltNme, _ => s.nmeWord
  | .fltInjCtrl, _ => fields [(0, s.flt.injMode.toNat), (2, b2n s.flt.injFired), (16, s.flt.injFires.toNat)]
  | .fltAonRec, [i, w] => recWord s.flt.aon[i]? w
  | .fltFirst, [d, w] => recWord (Tbl.get none s.flt.first d) w
  | .fltLast, [d, w] => recWord (Tbl.get none s.flt.last d) w
  | .cntDir, [k, w] => dirWord k w
  | n, ix =>
    let (c, w) := cntAt n ix
    if c = .none then s.rd n ix else s.cntWord c w

-- the hub's data path

/-- DBM_SCRUB_SUM (R168). -/
def State.scrubWord (s : State) (w : Nat) : Word :=
  let x := s.dbm.scrub
  wordOf (pack [(0, x.units), (64, x.bits), (128, x.ue), (160, x.unwr), (192, (x.first.getD 0).toNat),
    (240, b2n x.first.isSome), (248, satNat x.maxBits 255)]) w

/-- DBM_STATUS (R175). -/
def State.dbmStatusWord (s : State) : Word :=
  fields [(0, ((List.range 4).map fun n => if s.on (domNBC n) && bitOf s.dbm.cleared n then 2 ^ n else 0).sum),
    (4, b2n (s.on (domFBC 0) && s.farCap 0 != 0)), (5, b2n (s.on (domFBC 1) && s.farCap 1 != 0))]

/-- DBM_RAW of a die (R176). -/
def State.dbmRawWord (s : State) (d w : Nat) : Word :=
  let q := s.rings d
  match w with
  | 0 => q.rawRate
  | 1 => q.hitRate.setWidth 32
  | 2 => if s.ringActive d then BitVec.ofNat 32 (s.retention d) else 0
  | 3 => fields [(0, s.liveBytes d / mib)]
  | 4 => wordOf q.rawPos.toNat 0
  | 5 => wordOf q.rawPos.toNat 1
  | 6 => wordOf q.hitPos.toNat 0
  | _ => wordOf q.hitPos.toNat 1

/-- SRE_ALARM (R204). -/
def State.sreAlarmWord (s : State) : Word :=
  fields [(0, b2n s.sre.alarm), (1, b2n s.sre.ovf), (2, s.sre.fails.length), (16, s.sre.regionMask.toNat)]

/-- SRE_FAIL entry i (R206). -/
def State.sreFailWord (s : State) (i w : Nat) : Word :=
  match s.sre.fails[i]? with
  | some f => wordOf (pack [(0, f.addr.toNat), (48, f.entry.toNat), (52, b2n f.part), (63, 1)]) w
  | none => 0

/-- DBM_REPAIR of a stack (R175). -/
def State.repairWord (s : State) (n : Nat) : Word :=
  let r := Tbl.get {} s.dbm.repairs n
  fields [(0, r.rows.length), (7, b2n (decide (r.applied < r.rows.length)))]

/-- DBM_FAR_CFG of a half (R175). -/
def State.farCfgWord (s : State) (h : Nat) : Word :=
  let f := s.half h
  fields [(0, f.dimms.toNat), (2, f.size.toNat), (4, b2n f.mismatch)]

/-- The network, buffer, sealed-region, Glint, ring and window blocks of the hub. -/
def State.readHub (s : State) (n : RegName) (ix : List Nat) : Word :=
  match n, ix with
  | .hifIdcode, _ => BitVec.ofNat 32 s.idcodeWord
  | .hifPart, _ => fields [(0, 0x4512), (16, if Config.grade2 then 2 else 1), (18, b2n Config.gradeI)]
  | .hifGstat, _ => s.gstatWord
  | .brgHub, [d] => s.brgHubWord d
  | .brgPkg, _ => s.brgPkgWord
  | .gpiStat, _ => s.gpiStatWord
  | .gpiIn, _ => s.gpiInWord 0
  | .gpiInGb, _ => s.gpiInWord 1
  | .gpiEdge, [w] => s.gpiEdgeWord w
  | .hifCmdStat, _ =>
    fields [(0, s.hif.opcode.toNat), (8, b2n s.hif.busy), (9, b2n s.hif.ownerLamp), (16, s.hif.status.toNat)]
  | .hifCmdTime, _ => s.hif.time
  | .hifMbxPend, [k] => wordOf s.hif.mbxPend.toNat k
  | .hifLink, _ =>
    fields [(0, s.hif.width.toNat), (4, s.hif.speed.toNat), (7, b2n s.hif.up), (8, b2n s.hif.d3hot), (9, b2n s.hif.bme)]
  | .mbxCfg, [k] => (s.mbx k).cfgWord
  | .lckStat, [k] => s.lckStatWord k
  | .lckWait, [k, w] => s.lckWaitWord k w
  | .nocEpoch, _ =>
    fields [(1, b2n s.noc.active), (2, b2n (s.oldPackets != 0)), (3, b2n s.noc.flipPending), (4, b2n s.noc.lastRefused)]
  | .nocInflight, _ => BitVec.ofNat 32 (s.oldPackets % 2 ^ 24)
  | .nocFenced, [w] => wordOf s.pw.fenced.toNat w
  | .nocSpineRes, [p] => s.spineResWord p
  | .dbmStatus, _ => s.dbmStatusWord
  | .dbmRaw, [d, w] => s.dbmRawWord d w
  | .dbmEvtFree, _ => BitVec.ofNat 32 s.freeChunks
  | .dbmEvtOldest, _ => ((s.dbm.events.head?).map fun e => e.seq).getD s.dbm.nextSeq
  | .dbmEvtNewest, _ => s.dbm.nextSeq - 1
  | .dbmNearRes, [k] => BitVec.ofNat 32 (s.nearRes k)
  | .dbmFarRes, [h] => BitVec.ofNat 32 (s.farRes h)
  | .dbmRegion, [e, w] => s.regionWord e w
  | .dbmScrubSum, [w] => s.scrubWord w
  | .dbmCmdDone, [w] => wordOf s.dbm.cmdDone.toNat w
  | .dbmRepair, [k] => s.repairWord k
  | .dbmFarCfg, [h] => s.farCfgWord h
  | .sreAlarm, _ => s.sreAlarmWord
  | .sreKeyState, _ => fields ((List.range 16).map fun k => (2 * k, (s.keySlot k).state.toNat))
  | .sreKeyDirty, _ => fields ((List.range 16).map fun k => (k, b2n (s.keySlot k).dirty))
  | .sreFlush, _ => fields [(16, b2n (s.sre.flushing != 0))]
  | .sreWcount, [k, w] => wordOf (s.keySlot k).count.toNat w
  | .sreEntry, [e, 0] =>
    let x := s.sealEntry e
    fields [(0, x.region.toNat), (5, x.key.toNat), (9, b2n x.valid)]
  | .sreEntry, [e, _] => (s.sealEntry e).rights.setWidth 32
  | .sreFail, [i, w] => s.sreFailWord i w
  | .gltDeadline, _ => s.glint.deadline
  | .gltLimit, _ => BitVec.ofNat 32 s.gltLimit
  | .gltStatus, _ => s.gltStatusWord
  | .gltSlot, [g, w] => s.gltSlotWord g w
  | .ringProd, [k, w] => wordOf (s.ring k).prod.toNat w
  | .ringCons, [k, w] => wordOf (s.ring k).cons.toNat w
  | .ringStat, [k] => s.ringStatWord k
  | .mrgStat, _ => s.mrgStatWord
  | .mrgLastId, [w] => wordOf s.merge.lastId.toNat w
  | .mrgFirstId, [w] => wordOf s.merge.firstId.toNat w
  | n, ix => s.rd n ix

-- configuration, debug, MSI-X

/-- CFG_PREG of region k + 1 (R486). -/
def State.cfgPregWord (s : State) (k w : Nat) : Word :=
  let x := Tbl.get (0, 0) s.cfg.preg k
  if w = 0 then setBit x.1 16 (s.cfg.parts.any fun p => p.region.toNat == k + 1) else x.2

/-- CFG_PREG_ID (R486). -/
def State.cfgPregId (s : State) (k : Nat) : Word :=
  match (s.cfg.parts.filter fun p => p.region.toNat == k + 1).getLast? with
  | some p => p.imgId
  | none => 0

/-- DBG_STAT (R537). -/
def State.dbgStatWord (s : State) : Word :=
  let d := s.dbg
  fields [(0, d.level.toNat), (2, b2n d.chalValid), (3, b2n d.lockout), (4, b2n d.extest), (5, b2n (decide (d.fuseLeft ≠ 0))),
    (6, d.fuseProg.toNat), (10, b2n d.keysVoid)]

/-- DBG_HG of a group (R538). -/
def State.groupWord (s : State) (g w : Nat) : Word :=
  let m := s.groupMembers g
  match w with
  | 0 => fields [(2, (Tbl.get 0 s.dbg.freeze g).toNat)]
  | _ =>
    fields [(0, m.length), (11, b2n (m.any fun c => (s.core c).dbg.halted)),
      (12, b2n (m != [] && m.all fun c => (s.core c).dbg.halted))]

/-- CFG_STAT (R484). -/
def State.cfgStatWord (s : State) : Word :=
  fields [(0, s.cfg.state.toNat), (3, b2n s.cfg.tp), (4, s.cfg.type.toNat), (16, ceilDiv (s.partBytes 64) mib)]

/-- CFG_LAST (R484). -/
def State.cfgLastWord (s : State) : Word :=
  fields [(0, s.cfg.lastCode.toNat), (8, s.cfg.lastType.toNat), (10, b2n s.cfg.lastTp), (16, s.cfg.lastRegion.toNat)]

/-- MIR_STAT (R487). -/
def State.mirStatWord (s : State) : Word :=
  fields [(0, b2n s.cfg.mirActive), (1, s.cfg.mirDie.toNat), (3, b2n s.cfg.mirSkipping)]

/-- The configuration, debug and MSI-X blocks. -/
def State.readCtl (s : State) (n : RegName) (ix : List Nat) : Word :=
  match n, ix with
  | .cfgStat, _ => s.cfgStatWord
  | .cfgLast, _ => s.cfgLastWord
  | .cfgImgId, _ => s.cfg.imgId
  | .cfgKeyStat, _ =>
    fields [(0, b2n s.cfg.fuseKf.isSome), (1, b2n s.cfg.fuseKa.isSome), (2, b2n s.cfg.bbKey.isSome)]
  | .cfgTpStat, _ => fields [(0, b2n s.cfg.tpActive), (8, s.cfg.tpCode.toNat)]
  | .cfgBbramCtrl, _ =>
    fields [(2, ((List.range 8).map fun i => if (Tbl.get none s.cfg.bbWritten i).isSome then 2 ^ i else 0).sum)]
  | .cfgFwOfs, _ => s.cfg.fwOfs.setWidth 32
  | .cfgPreg, [k, w] => s.cfgPregWord k w
  | .cfgPregId, [k] => s.cfgPregId k
  | .mirStat, _ => s.mirStatWord
  | .mirLast, _ => s.cfg.mirLast
  | .mirPassUs, _ => s.cfg.mirPassUs
  | .dbgStat, _ => s.dbgStatWord
  | .dbgUnlock, _ => setBit (s.rd .dbgUnlock []) 4 s.dbg.lastOk
  | .dbgChal, [i] => Tbl.get 0 s.dbg.chal i
  | .dbgSerial, [w] => wordOf Config.serial.toNat w
  | .dbgWinStat, _ => s.dbg.winStat.setWidth 32
  | .dbgDrCtrl, _ => fields [(1, b2n s.capture.isSome), (2, s.dbg.drSeq.toNat % 256)]
  | .dbgHg, [g, w] => s.groupWord g w
  | .dbgCoreCtrl, [c] =>
    let d := (s.core c).dbg
    fields [(3, b2n d.bkHalt), (4, d.group.toNat), (8, b2n d.groupEn)]
  | .dbgCoreStat, [c] =>
    let d := (s.core c).dbg
    fields [(0, b2n d.halted), (1, b2n d.stopping), (2, d.cause.toNat)]
  | .dbgCoreReg, [c] =>
    let d := (s.core c).dbg
    fields [(0, d.reg.toNat), (9, b2n d.wr), (10, b2n d.ok)]
  | .dbgCoreD, [c, i] =>
    let d := (s.core c).dbg
    if i = 0 then d.d0 else if i = 1 then d.d1 else d.d2
  | .dbgMemAddr, [c] => (s.core c).dbg.memAddr
  | .dbgVt, [c, i] => vtWord (Tbl.get none (if i = 0 then s.dbg.vtTx else s.dbg.vtRx) c)
  | .msixTable, [v, w] =>
    if w < 3 then wordOf (Tbl.get 0 s.hif.vecAddr v).toNat w else fields [(0, b2n (bitOf s.hif.vecMask v))]
  | .msixPba, [w] => wordOf s.hif.vecPend.toNat w
  | n, ix => s.rd n ix

-- the die windows

/-- BRG_STAT (R355). -/
def State.brgStatWord (s : State) (d : Nat) : Word :=
  let b := s.bridge d
  let used (dir : Bool) : Nat := ((List.range 4).filter fun k => (b.spare dir k).valid).length
  fields [(0, b.state.toNat), (4, b2n b.upCks), (5, b2n b.downCks), (6, used false), (9, used true), (12, b.rtBundle.toNat),
    (17, b2n b.rtDir), (18, b2n (b.state == 8)), (19, b.tries.toNat)]

/-- BRG_LAST (R356). -/
def State.brgLastWord (s : State) (d : Nat) : Word :=
  let b := s.bridge d
  fields [(0, b.lastDur.toNat), (16, b.lastBundle.toNat), (21, b2n b.lastDir), (22, b2n b.lastClock),
    (23, b2n b.lastSpare), (24, b2n b.lastOk)]

/-- BRG_SPARE (R356). -/
def State.brgSpareWord (s : State) (d dir k : Nat) : Word :=
  let x := (s.bridge d).spare (dir == 1) k
  fields [(0, x.bundle.toNat), (5, x.wire.toNat), (12, x.source.toNat), (14, b2n x.valid), (15, b2n x.bad)]

/-- BRG_WIRE_STAT of the wire that BRG_WIRE_SEL names (R356). -/
def State.wireStatWord (s : State) (d : Nat) : Word :=
  let b := s.bridge d
  let v := s.rd .brgWireSel [d]
  let dir := bitOf v 14
  let k := match fld v 12 2 with
    | 0 => dataKey dir (fld v 7 5) (fld v 0 7)
    | 1 => spareKey dir (fld v 0 7 % 4)
    | _ => clockKey dir (bitOf v 0)
  let w := b.wire k
  fields [(0, w.delay.toNat), (6, w.run.toNat), (13, (b.shift k).toNat), (16, b2n w.bad), (17, w.errors.toNat)]

/-- SCH_STAT: pool and Glint entries used. -/
def State.schStatWord (s : State) (d : Nat) : Word :=
  fields [(0, s.poolUsed d false), (13, s.poolUsed d true)]

/-- DIE_ID and DIE_STAT (R591). -/
def State.dieIdWord (_s : State) (d : Nat) : Word :=
  let b := Config.isB0 (Fin.ofNat 4 d)
  fields [(0, d), (8, if b then 0xB0 else 0xA1), (16, if b then 2 else 1)]

/-- ECL_DIE_STAT. -/
def State.dieStatWord (s : State) (d : Nat) : Word :=
  fields [(0, fld s.pw.on (9 * d) 9), (9, fld s.pw.fenced (9 * d) 9)]

/-- The lane, front-end and window blocks of a die. -/
def State.readFront (s : State) (n : RegName) (ix : List Nat) : Word :=
  match n, ix with
  | .dieId, [d] => s.dieIdWord d
  | .dieStat, [d] => s.dieStatWord d
  | .laneBstat, [d, b] => s.laneBstatWord d b
  | .laneState, [d, b, l] => s.laneStateWord (lnOf d b l)
  | .laneEq, [d, b, l] => s.laneEqWord (lnOf d b l)
  | .laneAnchorTs, [d, b, l, w] => wordOf (s.lane (lnOf d b l).key).anchorTs.toNat w
  | .laneAnchorIdx, [d, b, l] => (s.lane (lnOf d b l).key).anchorIdx
  | .laneEqOvr, [d, b, l] => (s.lane (lnOf d b l).key).eqOvr.setWidth 32
  | .lsmCtrl, [d] => s.lsmCtrlWord d
  | .lsmTbl, [d, e, st, w] => s.lsmTblRead d e st w
  | .laneEqSel, _ => fields [(0, s.board.strap.toNat), (4, b2n s.board.valid)]
  | .cfeId, _ => fields [(0, b2n s.fl2)]
  | .cfeDrift, [d, l] => (s.cfeLane (cfeKey d l)).drift.setWidth 32
  | .cfeNextIdx, [d, l] => (s.cfeLane (cfeKey d l)).nextIdx
  | .chBase, [d, c] => (s.chan (chanKey d c)).base
  | .chNoise, [d, c] => (s.chan (chanKey d c)).noise
  | .chK, [d, c] => fields [(0, (s.chan (chanKey d c)).k.toNat), (16, satNat (s.chan (chanKey d c)).hits 65535)]
  | .chThr, [d, c] => (s.chan (chanKey d c)).thr
  | .chStat, [d, c] => s.chStatWord d c
  | .wsuCtrl, [d] => fields [(0, b2n (s.wsu d).running), (1, b2n (s.joined d))]
  | .wsuWm, [d, w] => wordOf (s.wsu d).wm.toNat w
  | .wsuOldest, [d, w] => wordOf (s.wsuOldest d % 2 ^ 48) w
  | .wsuLvl, [d] => s.wsuLvlWord d
  | .wsuOrigin, [d, w] => wordOf (s.wsu d).origin.toNat w
  | .wsuWidth, [d] => BitVec.ofNat 32 (s.wsu d).width
  | .wsuPen, [d] => BitVec.ofNat 32 (s.wsu d).pen
  | .wsuLate, [d] => BitVec.ofNat 32 (s.wsu d).late
  | n, ix => s.rd n ix

/-- The scheduler, cluster, bridge, mesh and fabric-clock blocks of a die. -/
def State.readBack (s : State) (n : RegName) (ix : List Nat) : Word :=
  match n, ix with
  | .schStat, [d] => s.schStatWord d
  | .schList, [d, l, 1] => s.schListWord1 d l
  | .schCringProd, [d, k] => (s.cring d k).prod
  | .schCringCons, [d, k] => (s.cring d k).cons
  | .schCringHeld, [d, k] => fields [(0, (s.cring d k).hold.length), (5, b2n (s.cring d k).lost)]
  | .schPost, _ => 0
  | .cluStat, [d, c] => s.cluStatWord (16 * d + c)
  | .cluLdStat, [d, c] => s.cluLdStatWord (16 * d + c)
  | .cluCore, [d, c, k, w] => s.cluCoreWord ((16 * d + c) * 16 + k) w
  | .brgStat, [d] => s.brgStatWord d
  | .brgLast, [d] => s.brgLastWord d
  | .brgSpare, [d, dir, k] => s.brgSpareWord d dir k
  | .brgWireStat, [d] => s.wireStatWord d
  | .nocDieStat, [d] =>
    fields [(0, b2n (bitOf s.noc.dieEpoch d)), (1, b2n (s.dieHeld d)), (2, (s.rings d).holdBytes / 1024)]
  | .nocBrgRes, [d, k] => s.brgResWord d k
  | .fpll, [d, q, w] => s.fpllWord d q w
  | .gcSel, [d, g] => s.gcSelWord d g
  | .portSel, [d, p] => s.portSelWord d p
  | .spanStat, [d] => s.spanStatWord d
  | .fabStat, [d] => s.fabStatWord d
  | n, ix => s.rd n ix

/-- What a register word shows, apart from the reads that depend on who reads or change something. -/
def State.peekReg (s : State) (n : RegName) (ix : List Nat) : Word :=
  match n.row.blk with
  | .clocks | .reset | .wdg | .power => s.readAon n ix
  | .faults | .faultsAon | .counters => s.readFaults n ix
  | .cfg | .debug | .debugAon | .msix => s.readCtl n ix
  | .dieCtrl | .bundle | .laneGlobal | .cfe | .wsu => s.readFront n ix
  | .sched | .cluster | .bridge | .dieMesh | .fabClk => s.readBack n ix
  | .hubGlobal | .gpio | .hif | .mbxLck | .noc | .dbm | .sre | .glint | .rings | .merge => s.readHub n ix
  | .userFabric => 0

-- reads that depend on the reader

/-- The core that a requester's cluster number and an alias name (R524): the Lamp, or the Facet that reads. -/
def ownVt (r : Req) (self : Option Nat) : Option Nat := if r.cls = .lamp then some lampCore else self

/-- A word of the debug block that only an operation reaches; none is an error answer. -/
def State.readDbgOp (s : State) (r : Req) (self : Option Nat) (quiet : Bool) (n : RegName) (ix : List Nat) :
    Option Word × State :=
  match n, ix with
  | .dbgMemData, [c] =>
    if s.dbg.level = 0 then (none, s.vio 91)
    else if s.coreLive c = false then (some 0, s)
    else s.memDataRead c quiet
  | .dbgVt, [c, 0] =>
    if s.dbg.level = 0 then (none, s.vio 91)
    else let (w, s) := s.vtTake c (!quiet); (some w, s)
  | .dbgVtSelf, [i] =>
    match ownVt r self with
    | some c =>
      if i = 0 then (some (vtWord (Tbl.get none s.dbg.vtTx c)), s)
      else let (w, s) := s.vtGet c; (some w, s)
    | none => (some 0, s)
  | n, ix =>
    if s.dbg.level = 0 ∧ n.row.blk = .debug ∧ n ≠ .dbgSerial ∧ n ≠ .dbgChal ∧ n ≠ .dbgWinAddr ∧
        n ≠ .dbgWinStat then (none, s.vio 91)
    else (some (s.peekReg n ix), s)

/-- A mailbox view read by a requester that is no side (R291): 0, and counted. -/
def State.mbxRefused (s : State) (quiet : Bool) : Option Word × State := (some 0, if quiet then s else s.vio 69)

/-- A register word read by a requester (R8, R140, R298, R302, R518, R545, R588): the word, or none where the block answers
with an error. -/
def State.readWordBy (s : State) (r : Req) (self : Option Nat) (quiet : Bool) (n : RegName) (ix : List Nat) :
    Option Word × State :=
  match n, ix with
  | .hifCmdArg, [i] =>
    (some (if r.cls = .host then Tbl.get 0 s.hif.argHost i else if r.cls = .lamp then Tbl.get 0 s.hif.argLamp i else 0), s)
  | .gltStgLo, _ =>
    if r.cls = .debug then (some 0, s) else if hostOrLamp r then (some (s.stg r.cls).1, s) else (none, s.vio 61)
  | .gltStgHi, _ =>
    if r.cls = .debug then (some 0, s) else if hostOrLamp r then (some (s.stg r.cls).2, s) else (none, s.vio 61)
  | .gltStgGo, _ =>
    if r.cls = .debug then (some 0, s)
    else if hostOrLamp r then let (w, s) := s.stgGo r.cls; (some w, s)
    else (none, s.vio 61)
  | .mbxView, [k, 2] => let (w, s) := s.mbxPop r k quiet; (some (w.getD 0), s)
  | .mbxView, [k, 3] =>
    (match (s.mbx k).sideOf r.rnum with
    | some b => (some ((s.mbx k).stat b), s)
    | none => s.mbxRefused quiet)
  | .mbxView, [k, 5] => let (w, s) := s.mbxAckRead r k quiet; (some (w.getD 0), s)
  | .mbxView, [k, 6] =>
    (match (s.mbx k).sideOf r.rnum with
    | some b => (some (fields [(0, b2n ((s.mbx k).side b).ienMsg), (1, b2n ((s.mbx k).side b).ienAck)]), s)
    | none => s.mbxRefused quiet)
  | .mbxView, k :: _ => if ((s.mbx k).sideOf r.rnum).isSome then (some 0, s) else s.mbxRefused quiet
  | .laneState, [d, b, l] => let (w, s) := s.laneStateRead (lnOf d b l); (some w, s)
  | .lckLock, [k] => let (w, s) := s.lockRead r k quiet; (some (BitVec.ofNat 32 w), s)
  | .cfgFwData, _ => let (w, s) := s.fwDataRead quiet; (some w, s)
  | .pmgDomPwr, [d] =>
    -- the current monitor's reading, or an injected one (R412, R488 detector 16)
    let (p, s) := s.inject 16 d 0
    let (v, s) := s.free 16
    let v := match p with
      | some x => BitVec.ofNat 16 x
      | none => v
    (some (v.setWidth 32 ||| s.peekReg .pmgDomPwr [d]), s)
  | n, ix =>
    match n.row.blk with
    | .msix => (some (if r.cls = .host then s.peekReg n ix else 0), s)
    | .debug | .debugAon => s.readDbgOp r self quiet n ix
    | _ => (some (s.peekReg n ix), s)

-- R9

/-- The place of a requester's latch or held word of the register whose low word lies at an offset. -/
def latchKey (r : Req) (off : Nat) : Nat := r.rnum.toNat * 67108864 + off

/-- A word read under R9: the low word latches the high word, the next high-word read takes the latch. A quiet read touches
no latch. -/
def State.readLatched (s : State) (r : Req) (self : Option Nat) (quiet : Bool) (n : RegName) (ix : List Nat) :
    Option Word × State :=
  if quiet then s.readWordBy r self quiet n ix
  else
    match n.pairAt ix with
    | some (low, false) =>
      let hi := s.peekReg n (low.dropLast ++ [low.getLastD 0 + 1])
      let s := { s with latched := Tbl.set none s.latched (latchKey r (n.off low)) (some hi) }
      s.readWordBy r self quiet n ix
    | some (low, true) =>
      let k := latchKey r (n.off low)
      (match Tbl.get none s.latched k with
      | some w => (some w, { s with latched := Tbl.set none s.latched k none })
      | none => s.readWordBy r self quiet n ix)
    | none => s.readWordBy r self quiet n ix

end Sys2Proof.Machine
end

