-- ==== Sys2Proof/Machine/RegWrite.lean ====
section
/-! DEFINITION. A write of a register word (R8, R9, R542, R585–R588): who may write each block, what a refused write counts,
and the effect of every field; and the command REGISTER_WRITE. -/

namespace Sys2Proof.Machine

-- the command port's GO (R545)

/-- A started command by its opcode, in an environment where the NV die reports no failure and memory no error: the rows of
the single commands name those cases. -/
def State.goOp (s : State) (op : Nat) : State :=
  match op with
  | 1 => s.goLoadImage true
  | 2 => s.goLoadPartial true
  | 3 => s.goNvProgram [] .good
  | 4 => s.goNvErase .good
  | 5 => s.goScrub []
  | 6 => s.goFill
  | 7 => s.goRepair
  | 8 => s.goKeyRetire
  | 9 => s.goDieEclipse
  | 10 => s.goDieRestore
  | 11 => s.goProfile
  | 12 => s.goDarkRead []
  | _ => s

/-- A write of HIF_CMD_GO: the writer's bank is taken as it stands. -/
def State.goWrite (s : State) (r : Req) (v : Word) : State :=
  let lamp := r.cls == .lamp
  let op := fld v 0 8
  s.portGo lamp op (s.bankArgs lamp) fun s => s.goOp op

/-- A word of a writer's argument bank (R545). -/
def State.argWrite (s : State) (r : Req) (i : Nat) (v : Word) : State :=
  if r.cls == .lamp then { s with hif := { s.hif with argLamp := Tbl.set 0 s.hif.argLamp i v } }
  else { s with hif := { s.hif with argHost := Tbl.set 0 s.hif.argHost i v } }

/-- The command port's block: the host and the Lamp only. -/
def State.putHif (s : State) (r : Req) (n : RegName) (ix : List Nat) (v : Word) : State :=
  if hostOrLamp r = false then s.vio 85
  else
    match n, ix with
    | .hifCmdGo, _ => s.goWrite r v
    | .hifCmdArg, [i] => s.argWrite r i v
    | .hifWinBase, _ => s.winBasePut v
    | .hifMbxPend, [k] =>
      let m := BitVec.ofNat 128 (v.toNat * 4294967296 ^ k)
      { s with hif := { s.hif with mbxPend := s.hif.mbxPend &&& ~~~m } }
    | .hifFltIen, _ => s.store .hifFltIen [] v
    | _, _ => s

-- clocks, reset, watchdog, power

/-- The clock block (R407–R411). -/
def State.putClocks (s : State) (r : Req) (n : RegName) (v : Word) : State :=
  if s.rstWriter r = false then s.vio 75
  else
    let act (i : Nat) (f : State → State) (s : State) : State := if bitOf v i then f s else s
    match n with
    | .clkMonCtrl => act 1 State.rearmWrite (act 0 State.revertWrite s)
    | .clkTb => s.tbWrite v
    | .clkTbArm => act 2 State.cancelWrite (act 0 State.armWrite s)
    | .clkOut => s.clkOutPut v
    | .clkMuxForce => s.muxForce (fld v 0 8)
    | .clkPcieCtrl => s.store .clkPcieCtrl [] v
    | _ => s

/-- The reset block (R452, R454). -/
def State.putReset (s : State) (r : Req) (n : RegName) (v : Word) : State :=
  if s.rstWriter r = false then s.vio 79
  else
    match n with
    | .rstCause =>
      { s with su := { s.su with
        cPerst := s.su.cPerst && !bitOf v 8,
        cFlr := s.su.cFlr && !bitOf v 9,
        cLamp := s.su.cLamp && !bitOf v 10,
        cDie := s.su.cDie && !bitOf v 11 } }
    | .rstDieReq => if bitOf v 2 then s.dieResetStart (fld v 0 2) else s.store .rstDieReq [] v
    | .rstDomReq => if bitOf v 6 then s.domResetStart (fld v 0 6) else s.store .rstDomReq [] v
    | .rstCoreReq => if bitOf v 11 then s.coreResetStart (fld v 0 11) else s.store .rstCoreReq [] v
    | _ => s

/-- The Lamp watchdog (R250). -/
def State.putWdg (s : State) (r : Req) (n : RegName) (v : Word) : State :=
  match n with
  | .wdgCtrl => s.wdgCtrlWrite v
  | .wdgT1 => s.wdgTimeWrite .wdgT1 v
  | .wdgT2 => s.wdgTimeWrite .wdgT2 v
  | .wdgGrace => s.wdgTimeWrite .wdgGrace v
  | .wdgKick => s.wdgKick r v
  | _ => s

/-- The power manager (R417, R428, R431, R433): the host and the Lamp only. -/
def State.putPower (s : State) (r : Req) (n : RegName) (v : Word) : State :=
  if hostOrLamp r = false then s.vio 78
  else
    match n with
    | .pmgCtrl => s.store .pmgCtrl [] v
    | .pmgLimit => s.pmgLimitWrite v
    | .pmgDomReq =>
      if bitOf v 7 then (s.store .pmgDomReq [] v).domRequest (fld v 0 6) (bitOf v 6) else s.store .pmgDomReq [] v
    | _ => s

-- faults, counters, rings

/-- The fault block (R495, R498–R502, R510, R511). -/
def State.putFaults (s : State) (r : Req) (n : RegName) (ix : List Nat) (v : Word) : State :=
  let only (f : State → State) : State := if s.rstWriter r then f s else s.vio 81
  match n with
  | .fltCtrl => only fun s => s.store .fltCtrl [] v
  | .fltLogCons => only fun s => s.logCons v
  | .fltNme => only fun s => s.nmeWrite v
  | .fltInjSel => s.injSetup r fun s => s.store .fltInjSel [] v
  | .fltInjCtrl => s.injCtrl r v
  | n =>
    let (c, w) := cntAt n ix
    if c = .none then s else s.cntWrite r c w v

/-- The readout rings (R550, R561). -/
def State.putRing (s : State) (r : Req) (n : RegName) (ix : List Nat) (v : Word) : State :=
  if hostOrLamp r = false then s.vio 86
  else
    match n, ix with
    | .ringCtrl, [k] => s.ringCtrlPut k v
    | .ringStat, [k] => s.setRing k { s.ring k with truncSeen := (s.ring k).truncSeen && !bitOf v 2 }
    | _, _ => s

-- GPIO, configuration, MSI-X

/-- The GPIO block (R579, R580). -/
def State.putGpio (s : State) (r : Req) (n : RegName) (ix : List Nat) (v : Word) : State :=
  if hostOrLamp r = false then s.vio 95
  else
    match n, ix with
    | .gpiStat, _ => { s with gpio := { s.gpio with ovf := s.gpio.ovf && !bitOf v 3 } }
    | .gpiCtrl, _ => s.gpiCtrlPut v
    | .gpiEdge, [3] => if bitOf v 0 then s.edgeDrop else s
    | .gpiPin, [b, i] => s.gpiPinPut b i v
    | _, _ => s

/-- The configuration block (R485, R487): the host and the Lamp; CFG_TP_CTRL also debug at FULL, CFG_FW_OFS the Lamp. -/
def State.putCfg (s : State) (r : Req) (n : RegName) (ix : List Nat) (v : Word) : State :=
  if hostOrLamp r = false ∧ ¬(n = .cfgTpCtrl ∧ s.rstWriter r = true) then s.vio 80
  else
    match n, ix with
    | .cfgTpCtrl, _ => if fld v 0 24 < 1000 ∨ 10000000 < fld v 0 24 then s.vio 80 else s.store .cfgTpCtrl [] v
    | .cfgBbramKey, [i] =>
      { s with cfg := { s.cfg with bbWritten := Tbl.set none s.cfg.bbWritten i (some v) } }
    | .cfgBbramCtrl, _ => s.bbramCtrl v
    | .cfgFwOfs, _ =>
      if r.cls == .lamp then { s with cfg := { s.cfg with fwOfs := v.setWidth 27 &&& 0x7FFFFFC } } else s.vio 80
    | .mirCtrl, _ =>
      if fld v 1 2 = 3 ∨ fld v 16 16 < 25 ∨ 10000 < fld v 16 16 then s.vio 80 else s.store .mirCtrl [] v
    | _, _ => s

/-- The MSI-X table and PBA (R555, R588): the host's single words of the table only. -/
def State.putMsix (s : State) (r : Req) (n : RegName) (ix : List Nat) (pair : Bool) (v : Word) : State :=
  if r.cls ≠ .host ∨ pair = true then s.vio 88
  else
    match n, ix with
    | .msixTable, [k, w] =>
      if w = 3 then { s with hif := { s.hif with vecMask := setBit s.hif.vecMask k (bitOf v 0) } }
      else
        let old := (Tbl.get 0 s.hif.vecAddr k).toNat
        let one := 4294967296 ^ w
        let new := old - old / one % 4294967296 * one + v.toNat * one
        { s with hif := { s.hif with vecAddr := Tbl.set 0 s.hif.vecAddr k (BitVec.ofNat 96 new) } }
    | _, _ => s.vio 88

-- the debug block (R514–R525, R537–R539)

/-- A core's debug data registers. -/
def State.coreData (s : State) (c i : Nat) (v : Word) : State :=
  let q := s.core c
  let d := if i = 0 then { q.dbg with d0 := v } else if i = 1 then { q.dbg with d1 := v } else { q.dbg with d2 := v }
  s.setCore c { q with dbg := d }

/-- A write of DBG_UNLOCK (R516, R537). -/
def State.unlockWrite (s : State) (v : Word) : State :=
  let s := if bitOf v 2 then s.unlockReq (v.setWidth 2) else s.store .dbgUnlock [] v
  if bitOf v 3 then s.unlockCheck else s

/-- The debug block's registers by a class that may reach them; DBG_WIN_DATA apart. -/
def State.putDbgBlock (s : State) (r : Req) (n : RegName) (ix : List Nat) (v : Word) : State :=
  let full := s.dbg.level == 2
  match n, ix with
  | .dbgLevel, _ => s.levelWrite r v
  | .dbgUnlock, _ => s.unlockWrite v
  | .dbgResp, [i] => { s with dbg := { s.dbg with resp := Tbl.set 0 s.dbg.resp i v } }
  | .dbgLckForce, _ => if full then s.dbgForce (fld v 0 8) else s.vio 91
  | .dbgDrCtrl, _ => if full = false then s.vio 91 else if bitOf v 0 then s.captureWrite else s
  | .dbgHg, [g, 0] => if full then s.groupWrite g v else if fld v 0 2 ≠ 0 then s.vio 92 else s.vio 94
  | .dbgCoreCtrl, [c] => if full then s.coreCtrlWrite c v else if fld v 0 3 ≠ 0 then s.vio 92 else s.vio 91
  | .dbgCoreReg, [c] => if full then s.regGo c v else s.vio 91
  | .dbgCoreD, [c, i] => if full then s.coreData c i v else s.vio 91
  | .dbgMemAddr, [c] =>
    if s.dbg.level = 0 then s.vio 91
    else s.setCore c { s.core c with dbg := { (s.core c).dbg with memAddr := v } }
  | .dbgMemData, [c] => if full && s.coreLive c then s.memDataWrite c v else s.vio 91
  | .dbgVt, [c, 1] => s.vtRxPut r c (v.setWidth 8)
  | _, _ => s

/-- The debug block: a core's own terminal alias, else the classes that may reach it. -/
def State.putDbg (s : State) (r : Req) (self : Option Nat) (n : RegName) (ix : List Nat) (v : Word) : State :=
  match n, ix with
  | .dbgVtSelf, [0] =>
    (match ownVt r self with
    | some c => s.vtPut c (v.setWidth 8)
    | none => s)
  | .dbgVtSelf, _ => s
  | n, ix =>
    if n = .dbgVt ∧ (r.cls = .facet ∨ r.cls = .lamp) then s.vio 93
    else if dbgMayUse r then s.putDbgBlock r n ix v
    else if n = .dbgLevel then s.vio 90
    else s.vio 91

-- one word, and a whole value (R9)

/-- The bridge's die end (R355, R356): the host and the Lamp only. -/
def State.putBridge (s : State) (r : Req) (n : RegName) (ix : List Nat) (v : Word) : State :=
  match n, ix with
  | .brgCtrl, [d] => if hostOrLamp r then s.brgCtrlWrite d v else s.vio (56 + d)
  | .brgWireSel, [d] =>
    if hostOrLamp r = false ∨ fld v 12 2 = 3 then s.vio (56 + d) else s.store .brgWireSel [d] v
  | _, _ => s

/-- A word of a register that is not held under R9 is written. -/
def State.putWord (s : State) (r : Req) (self : Option Nat) (pair : Bool) (n : RegName) (ix : List Nat) (v : Word) : State :=
  match n.row.blk with
  | .hubGlobal | .dieCtrl | .dieMesh | .userFabric => s
  | .gpio => s.putGpio r n ix v
  | .hif => s.putHif r n ix v
  | .clocks => s.putClocks r n v
  | .reset => s.putReset r n v
  | .wdg => s.putWdg r n v
  | .power => s.putPower r n v
  | .faults | .faultsAon | .counters => s.putFaults r n ix v
  | .rings => s.putRing r n ix v
  | .cfg => s.putCfg r n ix v
  | .msix => s.putMsix r n ix pair v
  | .debug | .debugAon => s.putDbg r self n ix v
  | .bridge => s.putBridge r n ix v
  | .mbxLck | .noc | .dbm | .sre | .glint | .merge => s.putHub r n ix v
  | .bundle | .laneGlobal | .cfe | .wsu | .sched | .cluster | .fabClk => s.putDie r n ix v

/-- Both words of a value that R9 holds together. -/
def State.putPair (s : State) (r : Req) (n : RegName) (ix : List Nat) (lo hi : Word) : State :=
  match n, ix with
  | .clkTbLoad, _ =>
    if s.rstWriter r then s.putWide .clkTbLoad [] lo (hi &&& 0x3FFFFFF) else s.vio 75
  | .fltFirstV, _ =>
    if s.rstWriter r then { s with flt := { s.flt with firstV := s.flt.firstV &&& ~~~(hi ++ lo) } } else s.vio 81
  | .fltInjPat, _ => s.injSetup r fun s => s.putWide .fltInjPat [] lo hi
  | .fltInjAddr, _ => s.injSetup r fun s => s.putWide .fltInjAddr [] lo hi
  | .ringBase, [k] => if hostOrLamp r then (s.ringAddrPut .ringBase k 0 lo).ringAddrPut .ringBase k 1 hi else s.vio 86
  | .ringWb, [k] => if hostOrLamp r then (s.ringAddrPut .ringWb k 0 lo).ringAddrPut .ringWb k 1 hi else s.vio 86
  | .ringCons, [k] => if hostOrLamp r then s.ringConsPut k (hi ++ lo) else s.vio 86
  | .dbgWinAddr, _ =>
    if hostOrLamp r then s.putWide .dbgWinAddr [] (lo &&& 0xFFFFFFFC) (hi &&& 0x1FFFF) else s.vio 91
  | .gltTxMask, _ | .mrgOrigin, _ | .cfePeriod, _ | .schCringBase, _ | .cluLdSrc, _ => s.putWide n ix lo hi
  | _, _ => s

/-- Values that software writes under R9. -/
def pairWritten (n : RegName) : Bool :=
  n == .clkTbLoad || n == .fltFirstV || n == .fltInjPat || n == .fltInjAddr || n == .ringBase || n == .ringWb ||
    n == .ringCons || n == .gltTxMask || n == .mrgOrigin || n == .cfePeriod || n == .schCringBase || n == .cluLdSrc ||
    n == .dbgWinAddr

/-- The violation that a write of the low word meets, whatever its value: the writer may not write the register, or nobody
may now (R94, R301, R407, R499, R510, R550, R561, R580). A write of the low word that meets none is held. -/
def State.lowRefused (s : State) (r : Req) (n : RegName) (ix : List Nat) : Option Nat :=
  let need (ok : Bool) (v : Nat) : Option Nat := if ok then none else some v
  match n, ix with
  | .clkTbLoad, _ => need (s.rstWriter r) 75
  | .fltFirstV, _ => need (s.rstWriter r) 81
  | .fltInjPat, _ | .fltInjAddr, _ => if s.flt.injMode ≠ 0 then some 82 else need (s.rstWriter r) 81
  | .ringBase, k :: _ | .ringWb, k :: _ => need (hostOrLamp r && !s.ringOn k) 86
  | .ringCons, _ => need (hostOrLamp r) 86
  | .cfePeriod, d :: l :: _ => need (!s.rb .cfeLaneCfg [d, l] 13) (24 + d)
  | .schCringBase, d :: k :: _ => need (!s.rb .schCringCtl [d, k] 5) (40 + d)
  | .dbgWinAddr, _ => need (hostOrLamp r) 91
  | _, _ => none

/-- A word written under R9: the low word is held for its writer; the high word takes it and the whole value takes
effect. -/
def State.writeHeld (s : State) (r : Req) (self : Option Nat) (pair : Bool) (n : RegName) (ix : List Nat) (v : Word) : State :=
  if pairWritten n then
    let k := latchKey r (n.off (ix.dropLast ++ [0]))
    if ix.getLastD 0 = 0 then
      match s.lowRefused r n ix with
      | some i => s.vio i
      | none => { s with heldLow := Tbl.set none s.heldLow k (some v) }
    else
      let lo := (Tbl.get none s.heldLow k).getD 0
      { s with heldLow := Tbl.set none s.heldLow k none }.putPair r n ix.dropLast lo v
  else s.putWord r self pair n ix v

-- domains and answers (R378, R586, R588)

/-- The domain that a register's block lies in; none for AON. -/
def regDomain (n : RegName) (ix : List Nat) : Option Nat :=
  let d := ix.headD 0
  match n.row.blk with
  | .clocks | .reset | .wdg | .power | .faultsAon | .debugAon => none
  | .hubGlobal | .hif | .faults | .mbxLck | .noc | .dbm | .glint | .rings | .debug | .merge => some domSPN
  | .gpio => some domGPI
  | .sre => some domSEC
  | .cfg => some domCFG
  | .msix => some domPCI
  | .dieCtrl | .laneGlobal | .bridge | .dieMesh | .fabClk | .counters => some (domBRG d)
  | .bundle => some (domLG d (ix.getD 1 0))
  | .cfe | .wsu => some (domCFE d)
  | .sched | .cluster => some (domFCA d)
  | .userFabric => some (domDie d 0)

/-- A block that answers dark: its domain is not in service, or its die is out. -/
def State.regDark (s : State) (n : RegName) (ix : List Nat) : Option Nat :=
  match regDomain n ix with
  | none => none
  | some dom =>
    if dom < 36 ∧ (s.dieOut (dom / 9) = true ∨ s.live (domBRG (dom / 9)) = false) then some (domBRG (dom / 9))
    else if s.live dom then none
    else some dom

/-- A request that a fenced domain would take: dropped where it is posted, else answered dark. -/
def State.darkReq (s : State) (posted : Bool) (dom : Nat) : State := s.count (cn 10 (if posted then 5 else 4)) hub dom 1

/-- Violations counted so far: a refused write is counted (R27). -/
def State.vioCount (s : State) : BitVec 48 := (s.pkgNode vioName).value

/-- A register offset written, as one word or as an indivisible pair, and the answer. A speculative item's write is blocked
(R125). -/
def State.regWrite (s : State) (r : Req) (self : Option Nat) (off : Nat) (v : Word) (hi : Option Word) : Reply × State :=
  let posted := r.cls == .host
  if r.spec.isSome then (.error, s.count (cn 3 8) hub 0 1)
  else
    match regAt off with
    | none =>
      match hi, regAt (off + 4) with
      | some w, some (n, ix) =>
        (match s.regDark n ix with
        | some dom => (.dark, s.darkReq posted dom)
        | none =>
          let t := s.writeHeld r self true n ix w
          (if t.vioCount = s.vioCount then .ok else .error, t))
      | _, _ => (.ok, s)
    | some (n, ix) =>
      match s.regDark n ix with
      | some dom => (.dark, s.darkReq posted dom)
      | none =>
        let t := s.writeHeld r self hi.isSome n ix v
        let t := match hi, regAt (off + 4) with
          | some w, some (m, jx) =>
            -- a value of R9 refused with its low word is refused, and counted, as a whole
            if (t.regDark m jx).isSome || (n == m && pairWritten n && t.vioCount != s.vioCount) then t
            else t.writeHeld r self true m jx w
          | _, _ => t
        (if t.vioCount = s.vioCount then .ok else .error, t)

/-- A register offset read, as one word, and the answer. -/
def State.regRead (s : State) (r : Req) (self : Option Nat) (quiet : Bool) (off : Nat) : Reply × State :=
  match regAt off with
  | none => (.word 0, s)
  | some (n, ix) =>
    match s.regDark n ix with
    | some dom => (.dark, s.darkReq false dom)
    | none =>
      match s.readLatched r self quiet n ix with
      | (some w, s) => (.word w, s)
      | (none, s) => (.error, s)

/-- A pair read as one request (R9, R542, R585): eight bytes, low word first. -/
def State.regRead8 (s : State) (r : Req) (self : Option Nat) (quiet : Bool) (off : Nat) : Reply × State :=
  if r.cls = .host ∧ 0xFE0000 ≤ off ∧ off < 0xFE0400 then (.error, s.vio 88) else
  match s.regRead r self quiet off with
  | (.word a, s) =>
    (match s.regRead r self quiet (off + 4) with
    | (.word b, s) => (.data ((bytesOf (a.toNat + 4294967296 * b.toNat) 8).map some), s)
    | x => x)
  | x => x

/-- User logic's register space at an offset (R324). -/
def userReg (off : Nat) : Option (Nat × Nat) :=
  if 0x2000000 ≤ off ∧ off < 0x4000000 then some ((off - 0x2000000) / 0x800000, (off - 0x2000000) % 0x800000) else none

end Sys2Proof.Machine
end

