-- ==== Sys2Proof/Machine/Access.lean ====
section
/-! DEFINITION. Requests to device addresses and register offsets: register writes, buffer requests, the fabric's NETP ports,
BAR2, and the debugger's two ways (R8, R9, R173, R322, R324, R518, R519, R527, R542–R544, R556, R585, R586). -/

namespace Sys2Proof.Machine

-- user logic's registers reached by a request that waits (R324)

/-- User logic answers, or does not: word, and 0 OK, 1 error, else nothing in time. What it answers is no part of the
machine. -/
def State.userAnswer (s : State) (d : Nat) (write : Bool) : Reply × State :=
  let (k, s) := s.free 2
  let (w, s) := s.free 32
  if k = 0 then (if write then .ok else .word w, s)
  else if k = 1 then (.error, s)
  else (.error, s.vio (48 + d))

/-- An access to a user register of die d. -/
def State.userAccess (s : State) (r : Req) (posted : Bool) (d addr : Nat) (write : Bool) (v : Word) : Reply × State :=
  if !s.live (domBRG d) || !s.bridgeUp d then (.dark, s.darkReq posted (domBRG d))
  else if !s.live (domDie d 0) then (.dark, s.darkReq posted (domDie d 0))
  else if !s.portAttached d 5 0 then (.error, s)
  else (s.emit (.regp (Fin.ofNat 4 d) (BitVec.ofNat 23 addr) write v r.cls r.rnum)).userAnswer d write

-- register space (R585, R586)

/-- The two words of an 8-byte answer. -/
def replyPair : Reply → Reply → Reply
  | .word a, .word b => .data ((bytesOf (a.toNat + 4294967296 * b.toNat) 8).map some)
  | .word _, x => x
  | x, _ => x

/-- Four or eight bytes read in register space; the debug window's data apart. -/
def State.offRead (s : State) (r : Req) (self : Option Nat) (quiet : Bool) (off len : Nat) : Reply × State :=
  match userReg off with
  | some (d, a) =>
    let (x, s) := s.userAccess r false d a false 0
    if len = 8 then let (y, s) := s.userAccess r false d (a + 4) false 0; (replyPair x y, s) else (x, s)
  | none => if len = 8 then s.regRead8 r self quiet off else s.regRead r self quiet off

/-- The result of two writes. -/
def replyWorst : Reply → Reply → Reply
  | .ok, x => x
  | x, _ => x

/-- A word, or a pair, written in register space; the debug window's data apart. -/
def State.offWrite (s : State) (r : Req) (self : Option Nat) (off : Nat) (v : Word) (hi : Option Word) : Reply × State :=
  match userReg off with
  | some (d, a) =>
    if r.spec.isSome then (.error, s.count (cn 3 8) hub 0 1)
    else
      let posted := r.cls == .host
      let (x, s) := s.userAccess r posted d a true v
      (match hi with
      | some w => let (y, s) := s.userAccess r posted d (a + 4) true w; (replyWorst x y, s)
      | none => (x, s))
  | none => s.regWrite r self off v hi

/-- The list that a 64-byte write to a posting window names (R276). -/
def postPlace (off : Nat) : Option (Nat × Nat) :=
  match regAt off with
  | some (.schPost, d :: n :: _) => some (d, n)
  | _ => none

/-- The domain of the storage at an address. -/
def storeDomain (a : Nat) : Nat := if a < nearEnd then domNBC (a / stackBytes) else domFBC (b2n (decide (farBase 1 ≤ a)))

/-- A request that met a fenced domain is counted at its answering point (R378). -/
def State.countDark (s : State) (posted : Bool) (a : Nat) (l : List ByteRes) : State :=
  match l.findIdx? fun x => x == .dark with
  | some i => s.darkReq posted (storeDomain (a + i))
  | none => s

/-- Device memory read. -/
def State.bufRead (s : State) (r : Req) (a len : Nat) (errs : MemErrs) : List ByteRes × State :=
  s.onBehalf r.spec fun s =>
    let (x, s) := s.memRead r a len errs
    (x, s.countDark false a x)

/-- Device memory written. -/
def State.bufWrite (s : State) (r : Req) (a : Nat) (bs : List Byte) (errs : MemErrs) : List ByteRes × State :=
  s.onBehalf r.spec fun s =>
    let (x, s) := s.memWrite r a bs errs
    (x, s.countDark (r.cls == .host) a x)

/-- Device memory or register space read (R143, R585). -/
def State.spaceRead (s : State) (r : Req) (self : Option Nat) (quiet : Bool) (a len : Nat) (errs : MemErrs) :
    Reply × State :=
  if regBase ≤ a ∧ a < regEnd then
    if (len = 4 ∨ len = 8) ∧ a % len = 0 then s.offRead r self quiet (a - regBase) len else (.error, s.vio 62)
  else let (x, s) := s.bufRead r a len errs; (readReply r x, s)

/-- A write to a posting window (R276, R278): 64 bytes, aligned, post an item; any other is refused. -/
def State.postWrite (s : State) (r : Req) (d l off : Nat) (bs : List Byte) : Reply × State :=
  let desc := (List.range 16).map fun i => BitVec.ofNat 32 (wordOfBytes ((bs.drop (4 * i)).take 4))
  s.postTo r d l desc (decide (bs.length = 64 ∧ off % 64 = 0))

/-- Device memory or register space written. -/
def State.spaceWrite (s : State) (r : Req) (self : Option Nat) (a : Nat) (bs : List Byte) (errs : MemErrs) :
    Reply × State :=
  let n := bs.length
  if regBase ≤ a ∧ a < regEnd then
    match postPlace ((a - regBase) / 4 * 4) with
    | some (d, l) => s.postWrite r d l (a - regBase) bs
    | none =>
      if (n = 4 ∨ n = 8) ∧ a % n = 0 then
        s.offWrite r self (a - regBase) (BitVec.ofNat 32 (wordOfBytes (bs.take 4)))
          (if n = 8 then some (BitVec.ofNat 32 (wordOfBytes (bs.drop 4))) else none)
      else (.error, s.vio 62)
  else let (x, s) := s.bufWrite r a bs errs; (writeReply r x, s)

-- the debugger's access (R514, R518, R519, R527)

/-- The requester of debug accesses (R7, R518). -/
def dbgReq : Req := { cls := .debug, rnum := 255 }

/-- Registers that a debug read reaches at level NONE (R514). -/
def dbgOpenRead (a : Nat) : Bool :=
  decide (regBase ≤ a) && decide (a < regEnd) &&
    (match regAt (a - regBase) with
    | some (n, _) => n == .dbgStat || n == .dbgSerial || n == .dbgChal || n == .dbgUnlock || n == .dbgResp
    | none => false)

/-- Registers that a debug write reaches at level OBSERVE (R514). -/
def dbgOpenWrite (a : Nat) : Bool :=
  decide (regBase ≤ a) && decide (a < regEnd) &&
    (match regAt (a - regBase) with
    | some (n, _) => n == .dbgLevel || n == .dbgUnlock || n == .dbgResp
    | none => false)

/-- The status of a response (R527). -/
def respStatus : Reply → BitVec 2
  | .error => 1
  | .poisoned => 2
  | .dark => 3
  | _ => 0

/-- The word that a 32-bit read brought. -/
def replyWord : Reply → Option Word
  | .word w => some w
  | .data bs => if bs.all Option.isSome then some (BitVec.ofNat 32 (wordOfBytes (bs.filterMap id))) else none
  | _ => none

/-- One debug access of 32 bits: status and refusal, its read data, and the state. The data of a write or of a read that
fails is left open. -/
def State.debugAccess (s : State) (a : Nat) (live : Bool) (write : Option Word) (errs : MemErrs) : BitVec 3 × Word × State :=
  let full := s.dbg.level == 2
  let may := match write with
    | none => s.dbg.level != 0 || dbgOpenRead a
    | some _ => full || (s.dbg.level == 1 && dbgOpenWrite a)
  let (x, s) : Reply × State :=
    if may = false then (.error, s.vio 91)
    else if a % 4 ≠ 0 then (.error, s.vio 62)
    else match write with
      | none => s.spaceRead dbgReq none (!(full && live)) a 4 errs
      | some v => s.spaceWrite dbgReq none a (bytesOf v.toNat 4) errs
  let st : BitVec 3 := (respStatus x).setWidth 3 ||| (if may then 0 else 4)
  match replyWord x with
  | some w => (st, w, s)
  | none => let (w, s) := s.free 32; (st, w, s)

/-- The window's address and attribute (R538). -/
def State.winAddr (s : State) : Nat := s.rd64 .dbgWinAddr [] % 2 ^ 48
def State.winLive (s : State) : Bool := bitOf (s.rd .dbgWinAddr [1]) 16

/-- A read of DBG_WIN_DATA (R519): the data, with the response in DBG_WIN_STAT; a refused one is answered as an unmapped
access (R514). -/
def State.winRead (s : State) (r : Req) (errs : MemErrs) : Reply × State :=
  if hostOrLamp r = false then (.error, s.vio 91)
  else
    let (st, w, s) := s.debugAccess s.winAddr s.winLive none errs
    let s := { s with dbg := { s.dbg with winStat := st } }
    (if bitOf st 2 then .error else .word w, s)

/-- A write of DBG_WIN_DATA. -/
def State.winWrite (s : State) (r : Req) (v : Word) (errs : MemErrs) : Reply × State :=
  if hostOrLamp r = false then (.error, s.vio 91)
  else
    let (st, _, s) := s.debugAccess s.winAddr s.winLive (some v) errs
    let s := { s with dbg := { s.dbg with winStat := st } }
    (if bitOf st 2 then .error else .ok, s)

/-- The offset of DBG_WIN_DATA. -/
abbrev winDataOff : Nat := 0xA00078

/-- DBG_WIN_READ (R519). -/
def execDbgWinRead (r : Req) (errs : MemErrs) (s : State) : Out :=
  .next (s.byReq r fun s => s.onBehalfOf r.spec fun s =>
    if s.live domSPN then let (x, s) := s.winRead r errs; s.answer r x else s.darkTo r domSPN)

/-- A write's answer: a host write is posted (R378). -/
def State.answerReg (s : State) (r : Req) (x : Reply) : State := if r.cls = .host then s else s.answer r x

/-- A write that meets a dark domain (R378). -/
def State.darkAnswer (s : State) (r : Req) (dom : Nat) : State :=
  (s.onBehalfOf r.spec fun s => s.darkReq (r.cls == .host) dom).answerReg r .dark

/-- DBG_WIN_WRITE (R519). -/
def execDbgWinWrite (r : Req) (v : Word) (errs : MemErrs) (s : State) : Out :=
  .next (s.byReq r fun s => s.onBehalfOf r.spec fun s =>
    if s.live domSPN then
    if r.spec.isSome then (s.count (cn 3 8) hub 0 1).answer r .error
    else let (x, s) := s.winWrite r v errs; s.answerReg r x
  else s.darkAnswer r domSPN)

/-- DBG_ACCESS (R527): the scan brings the previous access's status and data, and performs its own. -/
def execDbgAccess (dr : BitVec 88) (errs : MemErrs) (s : State) : Out :=
  .next (if bitOf s.su.ended 0 then
    let s := s.loadIr 0x10
    let s := s.emit (.tdo (s.dbg.tapStat.toNat + s.dbg.tapData.toNat * 2 ^ 50))
    if s.on domSPN then
      let (st, w, s) := s.debugAccess (fld dr 2 48) (bitOf dr 1)
        (if bitOf dr 0 then some (BitVec.ofNat 32 (fld dr 50 32)) else none) errs
      { s with dbg := { s.dbg with tapStat := st, tapData := w.setWidth 64 } }
    else
      let (w, s) := s.free 32
      { s with dbg := { s.dbg with tapStat := 1, tapData := w.setWidth 64 } }
  else s)

-- requests that name a device address or an offset

/-- A read by any requester, the debug window's data included. -/
def State.devRead (s : State) (r : Req) (self : Option Nat) (a len : Nat) (errs : MemErrs) : Reply × State :=
  s.onBehalf r.spec fun s =>
    if a = regBase + winDataOff ∧ len = 4 then
      if s.live domSPN then s.winRead r errs else (.dark, s.darkReq false domSPN)
    else if a = regBase + winDataOff ∧ len = 8 then
      if s.live domSPN then
        let (x, s) := s.winRead r errs
        let (y, s) := s.regRead r self false (winDataOff + 4)
        (replyPair x y, s)
      else (.dark, s.darkReq false domSPN)
    else s.spaceRead r self false a len errs

/-- A write by any requester: a whole aligned descriptor in a posting window posts an item (R276). -/
def State.devWrite (s : State) (r : Req) (self : Option Nat) (a : Nat) (bs : List Byte) (errs : MemErrs) : Reply × State :=
  s.onBehalf r.spec fun s =>
    if a = regBase + winDataOff ∧ (bs.length = 4 ∨ bs.length = 8) ∧ r.spec.isNone = true then
      if s.live domSPN then s.winWrite r (BitVec.ofNat 32 (wordOfBytes (bs.take 4))) errs
      else (.dark, s.darkReq (r.cls == .host) domSPN)
    else s.spaceWrite r self a bs errs

/-- REGISTER_WRITE (R8, R9, R542, R543, R585, R586): a word at an offset, or an aligned pair as one request. -/
def execRegisterWrite (r : Req) (off : BitVec 26) (v : Word) (hi : Option Word) (s : State) : Out :=
  let o := off.toNat
  let ok := if hi.isSome then o % 8 = 0 else o % 4 = 0
  .next (s.byReq r fun s => s.onBehalfOf r.spec fun s =>
    if s.live domSPN = false then (s.darkReq (r.cls == .host) domSPN).answerReg r .dark
    else if ok = false then
      if r.cls = .host then s.tlpFault 20 false
      else (s.vio 62).answer r .error
    else
      let bs := bytesOf v.toNat 4 ++ (match hi with
        | some w => bytesOf w.toNat 4
        | none => [])
      let (x, s) := s.devWrite r none (regBase + o) bs []
      s.answerReg r x)

/-- The failed granule that holds an address (R173, R189): a near page, a far burst, or a sealed block whose tag check
failed. -/
def granuleAt (x : ByteRes) (a : Nat) : Option Nat :=
  match x with
  | .bad => some (if a < nearEnd then a / 2048 * 2048 else a / 64 * 64)
  | .badBlock => some (a / 256 * 256)
  | _ => none

/-- Granules that failed, in address order. -/
def badGranules (a : Nat) (l : List ByteRes) : List Nat :=
  ((l.zipIdx).foldl (fun (m : List Nat) e =>
    match granuleAt e.1 (a + e.2) with
    | some g => if m.head? = some g then m else g :: m
    | none => m) []).reverse

/-- A posted host write whose granules failed (R191, R556): AER, and one record of detector 23 with the first of them. -/
def State.hostWriteFails (s : State) (a : Nat) (x : List ByteRes) : State :=
  match badGranules a x with
  | [] => s
  | g :: t => (s.aerLog 22 false).offer .hub 23 0 1 22 (BitVec.ofNat 64 (t.length + 1)) (BitVec.ofNat 48 g) false

/-- A memory write's answer (R173): a host write is posted. -/
def State.answerWrite (s : State) (r : Req) (a : Nat) (x : List ByteRes) : State :=
  if r.cls = .host then s.hostWriteFails a x else s.answerAfter a x.length (.reply r (writeReply r x))

/-- Lengths of the runs of 64-byte units that hold a failed byte, in address order; `run` units have failed before. -/
def failRuns : List Bool → Nat → List Nat
  | [], run => if run = 0 then [] else [run]
  | true :: t, run => failRuns t (run + 1)
  | false :: t, run => if run = 0 then failRuns t 0 else run :: failRuns t 0

/-- The 64-byte units of a read at address a, and whether each holds a failed byte. -/
def failUnits (a : Nat) (l : List (Option Byte)) : List Bool :=
  (List.range ((a % 64 + l.length + 63) / 64)).map fun i =>
    (l.zipIdx).any fun e => e.1.isNone && decide ((a % 64 + e.2) / 64 = i)

/-- Completions with EP that runs of failed units make: at least one each, at most one a unit (how the part cuts a run is
left open). -/
def State.epCount (s : State) : List Nat → Nat × State
  | [] => (0, s)
  | n :: t =>
    let (f, s) := s.free 16
    let (k, s) := s.epCount t
    (1 + f.toNat % n + k, s)

/-- A host read of the buffers (R543, R544, R556): failed bytes are read as 0 under EP, shown here as none; a wholly dark answer
too. -/
def State.hostRead (s : State) (a len : Nat) (errs : MemErrs) : State :=
  let r : Req := { cls := .host, rnum := 1 }
  let (x, s) := s.bufRead r a len errs
  let bs := x.map ByteRes.byte?
  let (k, s) := s.epCount (failRuns (failUnits a bs) 0)
  (if k = 0 then s else s.count (cn 16 4) hub 0 k).answer r (.data bs)

/-- A host request to BAR0 that it does not accept (R542): not 1 DW, nor 2 DW in one aligned unit. -/
def bar0Refuses (r : Req) (a len : Nat) : Bool :=
  r.cls == .host && decide (regBase ≤ a) && !(decide (len = 4 ∨ len = 8) && decide (a % len = 0))

/-- BUFFER_READ (R173): a read of the device address space. -/
def execBufferRead (r : Req) (addr : Addr) (len : Nat) (errs : MemErrs) (s : State) : Out :=
  let a := addr.toNat
  .next (s.byReq r fun s => if s.live domSPN then
    if bar0Refuses r a len then (s.tlpFault 20 false).emit (.reply r .error)
    else if r.cls = .host ∧ a < regBase then s.hostRead a len errs
    else let (x, s) := s.devRead r none a len errs; s.answer r x
  else s.darkTo r domSPN)

/-- BUFFER_WRITE (R173): a write of the device address space. -/
def execBufferWrite (r : Req) (addr : Addr) (bytes : List Byte) (errs : MemErrs) (s : State) : Out :=
  let a := addr.toNat
  .next (s.byReq r fun s => if s.live domSPN then
    if bar0Refuses r a bytes.length then s.tlpFault 20 false
    else if regBase ≤ a then let (x, s) := s.devWrite r none a bytes errs; s.answerReg r x
    else let (x, s) := s.bufWrite r a bytes errs; s.answerWrite r a x
  else s.darkAnswer r domSPN)

/-- SEALED_READ (R189): a request for one block; `changed` names bytes of the stored block or its record that have been changed
outside the part. -/
def execSealedRead (r : Req) (block : Addr) (errs : MemErrs) (changed : List (Nat × Byte)) (s : State) : Out :=
  let a := block.toNat / 256 * 256
  .next (s.byReq r fun s => if s.live domSPN then
    let s := s.tamper changed
    if r.cls = .host then s.hostRead a 256 errs
    else let (x, s) := s.bufRead r a 256 errs; s.answer r (readReply r x)
  else s.darkTo r domSPN)

/-- FULL_BLOCK_WRITE (R190): a request for one whole block. -/
def execFullBlockWrite (r : Req) (block : Addr) (bytes : List Byte) (s : State) : Out :=
  let a := block.toNat / 256 * 256
  .next (s.byReq r fun s => if s.live domSPN then let (x, s) := s.bufWrite r a (bytes.take 256) []; s.answerWrite r a x
  else s.darkAnswer r domSPN)

/-- PARTIAL_WRITE (R191): a request within one block. -/
def execPartialWrite (r : Req) (addr : Addr) (bytes : List Byte) (errs : MemErrs) (changed : List (Nat × Byte)) (s : State) : Out :=
  let a := addr.toNat
  .next (s.byReq r fun s => if s.live domSPN then
    let (x, s) := (s.tamper changed).bufWrite r a bytes errs
    s.answerWrite r a x
  else s.darkAnswer r domSPN)

-- NETP (R322)

/-- The requester of a die's NETP port (R7). -/
def netpReq (d p : Nat) : Req := { cls := .fabric, rnum := BitVec.ofNat 8 (80 + 4 * d + p) }

/-- Runs of enabled bytes of a write: offset and bytes. -/
def maskRuns (mask : BitVec 64) (o : Nat) : List Byte → List (Nat × List Byte)
  | [] => []
  | b :: t =>
    if mask.getLsbD o then
      match maskRuns mask (o + 1) t with
      | (o', bs) :: l => if o' = o + 1 then (o, b :: bs) :: l else (o, [b]) :: (o', bs) :: l
      | [] => [(o, [b])]
    else maskRuns mask (o + 1) t

/-- The runs are written in order; the worst answer counts (R173). -/
def State.netpWrite (s : State) (r : Req) (a : Nat) (errs : MemErrs) : List (Nat × List Byte) → Reply × State
  | [] => (.ok, s)
  | (o, bs) :: t =>
    let (x, s) := s.devWrite r none (a + o) bs errs
    let (y, s) := s.netpWrite r a errs t
    (replyWorst x y, s)

/-- Bytes of an answer, none where they failed. -/
def replyBytes : Reply → List (Option Byte)
  | .data bs => bs
  | .word w => (bytesOf w.toNat 4).map some
  | _ => []

/-- NETP's status: 2 where a part of the answer is poisoned. -/
def netpStatus (x : Reply) : Nat :=
  match x with
  | .data bs => if bs.all Option.isSome then 0 else 2
  | x => (respStatus x).toNat

/-- NETP_REQUEST (R319, R320, R322): 1–64 bytes, answered by tag; the shell takes no request while it holds 64 responses (log
entry 166). -/
def execNetpRequest (die : Die) (port : Fin 4) (write : Bool) (addr : Addr) (len : Nat) (tag : BitVec 6)
    (bytes : List Byte) (mask : BitVec 64) (errs : MemErrs) (s : State) : Out :=
  let r := netpReq die.val port.val
  let a := addr.toNat
  .next (if s.portAttached die.val 2 port.val && s.live (domBRG die.val) && s.bridgeUp die.val &&
      decide (1 ≤ len ∧ len ≤ 64) && s.respRoom die.val (6 + port.val) then
    if write then
      let (x, s) := s.netpWrite r a errs (maskRuns mask 0 (bytes.take len))
      s.answerAfter a len (.netp die port.val tag (netpStatus x) (replyBytes x))
    else
      let (x, s) := s.devRead r none a len errs
      s.emit (.netp die port.val tag (netpStatus x) (replyBytes x))
  else s)

-- BAR2 (R544, R556)

/-- The device address of a BAR2 offset. -/
def State.bar2Addr (s : State) (off : Nat) : Nat := fld (s.rd .hifWinBase []) 0 18 * 0x40000000 + off

/-- BAR2_READ (R543, R544, R556). -/
def execBar2Read (off : BitVec 36) (len : Nat) (errs : MemErrs) (s : State) : Out :=
  .next (if s.hostReaches && s.live domSPN then s.hostRead (s.bar2Addr off.toNat) len errs else s)

/-- BAR2_WRITE (R544, R556): good parts are performed; a part that failed in storage is reported by AER and detector 23. -/
def execBar2Write (off : BitVec 36) (bytes : List Byte) (errs : MemErrs) (s : State) : Out :=
  .next (if s.hostReaches && s.live domSPN then
    let r : Req := { cls := .host, rnum := 1 }
    let a := s.bar2Addr off.toNat
    let (x, s) := s.bufWrite r a bytes errs
    s.hostWriteFails a x
  else s)

end Sys2Proof.Machine
end

