-- ==== Sys2Proof/Machine/DarkRec.lean ====
section
/-! DEFINITION. A capture written as a Dark Record entry (R531–R533). -/

namespace Sys2Proof.Machine

/-- The parts of the state that a capture froze. -/
def State.atCapture (s : State) (c : Capture) : State :=
  { s with
    regs := c.regs, tb := c.tb, clk := c.clk, pw := c.pw, rails := c.rails, su := c.su, brg := c.brg, dbm := c.dbm, sre := c.sre,
    glint := c.glint, cfg := c.cfg, flt := c.flt, dbg := c.dbg }

/-- The snapshot's blocks, in order: first offset, words, and the domain they lie in, none for AON (R533). -/
def snapBlocks (spn : Bool) : List (Nat × Nat × Option Nat) :=
  [(0, 128, some domSPN), (0x200000, 27, none), (0x200400, 24, none), (0x300000, 256, none)] ++
    (if spn then [(0x400000, 96, none)] else [(0x400100, 32, none)]) ++
    [(0x600010, 2, some domSPN), (0x700000, 1, some domSPN), (0x800008, 1, some domSEC), (0x800400, 128, some domSEC),
      (0x900020, 1, some domSPN), (0xC00000, 1, some domCFG), (0xC00004, 1, some domCFG), (0xC00204, 1, some domCFG),
      (0xA00000, 1, none)]

/-- A word of the snapshot: the register at an offset of the frozen state, 0 where none lies; the current that a domain
draws is a measured value (log entry 1). -/
def State.snapWord (s : State) (frozen : State) (off : Nat) : Word × State :=
  match regAt off with
  | some (.pmgDomPwr, ix) => let (v, s) := s.free 16; (v.setWidth 32 ||| frozen.peekReg .pmgDomPwr ix, s)
  | some (n, ix) => (frozen.peekReg n ix, s)
  | none => (0, s)

/-- k words from an offset on. -/
def State.snapWords (s : State) (frozen : State) (off : Nat) : Nat → List Word × State
  | 0 => ([], s)
  | k + 1 =>
    let (w, s) := s.snapWord frozen off
    let (t, s) := s.snapWords frozen (off + 4) k
    (w :: t, s)

/-- The blocks whose domain was on, each with its offset and count, and the word that ends them (R465, R533). -/
def State.snapshot (s : State) (frozen : State) : List (Nat × Nat × Option Nat) → List Word × State
  | [] => ([0xFFFFFFFF], s)
  | (off, k, dom) :: t =>
    let on := match dom with
      | some d => frozen.on d
      | none => true
    if on then
      let (w, s) := s.snapWords frozen off k
      let (l, s) := s.snapshot frozen t
      (BitVec.ofNat 32 off :: BitVec.ofNat 32 k :: (w ++ l), s)
    else s.snapshot frozen t

/-- The bytes of a record (R490). -/
def FaultRec.bytes (r : FaultRec) : List Byte := bytesOf r.bits.toNat 32

/-- An entry's bytes, the rest of the 64 KiB reading 0xFF (R532). -/
def State.entryBytes (s : State) (c : Capture) : List Byte × State :=
  let f := s.atCapture c
  let (snap, s) := s.snapshot f (snapBlocks (f.on domSPN))
  let snap := snap.flatMap fun w => bytesOf w.toNat 4
  let trig := match c.trig with
    | some r => r.bytes
    | none => List.replicate 32 0
  let recs := c.recs.flatMap FaultRec.bytes
  let head := bytesOf 0x4B524144 4 ++ bytesOf 1 2 ++ bytesOf 0 2 ++ bytesOf s.dbg.drSeq.toNat 4 ++ bytesOf s.idcodeWord 4 ++
    bytesOf Config.serial.toNat 8 ++ bytesOf (f.peekReg .cfgImgId []).toNat 4 ++ bytesOf (f.peekReg .rstCause []).toNat 4 ++
    trig ++ bytesOf c.recs.length 4 ++ bytesOf snap.length 4
  let tail := List.replicate 180 0 ++ recs ++ List.replicate (8192 - recs.length) 0 ++ snap
  let pad := List.replicate (0x10000 - (0x4C + tail.length)) 0xFF
  (head ++ bytesOf (crc32 (head ++ [0, 0, 0, 0] ++ tail ++ pad)).toNat 4 ++ tail, s)

/-- DR_WRITE (R531, R532). -/
def execDrWrite (s : State) : Out :=
  .next (match s.capture with
    | some c =>
      if s.on domCFG then
        let (bs, s) := s.entryBytes c
        let a := darkArea + s.dbg.drSeq.toNat % 256 * 0x10000
        { s with
          nv := { s.nv with mem := nvPut (outside a (a + 0x10000) s.nv.mem) a bs },
          dbg := { s.dbg with drSeq := s.dbg.drSeq + 1 },
          capture := none }.count (cn 17 2) hub 0 1
      else s
    | none => s)

end Sys2Proof.Machine
end

