-- ==== Sys2Proof/Machine/Facet.lean ====
section
/-! DEFINITION. How a core issues an instruction (R214, R218–R225, R233, R236, R273): its checks in the order of R233, its
moves, its result, and what follows it. A command carries the operation that the core has fetched. -/

namespace Sys2Proof.Machine

/-- A core's operation but for flow and system instructions: whether its fields or the core's mode make it ILLEGAL, what it
computes on the registers, its moves, and whether it is LR. -/
structure Op where
  illegal : Bool := false
  fn : CoreSt → CoreSt := id
  moves : List MoveOp := []
  lr : Bool := false

/-- The core can issue an instruction: an item runs (or it is the Lamp), nothing is awaited, it is not halted, and an
earlier FENCE has no store left to wait for (R235, R271, R520). -/
def State.canIssue (s : State) (c : Nat) : Bool :=
  let q := s.core c
  s.coreLive c && (c == lampCore || q.item.isSome) && !q.ending && q.wait.isNone && (!q.dbg.halted) &&
    !(q.fencing && q.stores != []) && !(q.wfi && !q.nmiPend && q.lines == 0)

/-- Cycles that an instruction costs beyond its own pass (R275). -/
def State.charge (s : State) (c n : Nat) : State := (s.spend c n).2

/-- After an instruction: an item whose budget is used up and that has not ended aborts with TIMEOUT (R236); a step or a
halt that waited for it takes place (R520, R521). -/
def State.settle (s : State) (c : Nat) : State :=
  let s := s.timeOut c
  let q := s.core c
  if q.wait.isSome then s
  else if q.dbg.stepping then
    (s.setCore c { q with dbg := { q.dbg with stepping := false } }).haltCore c 4
  else if q.dbg.stopping then s.haltCore c q.dbg.cause.toNat
  else s

/-- The core's PC lies where no instruction is (R213, R232, R241). -/
def CoreSt.fetchFault (q : CoreSt) (c : Nat) : Bool :=
  decide (4 * (if c = lampCore then 0x100000 else 0x1000) ≤ q.pc.toNat) || q.pc.toNat % 4 != 0

/-- The core as instruction i, which stores the registers `data`, finds it in the cycle in which it issues: the cycles that
it has waited in DE and its own have passed (R236, R273, R274); none where the budget ends before. -/
def State.enter (s : State) (c : Nat) (i : Instr) (data : List (Fin 16)) : Bool × State :=
  let q := s.core c
  let wait := q.stall (uses i) data
  let q := q.freeRows wait
  let x := (s.setCore c { q with fencing := false, wfi := false, time := { q.time with started := true } }).spend c (wait + 1)
  (x.1, x.2.setCore c { x.2.core c with time := { (x.2.core c).time with issued := (x.2.core c).time.clock } })

/-- An instruction issues (R233): FETCH and ECC on fetch come before everything that the instruction does. -/
def State.issue (s : State) (c : Nat) (i : Instr) (data : List (Fin 16)) (f : State → State) : State :=
  if s.canIssue c = false then s
  else
    let s := (s.sync c).timeOut c
    if s.canIssue c = false then s
    else
      match s.enter c i data with
      | (false, s) => s.settle c
      | (true, s) =>
        let q := s.core c
        if q.fetchFault c then (s.raiseExc c 9 0 none).settle c
        else
          match s.readLocal q.glint c true (q.pc.toNat / 4) with
          | (none, s) => (s.raiseExc c 5 2 (some (BitVec.ofNat 32 (localAddr (isImem c true) (q.pc.toNat / 4))))).settle c
          | (some _, s) => (f s).settle c

/-- The interlocks that an instruction leaves, which loads the registers `loads` (R274). -/
def CoreSt.leave (q : CoreSt) (i : Instr) (loads : List (Fin 16)) (b : Nat) : CoreSt :=
  { q with time := q.time.leave (uses i) loads b }

-- moves

/-- ALIGN or ACCESS of one move (R218, R223, R232, R267): code, or none. Where both hold the manual gives no order. -/
def State.moveExc (s : State) (c : Nat) (lr : Bool) (m : MoveOp) : Option Nat × State :=
  let q := s.core c
  let a := q.moveAddr m
  let mis := a % m.size != 0
  let acc := match q.moveTarget c m with
    | .access => true
    | .table _ => lr
    | .remote dev => lr && inRegs dev
    | .here _ => false
  if mis && acc then
    let (f, s) := s.free 1
    (some (if f = 1 then 2 else 3), s)
  else if mis then (some 2, s)
  else if acc then (some 3, s)
  else (none, s)

/-- The first exception among the moves, slot 0 before slot 1: code and address. -/
def State.movesExc (s : State) (c : Nat) (lr : Bool) : List MoveOp → Option (Nat × Nat) × State
  | [] => (none, s)
  | m :: t =>
    match s.moveExc c lr m with
    | (some k, s) => (some (k, (s.core c).moveAddr m), s)
    | (none, s) => s.movesExc c lr t

/-- The moves that go through a window, slot 0 first: each with its device address and whether it is the table's. -/
def CoreSt.windowMoves (q : CoreSt) (c : Nat) (ms : List MoveOp) : List (MoveOp × Nat × Bool) :=
  ms.filterMap fun m => match q.moveTarget c m with
    | .table dev => some (m, dev, true)
    | .remote dev => some (m, dev, false)
    | _ => none

/-- What the DMEM moves read, one for each move (0 where it reads nothing): a narrow store reads its word as well. The
second part is the address of an uncorrectable word (R215, R233). -/
def State.readMoves (s : State) (c : Nat) (q : CoreSt) : List MoveOp → List Word × Option Nat × State
  | [] => ([], none, s)
  | m :: t =>
    match q.moveTarget c m with
    | .here a =>
      if m.store && m.size == 4 then
        let (v, e, s) := s.readMoves c q t
        (0 :: v, e, s)
      else
        match s.readLocal q.glint c false (a / 4) with
        | (none, s) => ([], some a, s)
        | (some w, s) =>
          let (v, e, s) := s.readMoves c q t
          (m.extend (w.toNat >>> (8 * (a % 4))) :: v, e, s)
    | _ =>
      let (v, e, s) := s.readMoves c q t
      (0 :: v, e, s)

/-- Stores to the core's own memory, slot 0 then slot 1 (R214, R215). -/
def State.putStores (s : State) (c : Nat) (q : CoreSt) : List MoveOp → State
  | [] => s
  | m :: t =>
    match m.store, q.moveTarget c m with
    | true, .here a =>
      let w := Tbl.get 0 (s.core c).dmem (a / 4)
      (s.writeLocal c false (a / 4) (mergeBytes w (a % 4) (q.moveData m))).putStores c q t
    | _, _ => s.putStores c q t

/-- The word that the DMEM store of an instruction with a window move replaces, and its errors. -/
def CoreSt.replaced (q : CoreSt) (c : Nat) : List MoveOp → Option (Nat × Word × Nat)
  | [] => none
  | m :: t =>
    match m.store, q.moveTarget c m with
    | true, .here a => some (a / 4, Tbl.get 0 q.dmem (a / 4), Tbl.get 0 q.badD (a / 4))
    | _, _ => q.replaced c t

/-- The loaded values, one for each move: what DMEM gave, and what the windows brought. -/
def CoreSt.loadValues (q : CoreSt) (c : Nat) : List MoveOp → List Word → List Word → List Word
  | [], _, _ => []
  | m :: t, near, got =>
    match q.moveTarget c m with
    | .here _ => near.headD 0 :: q.loadValues c t (near.drop 1) got
    | _ =>
      if m.store then 0 :: q.loadValues c t (near.drop 1) got
      else m.extend (got.headD 0).toNat :: q.loadValues c t (near.drop 1) (got.drop 1)

/-- Loads written to their registers, slot 0 then slot 1 (R219). -/
def CoreSt.putLoads (q : CoreSt) : List MoveOp → List Word → CoreSt
  | m :: t, v :: vs => (if m.store then q else q.setX m.xr v).putLoads t vs
  | _, _ => q

/-- The reservation that LR sets (R267). -/
def CoreSt.reserve (q : CoreSt) (c : Nat) (ms : List MoveOp) : Option Resv :=
  match ms with
  | m :: _ => match q.moveTarget c m with
    | .here a => some (.near (a / 64))
    | .remote dev => some (.remote (dev / 64))
    | _ => none
  | [] => none

/-- The registers that an operation loads, and those that it stores. -/
def Op.loads (op : Op) : List (Fin 16) := op.moves.filterMap fun m => if m.store then none else some m.xr
def Op.data (op : Op) : List (Fin 16) := op.moves.filterMap fun m => if m.store then some m.xr else none

/-- An operation whose moves are over completes (R219): the compute result, then post-modify, then the loads; every operand
is read before. Its distances run from its issue, or from the return of its window data (R274). -/
def State.finishOp (s : State) (c : Nat) (i : Instr) (op : Op) : State :=
  let o := s.core c
  let r := (op.moves.foldl (postMod c o) (op.fn o)).putLoads op.moves (o.loadValues c op.moves o.near o.got)
  let r := if op.lr then { r with resv := o.reserve c op.moves } else r
  let r := r.leave i op.loads (if o.wait.isSome then o.time.clock else o.time.issued)
  s.setCore c { r with wait := none, passed := 0, got := [], near := [], undo := none }.retire

/-- The Glint and generation that a core's remote store names (R228). -/
def State.tagStore (s : State) (q : CoreSt) (st : PendStore) : PendStore :=
  match q.glint with
  | some g => { st with spec := some g, gen := (s.slot g.val).gen }
  | none => st

/-- The window moves of a waiting instruction go on in slot order (R214): a store leaves once fewer than 8 are
unacknowledged (R224), a load waits for its answer; after the last of them the operation completes. -/
def State.advance (s : State) (c : Nat) (i : Instr) (op : Op) : Nat → State
  | 0 => s
  | n + 1 =>
    let q := s.core c
    match (q.windowMoves c op.moves)[q.passed]? with
    | none => s.finishOp c i op
    | some (m, dev, _) =>
      if m.store && decide (q.stores.length < 8) then
        let st := s.tagStore q { addr := BitVec.ofNat 48 dev, bytes := q.moveData m }
        (s.setCore c { q with stores := q.stores ++ [st], passed := q.passed + 1 }).advance c i op n
      else s

/-- An operation's moves are performed (R214): those in DMEM in its first cycle; it waits where a window move does. -/
def State.moveOp (s : State) (c : Nat) (i : Instr) (op : Op) : State :=
  let q := s.core c
  match s.readMoves c q op.moves with
  | (_, some a, s) => s.raiseExc c 5 1 (some (BitVec.ofNat 32 a))
  | (near, none, s) =>
    let window := q.windowMoves c op.moves
    let undo := if window = [] then none else (s.core c).replaced c op.moves
    let s := s.putStores c q op.moves
    let q := s.core c
    let q := { q with
      near := near,
      undo := undo,
      time := { q.time with
        merges := (q.time.merges.filter fun m => q.time.clock ≤ m.1) ++ q.mergesOf c op.moves q.time.clock } }
    if window = [] then (s.setCore c q).finishOp c i op
    else (s.setCore c { q with wait := some i }).advance c i op 3

/-- The moves find their banks (R214–R216): the cycles that they wait are counted, and where the item's budget ends before
them nothing is performed (R236). -/
def State.atBanks (s : State) (c : Nat) (ms : List MoveOp) (f : State → State) : State :=
  let q := s.core c
  let wait := q.bankWait c ms
  let s := s.setCore c { q with time := q.time.rowStep (q.moveBanks c ms != []) }
  if wait = 0 then f s
  else
    let s := if c = lampCore then s else s.countFor q.glint (cn 6 5) (coreDie c) (coreCluster c % 16) wait
    match s.spend c wait with
    | (true, s) => f s
    | (false, s) => s

/-- An operation issues (R233): ILLEGAL, then ALIGN or ACCESS by slot, then its moves and its result. -/
def State.issueOp (s : State) (c : Nat) (i : Instr) (op : Op) : State :=
  s.issue c i op.data fun s =>
    if op.illegal then s.raiseExc c 1 0 none
    else
      match s.movesExc c op.lr op.moves with
      | (some (k, a), s) => s.raiseExc c k 0 (some (BitVec.ofNat 32 a))
      | (none, s) => s.atBanks c op.moves fun s => s.moveOp c i op

/-- A flow or system instruction issues; `f` gives the registers after it, or an exception's code. -/
def State.issueFlow (s : State) (c : Nat) (i : Instr) (f : CoreSt → Except Nat CoreSt) (cost : Nat) : State :=
  s.issue c i [] fun s =>
    match f (s.core c) with
    | .error k => s.raiseExc c k 0 none
    | .ok q => (s.setCore c (q.leave i [] q.time.issued)).charge c cost

end Sys2Proof.Machine
end

