-- ==== Sys2Proof/Machine/FacetAlu.lean ====
section
/-! DEFINITION. Facet operations on data (R252, R257–R268): what each computes, and its meaning. `opOf` gives the operation
of an instruction that a core waits to complete. -/

namespace Sys2Proof.Machine

-- forms (R257, R258, R260)

/-- A two-operand operation: parallel xd := xd op xs; ALU3 xs op xt; ALUI xs op imm, where the code is accepted (R258). -/
def aluOp (f : AluForm) (imm : Bool) (g : Word → Word → AluRes) : Op :=
  match f with
  | .par ua ub mv => { fn := fun q => q.putRes (hi8 ua) (g (q.getX (hi8 ua)) (q.getX (hi8 ub))), moves := parMoves mv }
  | .alu3 xd xs xt => { fn := fun q => q.putRes xd (g (q.getX xs) (q.getX xt)) }
  | .alui xd xs k => { illegal := !imm, fn := fun q => q.putRes xd (g (q.getX xs) (k.signExtend 32)) }

/-- A one-operand operation (MOV, ABS): parallel from xs; ALU3 with xt = 0; never ALUI (R258). -/
def unaryOp (f : AluForm) (g : Word → AluRes) : Op :=
  match f with
  | .par ua ub mv => { fn := fun q => q.putRes (hi8 ua) (g (q.getX (hi8 ub))), moves := parMoves mv }
  | .alu3 xd xs xt => { illegal := xt != 0, fn := fun q => q.putRes xd (g (q.getX xs)) }
  | .alui _ _ _ => { illegal := true }

/-- A shift (R258): the amount is xt[7:0], or imm14[5:0] with imm14[13:6] = 0. -/
def shiftOp (f : ShForm) (g : Word → Nat → AluRes) : Op :=
  match f with
  | .alu3 xd xs xt => { fn := fun q => q.putRes xd (g (q.getX xs) (fld (q.getX xt) 0 8)) }
  | .alui xd xs k => { illegal := fld k 6 8 != 0, fn := fun q => q.putRes xd (g (q.getX xs) (fld k 0 6)) }

/-- The operands of an accumulator operation: accumulator, first and second register, moves, and whether every field that
the operation does not name is 0 (R257, R260). -/
structure AccArgs where
  a : Fin 4
  x : Fin 16
  y : Fin 16
  mv : List MoveOp
  zeroX : Bool
  zeroY : Bool

def accArgs : AccForm → AccArgs
  | .par a ua ub mv => { a := a, x := hi8 ua, y := hi8 ub, mv := parMoves mv, zeroX := ua == 0, zeroY := ub == 0 }
  | .full a xa xb => { a := a, x := xa, y := xb, mv := [], zeroX := xa == 0, zeroY := xb == 0 }

/-- An accumulator written from its old value and two registers (R259). -/
def macOp (f : AccForm) (g : BitVec 16 → Int → Word → Word → Int) : Op :=
  let o := accArgs f
  { fn := fun q => q.putAcc o.a (accWrite (g q.st (q.getA o.a).toInt (q.getX o.x) (q.getX o.y))), moves := o.mv }

/-- An extraction into the first register (R262). -/
def extOp (f : AccForm) (g : BitVec 16 → Acc → AluRes) : Op :=
  let o := accArgs f
  { illegal := !o.zeroY, fn := fun q => q.putRes o.x (g q.st (q.getA o.a)), moves := o.mv }

/-- A running search over the first register (R264). -/
def peakOp (f : AccForm) (k : Peak) : Op :=
  let o := accArgs f
  { illegal := !o.zeroY, fn := fun q => q.setA o.a (peak k (q.getA o.a) (q.getX o.x)), moves := o.mv }

-- the operations

def opNop (mv : Moves) : Op := { moves := parMoves mv }
def opAdd (f : AluForm) : Op := aluOp f true (resAdd false)
def opSub (f : AluForm) : Op := aluOp f true (resSub false)
def opAdds (f : AluForm) : Op := aluOp f true (resAdd true)
def opSubs (f : AluForm) : Op := aluOp f true (resSub true)
def opAdd2 (f : AluForm) : Op := aluOp f false (resAdd2 false)
def opSub2 (f : AluForm) : Op := aluOp f false resSub2
def opAdd2s (f : AluForm) : Op := aluOp f false (resAdd2 true)
def opAnd (f : AluForm) : Op := aluOp f true resAnd
def opOr (f : AluForm) : Op := aluOp f true resOr
def opXor (f : AluForm) : Op := aluOp f true resXor
def opMov (f : AluForm) : Op := unaryOp f resLogic
def opAbs (f : AluForm) : Op := unaryOp f resAbs
def opMax (f : AluForm) : Op := aluOp f false resMax
def opMin (f : AluForm) : Op := aluOp f false resMin

def opClr (f : AccForm) : Op :=
  let o := accArgs f
  { illegal := !(o.zeroX && o.zeroY), fn := fun q => q.putAcc o.a { val := 0 }, moves := o.mv }
def opMul (f : AccForm) : Op := macOp f fun st _ x y => prodLo st x y
def opMac (f : AccForm) : Op := macOp f fun st a x y => a + prodLo st x y
def opMsu (f : AccForm) : Op := macOp f fun st a x y => a - prodLo st x y
def opMac2 (f : AccForm) : Op := macOp f fun st a x y => a + prodLo st x y + prodHi st x y
def opMsu2 (f : AccForm) : Op := macOp f fun st a x y => a - prodLo st x y - prodHi st x y
def opMacl (f : AccForm) : Op := macOp f fun st a x y => a + prodFull st x y
def opMsul (f : AccForm) : Op := macOp f fun st a x y => a - prodFull st x y
def opExth (f : AccForm) : Op := extOp f extH
def opExtw (f : AccForm) : Op := extOp f extW
def opExts (xd : Fin 16) (a : Fin 4) (k : BitVec 7) : Op :=
  { illegal := decide (64 ≤ k.toNat), fn := fun q => q.putRes xd (extS q.st (q.getA a) k.toNat) }
def opPkn (f : AccForm) : Op := peakOp f .pkn
/-- PKNX (R265): ILLEGAL in a package running FL1. -/
def opPknx (fl2 : Bool) (f : AccForm) : Op :=
  let o := accArgs f
  { illegal := !fl2, fn := fun q => q.setA o.a (pknx (q.getA o.a) (q.getX o.x) (q.getX o.y)), moves := o.mv }
def opMaxi (f : AccForm) : Op := peakOp f .maxi
def opMini (f : AccForm) : Op := peakOp f .mini

def opShl (f : ShForm) : Op := shiftOp f resShl
def opShr (f : ShForm) : Op := shiftOp f resShr
def opAsr (f : ShForm) : Op := shiftOp f resAsr
/-- CMP (R258): the flags of a difference; the xd field must be 0. -/
def opCmp (f : ShForm) : Op :=
  match f with
  | .alu3 xd xs xt => { illegal := xd != 0, fn := fun q => q.putFlags (resSub false (q.getX xs) (q.getX xt)) }
  | .alui xd xs k => { illegal := xd != 0, fn := fun q => q.putFlags (resSub false (q.getX xs) (k.signExtend 32)) }
def opNorm (xd xs : Fin 16) : Op := { fn := fun q => q.putRes xd (resNorm (q.getX xs)) }
def opExpn (xd xs : Fin 16) : Op := { fn := fun q => q.putRes xd (resExpn (q.getX xs)) }
def opMulw (xd xs xt : Fin 16) : Op := { fn := fun q => q.putRes xd (resMulw (q.getX xs) (q.getX xt)) }
def opMovi (h : Bool) (xd : Fin 16) (imm : BitVec 16) : Op :=
  { fn := fun q => q.setX xd (if h then imm ++ (q.getX xd).extractLsb' 0 16 else imm.signExtend 32) }

def opLdW (f : LsForm) : Op := { moves := lsMove f false 4 false }
def opLdH (f : LsForm) : Op := { moves := lsMove f false 2 true }
def opLdHu (f : LsForm) : Op := { moves := lsMove f false 2 false }
def opLdB (f : LsForm) : Op := { moves := lsMove f false 1 true }
def opLdBu (f : LsForm) : Op := { moves := lsMove f false 1 false }
def opStW (f : LsForm) : Op := { moves := lsMove f true 4 false }
def opStH (f : LsForm) : Op := { moves := lsMove f true 2 false }
def opStB (f : LsForm) : Op := { moves := lsMove f true 1 false }
/-- LR (R267). -/
def opLr (xd : Fin 16) (p : Fin 8) : Op := { moves := [{ store := false, xr := xd, p := p }], lr := true }

def opMovp (c : Nat) (p : Fin 8) (imm : BitVec 18) : Op := { fn := fun q => q.setP c p (imm.setWidth 32) }
def opMovm (c : Nat) (m : Fin 8) (imm : BitVec 18) : Op := { fn := fun q => q.setM c m (imm.signExtend 32) }
def opAddp (c : Nat) (p m : Fin 8) : Op := { fn := fun q => q.setP c p (q.getP p + q.getM m) }
def opMtp (c : Nat) (p : Fin 8) (x : Fin 16) : Op := { fn := fun q => q.setP c p (q.getX x) }
def opMfp (p : Fin 8) (x : Fin 16) : Op := { fn := fun q => q.setX x (q.getP p) }
def opMtm (c : Nat) (m : Fin 8) (x : Fin 16) : Op := { fn := fun q => q.setM c m (q.getX x) }
def opMfm (m : Fin 8) (x : Fin 16) : Op := { fn := fun q => q.setX x (q.getM m) }

def opMfal (xd : Fin 16) (a : Fin 4) : Op := { fn := fun q => q.setX xd ((q.getA a).extractLsb' 0 32) }
def opMfah (xd : Fin 16) (a : Fin 4) : Op := { fn := fun q => q.setX xd ((q.getA a).extractLsb' 32 32) }
def opMfag (xd : Fin 16) (a : Fin 4) : Op := { fn := fun q => q.setX xd (((q.getA a).extractLsb' 64 16).signExtend 32) }
def opMtal (a : Fin 4) (xs : Fin 16) : Op :=
  { fn := fun q => q.putAcc a { val := (q.getA a).extractLsb' 32 48 ++ q.getX xs } }
def opMtah (a : Fin 4) (xs : Fin 16) : Op :=
  { fn := fun q => q.putAcc a { val := (q.getA a).extractLsb' 64 16 ++ q.getX xs ++ (q.getA a).extractLsb' 0 32 } }
def opMtag (a : Fin 4) (xs : Fin 16) : Op :=
  { fn := fun q => q.putAcc a { val := (q.getX xs).extractLsb' 0 16 ++ (q.getA a).extractLsb' 0 64 } }
/-- ASH (R260). -/
def opAsh (a : Fin 4) (k : BitVec 7) : Op :=
  { fn := fun q =>
      let v := (q.getA a).toInt
      q.putAcc a (if 0 ≤ k.toInt then accWrite (v * 2 ^ k.toInt.toNat)
        else { val := BitVec.ofInt 80 (rnd (stRnd q.st) v (-k.toInt).toNat) }) }
def opAdda (a b : Fin 4) : Op := { fn := fun q => q.putAcc a (accWrite ((q.getA a).toInt + (q.getA b).toInt)) }
def opSuba (a b : Fin 4) : Op := { fn := fun q => q.putAcc a (accWrite ((q.getA a).toInt - (q.getA b).toInt)) }
def opMova (a b : Fin 4) : Op := { fn := fun q => q.putAcc a { val := q.getA b } }
def opNega (a b : Fin 4) : Op := { fn := fun q => q.putAcc a (accWrite (-(q.getA b).toInt)) }
def opExpa (xd : Fin 16) (a : Fin 4) : Op := { fn := fun q => q.putRes xd (resExpa (q.getA a)) }

-- what a waiting instruction completes

/-- The operation of an instruction that can wait for its window data or for room in the store queue: those with moves. -/
def opOf (s : State) : Instr → Option Op
  | .nop _ mv => some (opNop mv)
  | .add _ f => some (opAdd f)
  | .sub _ f => some (opSub f)
  | .adds _ f => some (opAdds f)
  | .subs _ f => some (opSubs f)
  | .add2 _ f => some (opAdd2 f)
  | .sub2 _ f => some (opSub2 f)
  | .add2s _ f => some (opAdd2s f)
  | .and _ f => some (opAnd f)
  | .or _ f => some (opOr f)
  | .xor _ f => some (opXor f)
  | .mov _ f => some (opMov f)
  | .abs _ f => some (opAbs f)
  | .max _ f => some (opMax f)
  | .min _ f => some (opMin f)
  | .clr _ f => some (opClr f)
  | .mul _ f => some (opMul f)
  | .mac _ f => some (opMac f)
  | .msu _ f => some (opMsu f)
  | .mac2 _ f => some (opMac2 f)
  | .msu2 _ f => some (opMsu2 f)
  | .macl _ f => some (opMacl f)
  | .msul _ f => some (opMsul f)
  | .exth _ f => some (opExth f)
  | .extw _ f => some (opExtw f)
  | .pkn _ f => some (opPkn f)
  | .pknx _ f => some (opPknx s.fl2 f)
  | .maxi _ f => some (opMaxi f)
  | .mini _ f => some (opMini f)
  | .ldW _ f => some (opLdW f)
  | .ldH _ f => some (opLdH f)
  | .ldHu _ f => some (opLdHu f)
  | .ldB _ f => some (opLdB f)
  | .ldBu _ f => some (opLdBu f)
  | .stW _ f => some (opStW f)
  | .stH _ f => some (opStH f)
  | .stB _ f => some (opStB f)
  | .lr _ xd p => some (opLr xd p)
  | _ => none

-- meanings

/-- NOP. -/
def execNop (c : Core) (mv : Moves) (s : State) : Out :=
  .next (s.issueOp c.val (.nop c mv) (opNop mv))

/-- ADD. -/
def execAdd (c : Core) (f : AluForm) (s : State) : Out :=
  .next (s.issueOp c.val (.add c f) (opAdd f))

/-- SUB. -/
def execSub (c : Core) (f : AluForm) (s : State) : Out :=
  .next (s.issueOp c.val (.sub c f) (opSub f))

/-- ADDS. -/
def execAdds (c : Core) (f : AluForm) (s : State) : Out :=
  .next (s.issueOp c.val (.adds c f) (opAdds f))

/-- SUBS. -/
def execSubs (c : Core) (f : AluForm) (s : State) : Out :=
  .next (s.issueOp c.val (.subs c f) (opSubs f))

/-- ADD2. -/
def execAdd2 (c : Core) (f : AluForm) (s : State) : Out :=
  .next (s.issueOp c.val (.add2 c f) (opAdd2 f))

/-- SUB2. -/
def execSub2 (c : Core) (f : AluForm) (s : State) : Out :=
  .next (s.issueOp c.val (.sub2 c f) (opSub2 f))

/-- ADD2S. -/
def execAdd2s (c : Core) (f : AluForm) (s : State) : Out :=
  .next (s.issueOp c.val (.add2s c f) (opAdd2s f))

/-- AND. -/
def execAnd (c : Core) (f : AluForm) (s : State) : Out :=
  .next (s.issueOp c.val (.and c f) (opAnd f))

/-- OR. -/
def execOr (c : Core) (f : AluForm) (s : State) : Out :=
  .next (s.issueOp c.val (.or c f) (opOr f))

/-- XOR. -/
def execXor (c : Core) (f : AluForm) (s : State) : Out :=
  .next (s.issueOp c.val (.xor c f) (opXor f))

/-- MOV. -/
def execMov (c : Core) (f : AluForm) (s : State) : Out :=
  .next (s.issueOp c.val (.mov c f) (opMov f))

/-- ABS. -/
def execAbs (c : Core) (f : AluForm) (s : State) : Out :=
  .next (s.issueOp c.val (.abs c f) (opAbs f))

/-- MAX. -/
def execMax (c : Core) (f : AluForm) (s : State) : Out :=
  .next (s.issueOp c.val (.max c f) (opMax f))

/-- MIN. -/
def execMin (c : Core) (f : AluForm) (s : State) : Out :=
  .next (s.issueOp c.val (.min c f) (opMin f))

/-- CLR. -/
def execClr (c : Core) (f : AccForm) (s : State) : Out :=
  .next (s.issueOp c.val (.clr c f) (opClr f))

/-- MUL. -/
def execMul (c : Core) (f : AccForm) (s : State) : Out :=
  .next (s.issueOp c.val (.mul c f) (opMul f))

/-- MAC. -/
def execMac (c : Core) (f : AccForm) (s : State) : Out :=
  .next (s.issueOp c.val (.mac c f) (opMac f))

/-- MSU. -/
def execMsu (c : Core) (f : AccForm) (s : State) : Out :=
  .next (s.issueOp c.val (.msu c f) (opMsu f))

/-- MAC2. -/
def execMac2 (c : Core) (f : AccForm) (s : State) : Out :=
  .next (s.issueOp c.val (.mac2 c f) (opMac2 f))

/-- MSU2. -/
def execMsu2 (c : Core) (f : AccForm) (s : State) : Out :=
  .next (s.issueOp c.val (.msu2 c f) (opMsu2 f))

/-- MACL. -/
def execMacl (c : Core) (f : AccForm) (s : State) : Out :=
  .next (s.issueOp c.val (.macl c f) (opMacl f))

/-- MSUL. -/
def execMsul (c : Core) (f : AccForm) (s : State) : Out :=
  .next (s.issueOp c.val (.msul c f) (opMsul f))

/-- EXTH. -/
def execExth (c : Core) (f : AccForm) (s : State) : Out :=
  .next (s.issueOp c.val (.exth c f) (opExth f))

/-- EXTW. -/
def execExtw (c : Core) (f : AccForm) (s : State) : Out :=
  .next (s.issueOp c.val (.extw c f) (opExtw f))

/-- EXTS. -/
def execExts (c : Core) (xd : Fin 16) (a : Fin 4) (k : BitVec 7) (s : State) : Out :=
  .next (s.issueOp c.val (.exts c xd a k) (opExts xd a k))

/-- PKN. -/
def execPkn (c : Core) (f : AccForm) (s : State) : Out :=
  .next (s.issueOp c.val (.pkn c f) (opPkn f))

/-- PKNX. -/
def execPknx (c : Core) (f : AccForm) (s : State) : Out :=
  .next (s.issueOp c.val (.pknx c f) (opPknx s.fl2 f))

/-- MAXI. -/
def execMaxi (c : Core) (f : AccForm) (s : State) : Out :=
  .next (s.issueOp c.val (.maxi c f) (opMaxi f))

/-- MINI. -/
def execMini (c : Core) (f : AccForm) (s : State) : Out :=
  .next (s.issueOp c.val (.mini c f) (opMini f))

/-- SHL. -/
def execShl (c : Core) (f : ShForm) (s : State) : Out :=
  .next (s.issueOp c.val (.shl c f) (opShl f))

/-- SHR. -/
def execShr (c : Core) (f : ShForm) (s : State) : Out :=
  .next (s.issueOp c.val (.shr c f) (opShr f))

/-- ASR. -/
def execAsr (c : Core) (f : ShForm) (s : State) : Out :=
  .next (s.issueOp c.val (.asr c f) (opAsr f))

/-- CMP. -/
def execCmp (c : Core) (f : ShForm) (s : State) : Out :=
  .next (s.issueOp c.val (.cmp c f) (opCmp f))

/-- NORM. -/
def execNorm (c : Core) (xd xs : Fin 16) (s : State) : Out :=
  .next (s.issueOp c.val (.norm c xd xs) (opNorm xd xs))

/-- EXPN. -/
def execExpn (c : Core) (xd xs : Fin 16) (s : State) : Out :=
  .next (s.issueOp c.val (.expn c xd xs) (opExpn xd xs))

/-- MULW. -/
def execMulw (c : Core) (xd xs xt : Fin 16) (s : State) : Out :=
  .next (s.issueOp c.val (.mulw c xd xs xt) (opMulw xd xs xt))

/-- MOVI. -/
def execMovi (c : Core) (h : Bool) (xd : Fin 16) (imm : BitVec 16) (s : State) : Out :=
  .next (s.issueOp c.val (.movi c h xd imm) (opMovi h xd imm))

/-- LDW. -/
def execLdW (c : Core) (f : LsForm) (s : State) : Out :=
  .next (s.issueOp c.val (.ldW c f) (opLdW f))

/-- LDH. -/
def execLdH (c : Core) (f : LsForm) (s : State) : Out :=
  .next (s.issueOp c.val (.ldH c f) (opLdH f))

/-- LDHU. -/
def execLdHu (c : Core) (f : LsForm) (s : State) : Out :=
  .next (s.issueOp c.val (.ldHu c f) (opLdHu f))

/-- LDB. -/
def execLdB (c : Core) (f : LsForm) (s : State) : Out :=
  .next (s.issueOp c.val (.ldB c f) (opLdB f))

/-- LDBU. -/
def execLdBu (c : Core) (f : LsForm) (s : State) : Out :=
  .next (s.issueOp c.val (.ldBu c f) (opLdBu f))

/-- STW. -/
def execStW (c : Core) (f : LsForm) (s : State) : Out :=
  .next (s.issueOp c.val (.stW c f) (opStW f))

/-- STH. -/
def execStH (c : Core) (f : LsForm) (s : State) : Out :=
  .next (s.issueOp c.val (.stH c f) (opStH f))

/-- STB. -/
def execStB (c : Core) (f : LsForm) (s : State) : Out :=
  .next (s.issueOp c.val (.stB c f) (opStB f))

/-- MOVP. -/
def execMovp (c : Core) (p : Fin 8) (imm : BitVec 18) (s : State) : Out :=
  .next (s.issueOp c.val (.movp c p imm) (opMovp c.val p imm))

/-- MOVM. -/
def execMovm (c : Core) (m : Fin 8) (imm : BitVec 18) (s : State) : Out :=
  .next (s.issueOp c.val (.movm c m imm) (opMovm c.val m imm))

/-- ADDP. -/
def execAddp (c : Core) (p m : Fin 8) (s : State) : Out :=
  .next (s.issueOp c.val (.addp c p m) (opAddp c.val p m))

/-- MTP. -/
def execMtp (c : Core) (p : Fin 8) (x : Fin 16) (s : State) : Out :=
  .next (s.issueOp c.val (.mtp c p x) (opMtp c.val p x))

/-- MFP. -/
def execMfp (c : Core) (p : Fin 8) (x : Fin 16) (s : State) : Out :=
  .next (s.issueOp c.val (.mfp c p x) (opMfp p x))

/-- MTM. -/
def execMtm (c : Core) (m : Fin 8) (x : Fin 16) (s : State) : Out :=
  .next (s.issueOp c.val (.mtm c m x) (opMtm c.val m x))

/-- MFM. -/
def execMfm (c : Core) (m : Fin 8) (x : Fin 16) (s : State) : Out :=
  .next (s.issueOp c.val (.mfm c m x) (opMfm m x))

/-- MFAL. -/
def execMfal (c : Core) (xd : Fin 16) (a : Fin 4) (s : State) : Out :=
  .next (s.issueOp c.val (.mfal c xd a) (opMfal xd a))

/-- MFAH. -/
def execMfah (c : Core) (xd : Fin 16) (a : Fin 4) (s : State) : Out :=
  .next (s.issueOp c.val (.mfah c xd a) (opMfah xd a))

/-- MFAG. -/
def execMfag (c : Core) (xd : Fin 16) (a : Fin 4) (s : State) : Out :=
  .next (s.issueOp c.val (.mfag c xd a) (opMfag xd a))

/-- MTAL. -/
def execMtal (c : Core) (a : Fin 4) (xs : Fin 16) (s : State) : Out :=
  .next (s.issueOp c.val (.mtal c a xs) (opMtal a xs))

/-- MTAH. -/
def execMtah (c : Core) (a : Fin 4) (xs : Fin 16) (s : State) : Out :=
  .next (s.issueOp c.val (.mtah c a xs) (opMtah a xs))

/-- MTAG. -/
def execMtag (c : Core) (a : Fin 4) (xs : Fin 16) (s : State) : Out :=
  .next (s.issueOp c.val (.mtag c a xs) (opMtag a xs))

/-- ASH. -/
def execAsh (c : Core) (a : Fin 4) (k : BitVec 7) (s : State) : Out :=
  .next (s.issueOp c.val (.ash c a k) (opAsh a k))

/-- ADDA. -/
def execAdda (c : Core) (a b : Fin 4) (s : State) : Out :=
  .next (s.issueOp c.val (.adda c a b) (opAdda a b))

/-- SUBA. -/
def execSuba (c : Core) (a b : Fin 4) (s : State) : Out :=
  .next (s.issueOp c.val (.suba c a b) (opSuba a b))

/-- MOVA. -/
def execMova (c : Core) (a b : Fin 4) (s : State) : Out :=
  .next (s.issueOp c.val (.mova c a b) (opMova a b))

/-- NEGA. -/
def execNega (c : Core) (a b : Fin 4) (s : State) : Out :=
  .next (s.issueOp c.val (.nega c a b) (opNega a b))

/-- EXPA. -/
def execExpa (c : Core) (xd : Fin 16) (a : Fin 4) (s : State) : Out :=
  .next (s.issueOp c.val (.expa c xd a) (opExpa xd a))

/-- LR. -/
def execLr (c : Core) (xd : Fin 16) (p : Fin 8) (s : State) : Out :=
  .next (s.issueOp c.val (.lr c xd p) (opLr xd p))

end Sys2Proof.Machine
end

