-- ==== Sys2Proof/Machine/FacetCode.lean ====
section
/-! DEFINITION. Facet instruction words (R251, R252, R256–R258, R260, R266–R271): the instruction that a word spells, and the
word of an instruction. The operations reach the machine as commands, which carry what a core has fetched; a word that spells
none is ILLEGAL_INSTRUCTION. -/

namespace Sys2Proof.Machine

-- register fields

def reg4 (x : Fin 16) : BitVec 4 := BitVec.ofFin x
def reg3 (x : Fin 8) : BitVec 3 := BitVec.ofFin x
def reg2 (x : Fin 4) : BitVec 2 := BitVec.ofFin x

/-- Fields of a word. -/
def at4 (w : Word) (k : Nat) : Fin 16 := (w.extractLsb' k 4).toFin
def at3 (w : Word) (k : Nat) : Fin 8 := (w.extractLsb' k 3).toFin
def at2 (w : Word) (k : Nat) : Fin 4 := (w.extractLsb' k 2).toFin

-- moves (R252)

/-- The modifier choice as its two bits. -/
def pmBits : PostMod → BitVec 2
  | .none => 0
  | .own => 1
  | .cross => 2

/-- A move field. -/
def moveBits : Option Move → BitVec 9
  | none => 0
  | some m => (if m.store then 2#2 else 1#2) ++ reg3 m.r ++ reg2 m.q ++ pmBits m.pm

/-- The modifier choice that two bits spell. -/
def pmOf (b : BitVec 2) : Option PostMod :=
  if b = 0 then some .none else if b = 1 then some .own else if b = 2 then some .cross else none

/-- A move field read: none where it is reserved. -/
def moveOf (f : BitVec 9) : Option (Option Move) :=
  let op := f.extractLsb' 7 2
  if op = 0 then (if f = 0 then some none else none)
  else if op = 3 then none
  else (pmOf (f.extractLsb' 0 2)).map fun pm =>
    some { store := op == 2, r := (f.extractLsb' 4 3).toFin, q := (f.extractLsb' 2 2).toFin, pm := pm }

-- forms

/-- Code and form of the operations 0x01–0x0E (R257). -/
def aluPart : Instr → Option (Nat × AluForm)
  | .add _ f => some (0x01, f)
  | .sub _ f => some (0x02, f)
  | .adds _ f => some (0x03, f)
  | .subs _ f => some (0x04, f)
  | .add2 _ f => some (0x05, f)
  | .sub2 _ f => some (0x06, f)
  | .add2s _ f => some (0x07, f)
  | .and _ f => some (0x08, f)
  | .or _ f => some (0x09, f)
  | .xor _ f => some (0x0A, f)
  | .mov _ f => some (0x0B, f)
  | .abs _ f => some (0x0C, f)
  | .max _ f => some (0x0D, f)
  | .min _ f => some (0x0E, f)
  | _ => none

/-- The instruction of an operation 0x01–0x0E. -/
def aluInstr (c : Core) (op : Nat) (f : AluForm) : Option Instr :=
  match op with
  | 0x01 => some (.add c f)
  | 0x02 => some (.sub c f)
  | 0x03 => some (.adds c f)
  | 0x04 => some (.subs c f)
  | 0x05 => some (.add2 c f)
  | 0x06 => some (.sub2 c f)
  | 0x07 => some (.add2s c f)
  | 0x08 => some (.and c f)
  | 0x09 => some (.or c f)
  | 0x0A => some (.xor c f)
  | 0x0B => some (.mov c f)
  | 0x0C => some (.abs c f)
  | 0x0D => some (.max c f)
  | 0x0E => some (.min c f)
  | _ => none

/-- Code and form of the accumulator operations 0x10–0x1D (R257, R260). -/
def accPart : Instr → Option (Nat × AccForm)
  | .clr _ f => some (0x10, f)
  | .mul _ f => some (0x11, f)
  | .mac _ f => some (0x12, f)
  | .msu _ f => some (0x13, f)
  | .mac2 _ f => some (0x14, f)
  | .msu2 _ f => some (0x15, f)
  | .macl _ f => some (0x16, f)
  | .msul _ f => some (0x17, f)
  | .exth _ f => some (0x18, f)
  | .extw _ f => some (0x19, f)
  | .pkn _ f => some (0x1A, f)
  | .pknx _ f => some (0x1B, f)
  | .maxi _ f => some (0x1C, f)
  | .mini _ f => some (0x1D, f)
  | _ => none

/-- The instruction of an accumulator operation. -/
def accInstr (c : Core) (op : Nat) (f : AccForm) : Option Instr :=
  match op with
  | 0x10 => some (.clr c f)
  | 0x11 => some (.mul c f)
  | 0x12 => some (.mac c f)
  | 0x13 => some (.msu c f)
  | 0x14 => some (.mac2 c f)
  | 0x15 => some (.msu2 c f)
  | 0x16 => some (.macl c f)
  | 0x17 => some (.msul c f)
  | 0x18 => some (.exth c f)
  | 0x19 => some (.extw c f)
  | 0x1A => some (.pkn c f)
  | 0x1B => some (.pknx c f)
  | 0x1C => some (.maxi c f)
  | 0x1D => some (.mini c f)
  | _ => none

/-- Whether an accumulator operation names its first and its second register (R257). -/
def accNames (op : Nat) : Bool × Bool :=
  if op = 0x10 then (false, false)
  else if op = 0x18 ∨ op = 0x19 ∨ op = 0x1A ∨ op = 0x1C ∨ op = 0x1D then (true, false)
  else (true, true)

/-- The ALUI codes that are accepted (R258), shifts and CMP apart. -/
def aluImm (op : Nat) : Bool := decide (1 ≤ op ∧ op ≤ 4) || decide (8 ≤ op ∧ op ≤ 0x0A)

-- words written

/-- An ALU3 word. -/
def alu3Word (op : Nat) (xd xs xt : Fin 16) : Word :=
  0#5 ++ BitVec.ofNat 5 op ++ reg4 xd ++ reg4 xs ++ reg4 xt ++ 0#10

/-- An ALUI word. -/
def aluiWord (op : Nat) (xd xs : Fin 16) (imm : BitVec 14) : Word := 1#5 ++ BitVec.ofNat 5 op ++ reg4 xd ++ reg4 xs ++ imm

/-- A parallel word. -/
def parWord (cop : Nat) (a : Fin 4) (ua ub : Fin 8) (mv : Moves) : Word :=
  1#1 ++ BitVec.ofNat 5 cop ++ reg2 a ++ reg3 ua ++ reg3 ub ++ moveBits mv.m0 ++ moveBits mv.m1

/-- An ACC word. -/
def accWord (op : Nat) (a : Fin 4) (xa xb : Fin 16) (b : Fin 4) (imm : BitVec 7) : Word :=
  5#5 ++ BitVec.ofNat 5 op ++ reg2 a ++ reg4 xa ++ reg4 xb ++ reg2 b ++ 0#3 ++ imm

/-- An LDST word. -/
def ldstWord (kind : BitVec 3) (f : LsForm) : Word :=
  3#5 ++ kind ++ reg4 f.xr ++ reg3 f.p ++ BitVec.ofBool f.pm ++ reg3 f.m ++ 0#13

/-- A SYS word. -/
def sysWord (op : BitVec 5) (xd xs : Fin 16) (cr : BitVec 6) : Word := 8#5 ++ op ++ reg4 xd ++ reg4 xs ++ 0#8 ++ cr

/-- A PTR word: MOVP and MOVM. -/
def ptrImm (op : BitVec 2) (k : Fin 8) (imm : BitVec 18) : Word := 4#5 ++ op ++ reg3 k ++ 0#4 ++ imm

/-- A PTR word: XFER. -/
def ptrXfer (sub : BitVec 2) (k : Fin 8) (x : Fin 16) : Word := 4#5 ++ 3#2 ++ sub ++ reg3 k ++ reg4 x ++ 0#16

/-- The word of an operation 0x01–0x0E in a form; none where the form is not accepted (R257, R258). -/
def aluWord (op : Nat) : AluForm → Option Word
  | .par ua ub mv => some (parWord op 0 ua ub mv)
  | .alu3 xd xs xt => if (op = 0x0B ∨ op = 0x0C) ∧ xt ≠ 0 then none else some (alu3Word op xd xs xt)
  | .alui xd xs k => if aluImm op then some (aluiWord op xd xs k) else none

/-- The word of an accumulator operation in a form; a register that it does not name must be 0. -/
def accFormWord (op : Nat) : AccForm → Option Word
  | .par a ua ub mv =>
    if (!(accNames op).1 && ua != 0) || (!(accNames op).2 && ub != 0) then none else some (parWord op a ua ub mv)
  | .full a xa xb =>
    if (!(accNames op).1 && xa != 0) || (!(accNames op).2 && xb != 0) then none else some (accWord op a xa xb 0 0)

/-- The word of a shift (R258). -/
def shiftWord (op : Nat) : ShForm → Option Word
  | .alu3 xd xs xt => some (alu3Word op xd xs xt)
  | .alui xd xs k => if k.extractLsb' 6 8 = 0 then some (aluiWord op xd xs k) else none

/-- The word of CMP (R258). -/
def cmpWord : ShForm → Option Word
  | .alu3 xd xs xt => if xd = 0 then some (alu3Word 0x13 xd xs xt) else none
  | .alui xd xs k => if xd = 0 then some (aluiWord 0x13 xd xs k) else none

/-- The word of a Facet instruction; none for any other command, and for a form that no word spells. -/
def facetWord (i : Instr) : Option Word :=
  match aluPart i, accPart i with
  | some (op, f), _ => aluWord op f
  | _, some (op, f) => accFormWord op f
  | none, none =>
    match i with
    | .nop _ mv => some (parWord 0 0 0 0 mv)
    | .shl _ f => shiftWord 0x10 f
    | .shr _ f => shiftWord 0x11 f
    | .asr _ f => shiftWord 0x12 f
    | .cmp _ f => cmpWord f
    | .norm _ xd xs => some (alu3Word 0x14 xd xs 0)
    | .expn _ xd xs => some (alu3Word 0x15 xd xs 0)
    | .mulw _ xd xs xt => some (alu3Word 0x16 xd xs xt)
    | .movi _ h xd imm => some (2#5 ++ BitVec.ofBool h ++ reg4 xd ++ 0#6 ++ imm)
    | .ldW _ f => some (ldstWord 0 f)
    | .ldH _ f => some (ldstWord 1 f)
    | .ldHu _ f => some (ldstWord 2 f)
    | .ldB _ f => some (ldstWord 3 f)
    | .ldBu _ f => some (ldstWord 4 f)
    | .stW _ f => some (ldstWord 5 f)
    | .stH _ f => some (ldstWord 6 f)
    | .stB _ f => some (ldstWord 7 f)
    | .movp _ p imm => some (ptrImm 0 p imm)
    | .movm _ m imm => some (ptrImm 1 m imm)
    | .addp _ p m => some (4#5 ++ 2#2 ++ reg3 p ++ reg3 m ++ 0#19)
    | .mtp _ p x => some (ptrXfer 0 p x)
    | .mfp _ p x => some (ptrXfer 1 p x)
    | .mtm _ m x => some (ptrXfer 2 m x)
    | .mfm _ m x => some (ptrXfer 3 m x)
    | .mfal _ xd a => some (accWord 1 a xd 0 0 0)
    | .mfah _ xd a => some (accWord 2 a xd 0 0 0)
    | .mfag _ xd a => some (accWord 3 a xd 0 0 0)
    | .mtal _ a xs => some (accWord 4 a xs 0 0 0)
    | .mtah _ a xs => some (accWord 5 a xs 0 0 0)
    | .mtag _ a xs => some (accWord 6 a xs 0 0 0)
    | .ash _ a k => some (accWord 7 a 0 0 0 k)
    | .adda _ a b => some (accWord 8 a 0 0 b 0)
    | .suba _ a b => some (accWord 9 a 0 0 b 0)
    | .mova _ a b => some (accWord 0x0A a 0 0 b 0)
    | .nega _ a b => some (accWord 0x0B a 0 0 b 0)
    | .expa _ xd a => some (accWord 0x0C a xd 0 0 0)
    | .exts _ xd a k => if k.extractLsb' 6 1 = 0 then some (accWord 0x0D a xd 0 0 k) else none
    | .br _ cond disp => if cond = 0xF then none else some (6#5 ++ cond ++ disp)
    | .call _ disp => some (6#5 ++ 0xF#4 ++ disp)
    | .rep _ (.imm n) e => some (7#5 ++ 0#1 ++ n ++ e)
    | .rep _ (.reg xs) e => some (7#5 ++ 1#1 ++ 0#10 ++ reg4 xs ++ e)
    | .sysNop _ => some (sysWord 0 0 0 0)
    | .end_ _ => some (sysWord 1 0 0 0)
    | .fence _ => some (sysWord 2 0 0 0)
    | .break_ _ => some (sysWord 3 0 0 0)
    | .jr _ xs => some (sysWord 4 0 xs 0)
    | .mfc _ xd cr => some (sysWord 5 xd 0 cr)
    | .mtc _ cr xs => some (sysWord 6 0 xs cr)
    | .rete _ => some (sysWord 0x10 0 0 0)
    | .wfi _ => some (sysWord 0x11 0 0 0)
    | .ien _ => some (sysWord 0x12 0 0 0)
    | .idis _ => some (sysWord 0x13 0 0 0)
    | .lr _ xd p => some (9#5 ++ 0#1 ++ reg4 xd ++ 0#4 ++ reg3 p ++ 0#15)
    | .sc _ xd xs p => some (9#5 ++ 1#1 ++ reg4 xd ++ reg4 xs ++ reg3 p ++ 0#15)
    | _ => none

-- words read

/-- A parallel word (R252, R257). -/
def parDecode (c : Core) (w : Word) : Option Instr :=
  let cop := (w.extractLsb' 26 5).toNat
  let a := at2 w 24
  let ua := at3 w 21
  let ub := at3 w 18
  match moveOf (w.extractLsb' 9 9), moveOf (w.extractLsb' 0 9) with
  | some m0, some m1 =>
    let mv : Moves := { m0 := m0, m1 := m1 }
    if cop = 0 then (if a = 0 ∧ ua = 0 ∧ ub = 0 then some (.nop c mv) else none)
    else if cop < 0x10 then (if a = 0 then aluInstr c cop (.par ua ub mv) else none)
    else if (!(accNames cop).1 && ua != 0) || (!(accNames cop).2 && ub != 0) then none
    else accInstr c cop (.par a ua ub mv)
  | _, _ => none

/-- An ALU3 word (R258). -/
def alu3Decode (c : Core) (w : Word) : Option Instr :=
  let op := (w.extractLsb' 22 5).toNat
  let xd := at4 w 18
  let xs := at4 w 14
  let xt := at4 w 10
  if w.extractLsb' 0 10 ≠ 0 then none
  else match op with
    | 0x10 => some (.shl c (.alu3 xd xs xt))
    | 0x11 => some (.shr c (.alu3 xd xs xt))
    | 0x12 => some (.asr c (.alu3 xd xs xt))
    | 0x13 => if xd = 0 then some (.cmp c (.alu3 xd xs xt)) else none
    | 0x14 => if xt = 0 then some (.norm c xd xs) else none
    | 0x15 => if xt = 0 then some (.expn c xd xs) else none
    | 0x16 => some (.mulw c xd xs xt)
    | op => if (op = 0x0B ∨ op = 0x0C) ∧ xt ≠ 0 then none else aluInstr c op (.alu3 xd xs xt)

/-- An ALUI word (R258). -/
def aluiDecode (c : Core) (w : Word) : Option Instr :=
  let op := (w.extractLsb' 22 5).toNat
  let xd := at4 w 18
  let xs := at4 w 14
  let k := w.extractLsb' 0 14
  let shift (i : Instr) : Option Instr := if k.extractLsb' 6 8 = 0 then some i else none
  match op with
  | 0x10 => shift (.shl c (.alui xd xs k))
  | 0x11 => shift (.shr c (.alui xd xs k))
  | 0x12 => shift (.asr c (.alui xd xs k))
  | 0x13 => if xd = 0 then some (.cmp c (.alui xd xs k)) else none
  | op => if aluImm op then aluInstr c op (.alui xd xs k) else none

/-- An LDST word (R266). -/
def ldstDecode (c : Core) (w : Word) : Option Instr :=
  let f : LsForm := { xr := at4 w 20, p := at3 w 17, pm := w.getLsbD 16, m := at3 w 13 }
  if w.extractLsb' 0 13 ≠ 0 then none
  else match (w.extractLsb' 24 3).toNat with
    | 0 => some (.ldW c f)
    | 1 => some (.ldH c f)
    | 2 => some (.ldHu c f)
    | 3 => some (.ldB c f)
    | 4 => some (.ldBu c f)
    | 5 => some (.stW c f)
    | 6 => some (.stH c f)
    | _ => some (.stB c f)

/-- A PTR word (R268). -/
def ptrDecode (c : Core) (w : Word) : Option Instr :=
  let k := at3 w 22
  let imm := w.extractLsb' 0 18
  match (w.extractLsb' 25 2).toNat with
  | 0 => if w.extractLsb' 18 4 = 0 then some (.movp c k imm) else none
  | 1 => if w.extractLsb' 18 4 = 0 then some (.movm c k imm) else none
  | 2 => if w.extractLsb' 0 19 = 0 then some (.addp c k (at3 w 19)) else none
  | _ =>
    if w.extractLsb' 0 16 ≠ 0 then none
    else match (w.extractLsb' 23 2).toNat with
      | 0 => some (.mtp c (at3 w 20) (at4 w 16))
      | 1 => some (.mfp c (at3 w 20) (at4 w 16))
      | 2 => some (.mtm c (at3 w 20) (at4 w 16))
      | _ => some (.mfm c (at3 w 20) (at4 w 16))

/-- An ACC word (R260). -/
def accDecode (c : Core) (w : Word) : Option Instr :=
  let op := (w.extractLsb' 22 5).toNat
  let a := at2 w 20
  let xa := at4 w 16
  let xb := at4 w 12
  let b := at2 w 10
  let k := w.extractLsb' 0 7
  let one (i : Instr) : Option Instr := if xb = 0 ∧ b = 0 ∧ k = 0 then some i else none
  let two (i : Instr) : Option Instr := if xa = 0 ∧ xb = 0 ∧ k = 0 then some i else none
  if w.extractLsb' 7 3 ≠ 0 then none
  else match op with
    | 0x01 => one (.mfal c xa a)
    | 0x02 => one (.mfah c xa a)
    | 0x03 => one (.mfag c xa a)
    | 0x04 => one (.mtal c a xa)
    | 0x05 => one (.mtah c a xa)
    | 0x06 => one (.mtag c a xa)
    | 0x07 => if xa = 0 ∧ xb = 0 ∧ b = 0 then some (.ash c a k) else none
    | 0x08 => two (.adda c a b)
    | 0x09 => two (.suba c a b)
    | 0x0A => two (.mova c a b)
    | 0x0B => two (.nega c a b)
    | 0x0C => one (.expa c xa a)
    | 0x0D => if xb = 0 ∧ b = 0 ∧ k.extractLsb' 6 1 = 0 then some (.exts c xa a k) else none
    | op =>
      if b ≠ 0 ∨ k ≠ 0 ∨ ((!(accNames op).1 && xa != 0) || (!(accNames op).2 && xb != 0)) then none
      else accInstr c op (.full a xa xb)

/-- A SYS word (R271): a field that an operation does not name is 0. -/
def sysDecode (c : Core) (w : Word) : Option Instr :=
  let xd := at4 w 18
  let xs := at4 w 14
  let cr := w.extractLsb' 0 6
  let zero (i : Instr) : Option Instr := if xd = 0 ∧ xs = 0 ∧ cr = 0 then some i else none
  if w.extractLsb' 6 8 ≠ 0 then none
  else match (w.extractLsb' 22 5).toNat with
    | 0x00 => zero (.sysNop c)
    | 0x01 => zero (.end_ c)
    | 0x02 => zero (.fence c)
    | 0x03 => zero (.break_ c)
    | 0x04 => if xd = 0 ∧ cr = 0 then some (.jr c xs) else none
    | 0x05 => if xs = 0 then some (.mfc c xd cr) else none
    | 0x06 => if xd = 0 then some (.mtc c cr xs) else none
    | 0x10 => zero (.rete c)
    | 0x11 => zero (.wfi c)
    | 0x12 => zero (.ien c)
    | 0x13 => zero (.idis c)
    | _ => none

/-- The instruction that a word spells on a core; none raises ILLEGAL (R251). -/
def facetDecode (c : Core) (w : Word) : Option Instr :=
  if w.getLsbD 31 then parDecode c w
  else match (w.extractLsb' 27 4).toNat with
    | 0 => alu3Decode c w
    | 1 => aluiDecode c w
    | 2 => if w.extractLsb' 16 6 = 0 then some (.movi c (w.getLsbD 26) (at4 w 22) (w.extractLsb' 0 16)) else none
    | 3 => ldstDecode c w
    | 4 => ptrDecode c w
    | 5 => accDecode c w
    | 6 =>
      if w.extractLsb' 23 4 = 0xF then some (.call c (w.extractLsb' 0 23))
      else some (.br c (w.extractLsb' 23 4) (w.extractLsb' 0 23))
    | 7 =>
      if w.getLsbD 26 = false then some (.rep c (.imm (w.extractLsb' 12 14)) (w.extractLsb' 0 12))
      else if w.extractLsb' 16 10 = 0 then some (.rep c (.reg (at4 w 12)) (w.extractLsb' 0 12))
      else none
    | 8 => sysDecode c w
    | 9 =>
      if w.extractLsb' 0 15 ≠ 0 then none
      else if w.getLsbD 26 then some (.sc c (at4 w 22) (at4 w 18) (at3 w 15))
      else if at4 w 18 = 0 then some (.lr c (at4 w 22) (at3 w 15)) else none
    | _ => none

end Sys2Proof.Machine
end

