-- ==== Sys2Proof/Machine/FacetFlow.lean ====
section
/-! DEFINITION. Facet flow and system instructions, SC, and words that are no instruction (R220, R222, R251, R267,
R269–R272). -/

namespace Sys2Proof.Machine

-- flow (R220, R269, R270)

/-- The target of a branch: its own offset + 4 × disp. -/
def branchTarget (pc : Word) (disp : BitVec 23) : Word := pc + disp.signExtend 32 * 4

/-- A target that raises FETCH at the branch (R269): outside 0–16,380 on a Facet. -/
def badTarget (c : Nat) (pc : Word) (disp : BitVec 23) : Bool :=
  c != lampCore && decide ((pc.toNat : Int) + 4 * disp.toInt < 0 ∨ 16380 < (pc.toNat : Int) + 4 * disp.toInt)

/-- A branch that is taken goes to its target; cost 2 further cycles (R269, R275). -/
def State.branchOp (s : State) (c : Nat) (i : Instr) (take link : Bool) (disp : BitVec 23) : State :=
  s.issue c i [] fun s =>
    let q := s.core c
    if take = false then s.setCore c (q.leave i [] q.time.issued).retire
    else if badTarget c q.pc disp then s.raiseExc c 9 0 none
    else
      let b := (q.leave i [] q.time.issued).branchTo (branchTarget q.pc disp)
      (s.setCore c (if link then b.setX 15 (q.pc + 4) else b)).charge c 2

/-- BR, and CALL as its condition 0xF (R256, R269). -/
def execBr (c : Core) (cond : BitVec 4) (disp : BitVec 23) (s : State) : Out :=
  .next (s.branchOp c.val (.br c cond disp) (taken (s.core c.val).fl cond) (cond == 0xF) disp)

/-- CALL: x15 := its own offset + 4 (R256, R269). -/
def execCall (c : Core) (disp : BitVec 23) (s : State) : Out := .next (s.branchOp c.val (.call c disp) true true disp)

/-- JR (R269). -/
def execJr (c : Core) (xs : Fin 16) (s : State) : Out :=
  .next (s.issueFlow c.val (.jr c xs) (fun q =>
    let t := pcWidth c.val (q.getX xs)
    if t.toNat % 4 ≠ 0 then .error 9 else .ok (q.branchTo t)) 2)

/-- REP (R220, R270). -/
def CoreSt.repeatBlock (q : CoreSt) (c : Nat) (count : Word) (e : Nat) : Except Nat CoreSt :=
  let start := q.pc.toNat + 4
  let fin := q.pc.toNat + 4 * e
  let outer := q.susp < q.ld
  if q.ld = 4 ∨ fin < start ∨ (outer ∧ (level q.le (q.ld - 1)).toNat < fin) then .error 6
  else if count = 0 then .ok { q with pc := BitVec.ofNat 32 (fin + 4) }
  else
    let ld := q.ld
    .ok ({ q with
      lc := setLevel q.lc ld count,
      ls := setLevel q.ls ld (pcWidth c (BitVec.ofNat 32 start)),
      le := setLevel q.le ld (pcWidth c (BitVec.ofNat 32 fin)),
      pc := q.pc + 4 }.setLd (ld + 1))

/-- REP (R220, R270). -/
def execRep (c : Core) (count : RepCount) (e : BitVec 12) (s : State) : Out :=
  .next (s.issueFlow c.val (.rep c count e) (fun q =>
    let n : Word := match count with
      | .imm n => n.setWidth 32
      | .reg xs => q.getX xs
    q.repeatBlock c.val n e.toNat) 0)

-- system (R271, R272)

/-- SYS NOP. -/
def execSysNop (c : Core) (s : State) : Out := .next (s.issueFlow c.val (.sysNop c) (fun q => .ok q.retire) 0)

/-- END (R235, R271): on the Lamp, ILLEGAL. -/
def execEnd (c : Core) (s : State) : Out :=
  .next (s.issueFlow c.val (.end_ c) (fun q =>
    if c.val = lampCore then .error 1 else .ok { q.retire with ending := true }) 0)

/-- FENCE (R271). -/
def execFence (c : Core) (s : State) : Out :=
  .next (s.issueFlow c.val (.fence c) (fun q => .ok { q.retire with fencing := true }) 0)

/-- BREAK (R232, R271, R520, R521): with bk_halt, at level FULL, the core halts with PC at the BREAK, and its group with it;
otherwise the exception. -/
def execBreak (c : Core) (s : State) : Out :=
  .next (s.issue c.val (.break_ c) [] fun s =>
    let q := s.core c.val
    if q.dbg.bkHalt && s.dbg.level == 2 then
      let s := s.haltCore c.val 3
      if q.dbg.groupEn then s.haltGroup q.dbg.group.toNat else s
    else s.raiseExc c.val 7 0 none)

/-- MFC (R211, R271, R272). -/
def execMfc (c : Core) (xd : Fin 16) (cr : BitVec 6) (s : State) : Out :=
  .next (s.issueFlow c.val (.mfc c xd cr) (fun q =>
    if q.crOk c.val cr.toNat then .ok (q.setX xd (q.crRead c.val cr.toNat)).retire else .error 1) 0)

/-- MTC (R211, R222, R227, R228, R271, R272, R275): the next instruction issues 4 cycles after it. -/
def execMtc (c : Core) (cr : BitVec 6) (xs : Fin 16) (s : State) : Out :=
  .next (s.issue c.val (.mtc c cr xs) [] fun s =>
    let q := s.core c.val
    if q.crOk c.val cr.toNat = false then s.raiseExc c.val 1 0 none
    else
      let v := q.getX xs
      let s := if cr = 0x23 then s.dctl c.val v else s.setCore c.val (q.crWrite c.val cr.toNat v)
      (s.setCore c.val (s.core c.val).retire).charge c.val 3)

/-- A privileged instruction: ILLEGAL on a Facet and on the Lamp in mode T (R242, R271). -/
def privileged (c : Nat) (f : CoreSt → CoreSt) (q : CoreSt) : Except Nat CoreSt :=
  if q.isS c then .ok (f q) else .error 1

/-- RETE (R242, R243, R271). -/
def execRete (c : Core) (s : State) : Out :=
  .next (s.issueFlow c.val (.rete c) (privileged c.val fun q =>
    { q with pc := q.epc, st := q.est, suspended := q.suspended.drop 1 }) 0)

/-- WFI (R271). -/
def execWfi (c : Core) (s : State) : Out :=
  .next (s.issueFlow c.val (.wfi c) (privileged c.val fun q => { q.retire with wfi := true }) 0)

/-- IEN (R271). -/
def execIen (c : Core) (s : State) : Out :=
  .next (s.issueFlow c.val (.ien c) (privileged c.val fun q => { q.retire with st := setBit q.retire.st 5 true }) 0)

/-- IDIS (R271). -/
def execIdis (c : Core) (s : State) : Out :=
  .next (s.issueFlow c.val (.idis c) (privileged c.val fun q => { q.retire with st := setBit q.retire.st 5 false }) 0)

-- SC (R267)

/-- An SC that is over: xd tells how, and the reservation is cleared. -/
def CoreSt.scOver (q : CoreSt) (i : Instr) (xd : Fin 16) (w : Word) : CoreSt :=
  let q := { q with resv := none, wait := none, passed := 0, got := [] }
  ((q.setX xd w).leave i [] q.time.clock).retire

/-- SC: held for the line at the address, it stores and xd := 0, else xd := 1; the reservation is cleared. A remote SC waits
for its response, its store last among the core's. -/
def State.scOp (s : State) (c : Nat) (i : Instr) (xd xs : Fin 16) (p : Fin 8) : State :=
  let q := s.core c
  let a := (q.getP p).toNat
  let m : MoveOp := { store := true, xr := xs, p := p }
  match q.target c a true with
  | .here a =>
    if q.resv = some (.near (a / 64)) then (s.setCore c (q.scOver i xd 0)).putStores c q [m]
    else s.setCore c (q.scOver i xd 1)
  | .remote dev =>
    if q.resv = some (.remote (dev / 64)) then
      if q.stores.length < 8 then
        let st := s.tagStore q { addr := BitVec.ofNat 48 dev, bytes := q.moveData m, sc := true }
        s.setCore c { q with stores := q.stores ++ [st], wait := some i }
      else s.setCore c { q with wait := some i }
    else s.setCore c (q.scOver i xd 1)
  | _ => s

/-- SC (R267). -/
def execSc (c : Core) (xd xs : Fin 16) (p : Fin 8) (s : State) : Out :=
  let m : MoveOp := { store := true, xr := xs, p := p }
  .next (s.issue c.val (.sc c xd xs p) [] fun s =>
    match s.moveExc c.val true m with
    | (some k, s) => s.raiseExc c.val k 0 (some ((s.core c.val).getP p))
    | (none, s) => s.atBanks c.val [m] fun s => s.scOp c.val (.sc c xd xs p) xd xs p)

-- words that are no instruction (R251)

/-- ILLEGAL_INSTRUCTION (R251): a fetched word that is no instruction raises ILLEGAL. Like NOP it uses nothing. -/
def execIllegalInstruction (c : Core) (w : Word) (s : State) : Out :=
  .next (if (facetDecode c w).isSome then s else s.issueFlow c.val (.sysNop c) (fun _ => .error 1) 0)

end Sys2Proof.Machine
end

