-- ==== Sys2Proof/Machine/Pane.lean ====
section
/-! DEFINITION. Pane RAM (11_fabric, R310–R313): stored words and their check, narrow writes, accesses that meet on a word, and
the FIFO mode. -/

namespace Sys2Proof.Machine

-- Pane RAM (R310–R313)

/-- A Pane RAM record and its counter (R311). -/
def State.paneFault (s : State) (d block word cls : Nat) (inj : Bool) : State :=
  let a := block + 8192 * word
  (s.count (cn 8 cls) d 0 1).offer (.die d) 8 d cls (Config.detCode 8 cls) (Config.syndrome 8 cls a) (BitVec.ofNat 48 a) inj

/-- A stored Pane RAM word: as last written, else the image's initial contents, whose place in the frames the manual does
not give (R313; log entry 1). -/
def State.paneWord (s : State) (d block word : Nat) : BitVec 39 :=
  let f := s.fab d
  match Tbl.get none f.pane (paneKey block word), Tbl.get none f.paneFrom (paneOver block), Tbl.get none f.paneFrom (paneQuad block) with
  | some w, _, _ => w
  | none, some b, _ => (Config.freeValue 32 (b + word)).setWidth 39
  | none, none, some b => (Config.freeValue 32 (b + paneKey (block % 480) word)).setWidth 39
  | none, none, none => 0

/-- A checked read (R311): the word and whether it was in error. -/
inductive PaneRes where
  | good (w : BitVec 39) (ce : Bool)
  | bad (w : BitVec 39)
  deriving DecidableEq, Repr

/-- A word is read through its check, with n further bits found in error. -/
def State.paneCheck (s : State) (d block word n : Nat) : PaneRes × State :=
  let f := s.fab d
  let k := paneKey block word
  let e := Tbl.get 0 f.paneErr k
  let inj := decide (64 ≤ e)
  let w := s.paneWord d block word
  match e % 64 + n with
  | 0 => (.good w false, s)
  | 1 =>
    let clean := Config.paneWriteback s.cfg.imgId (Fin.ofNat 4 d) block
    let f := if clean then { f with paneErr := Tbl.set 0 f.paneErr k 0 }
      else { f with paneErr := Tbl.set 0 f.paneErr k (1 + (if inj then 64 else 0)) }
    (.good w true, (s.setFab d f).paneFault d block word 0 inj)
  | 2 =>
    let (x, s) := s.free 39
    (.bad x, s.paneFault d block word 1 inj)
  | _ =>
    -- beyond what the code is sure to find
    let (x, s) := s.free 39
    let (b, s) := s.free 1
    if b = 1 then (.bad x, s.paneFault d block word 1 inj) else (.good x false, s)

/-- A word is stored, with an injection's pattern on it (R499). -/
def State.paneStore (s : State) (d block word : Nat) (w : BitVec 39) (raw : Bool) : State :=
  let k := paneKey block word
  let (p, s) := s.inject 8 d (block + 8192 * word)
  let x := p.getD 0 % 2 ^ 39
  let n := popCount x 39
  let f := s.fab d
  s.setFab d { f with
    pane := Tbl.set none f.pane k (some (if raw then w ^^^ BitVec.ofNat 39 x else w)),
    paneErr := Tbl.set 0 f.paneErr k (if raw || n == 0 then 0 else n + 64) }

/-- The bytes of a word that a mask enables are replaced. -/
def paneMerge (old new : BitVec 39) (mask : BitVec 4) : BitVec 39 :=
  let byte (i : Nat) : Nat := fld (if bitOf mask i then new else old) (8 * i) 8
  BitVec.ofNat 39 (byte 0 + 256 * byte 1 + 65536 * byte 2 + 16777216 * byte 3)

/-- A port of a block shows a word, and whether it was found in error; it holds the word until it reads again. -/
def State.paneShow (s : State) (d block : Nat) (port : Bool) (w : BitVec 39) (ce ue : Bool) : State :=
  let f := s.fab d
  (s.setFab d { f with paneOut := Tbl.set 0 f.paneOut (2 * block + b2n port) w }).emit
    (.pane (Fin.ofNat 4 d) block port w ce ue)

/-- The 32 data bits of a word outside RAW mode. -/
def paneData (w : BitVec 39) (raw : Bool) : BitVec 39 := if raw then w else (w.setWidth 32).setWidth 39

/-- A read at a port (R311), with n further bits found in error; RAW mode finds none. -/
def State.paneReads (s : State) (d block word n : Nat) (raw port : Bool) : State :=
  if raw then s.paneShow d block port (s.paneWord d block word) false false
  else match s.paneCheck d block word n with
    | (.good w ce, s) => s.paneShow d block port (paneData w false) ce false
    | (.bad w, s) => s.paneShow d block port (paneData w false) false true

/-- A write at a port (R310, R311): a narrow one merges through the check, and is not performed where that finds two bits in
error; in RAW mode 39 bits are stored as they are. -/
def State.paneWrites (s : State) (d block word : Nat) (mask : BitVec 4) (data : BitVec 39) (n : Nat) (raw port : Bool) : State :=
  if raw then s.paneStore d block word data true
  else if mask = 0xF then s.paneStore d block word (paneData data false) false
  else match s.paneCheck d block word n with
    | (.good w _, s) => s.paneStore d block word (paneMerge w data mask) false
    | (.bad _, s) => s.emit (.pane (Fin.ofNat 4 d) block port (Tbl.get 0 (s.fab d).paneOut (2 * block + b2n port)) false true)

/-- A read that a write of the same word meets in its cycle (R312). -/
def State.paneMeets (s : State) (d block word n : Nat) (raw port : Bool) (meet : PaneMeet) : State :=
  match meet with
  | .none => s.paneReads d block word n raw port
  | .same .writeFirst mask data =>
    let s := s.paneWrites d block word mask data n raw port
    s.paneShow d block port (paneData (if raw then data else s.paneWord d block word) raw) false false
  | .same .readFirst mask data => (s.paneReads d block word n raw port).paneWrites d block word mask data n raw port
  | .same .noChange mask data =>
    let s := s.paneWrites d block word mask data n raw port
    s.paneShow d block port (Tbl.get 0 (s.fab d).paneOut (2 * block + b2n port)) false false
  | .other mask data => (s.paneReads d block word n raw port).paneWrites d block word mask data n raw (!port)
  | .clocks mask data =>
    let old := s.paneWord d block word
    let (f, s) := s.free 1
    let s := s.paneWrites d block word mask data n raw (!port)
    s.paneShow d block port (paneData (if f = 1 then s.paneWord d block word else old) raw) false false

/-- Read pointer and number of words of a block in FIFO mode (R310). -/
def State.paneLevel (s : State) (d block : Nat) : Nat × Nat := Tbl.get (0, 0) (s.fab d).paneFifo block

/-- A block's FIFO pointers move, and its flags show it (R310). -/
def State.paneMoves (s : State) (d block rd n : Nat) : State :=
  let f := s.fab d
  let (hi, lo) := Config.fifoMarks s.cfg.imgId (Fin.ofNat 4 d) block
  (s.setFab d { f with paneFifo := Tbl.set (0, 0) f.paneFifo block (rd, n) }).emit
    (.paneFlags (Fin.ofNat 4 d) block (n == 2048) (n == 0) (decide (hi ≤ n)) (decide (n ≤ lo)))

/-- The block's quadrant is on. -/
def State.paneOn (s : State) (d block : Nat) : Bool := s.on (domDie d (paneQuad block))

/-- PANE_READ (R310–R312): a read of a word at port A or B, and the write that it meets there; in FIFO mode the oldest word
leaves, and an empty FIFO gives none. -/
def execPaneRead (die : Die) (block : Fin 1920) (word : Fin 2048) (use : PaneUse) (meet : PaneMeet)
    (s : State) : Out :=
  let d := die.val
  let b := block.val
  .next (if s.paneOn d b then
    match use.mode with
    | .checked => s.paneMeets d b word.val use.bitErrs false use.port meet
    | .raw => s.paneMeets d b word.val use.bitErrs true use.port meet
    | .fifo =>
      let (rd, n) := s.paneLevel d b
      if n = 0 then s else (s.paneReads d b rd use.bitErrs false true).paneMoves d b ((rd + 1) % 2048) (n - 1)
  else s)

/-- PANE_WRITE (R310–R312): a write of a word at port A or B, or at A with one of port B that it meets on the word; in FIFO
mode the word is put last, and a full FIFO takes none. -/
def execPaneWrite (die : Die) (block : Fin 1920) (word : Fin 2048) (mask : BitVec 4) (data : BitVec 39) (use : PaneUse)
    (clash : PaneClash) (s : State) : Out :=
  let d := die.val
  let b := block.val
  let both (raw : Bool) : State :=
    match clash with
    | .none => s.paneWrites d b word.val mask data use.bitErrs raw use.port
    | .oneClock mb db => s.paneWrites d b word.val mb db use.bitErrs raw true
    | .twoClocks mb db =>
      let (f, s) := s.free 1
      if f = 1 then s.paneWrites d b word.val mb db use.bitErrs raw true
      else s.paneWrites d b word.val mask data use.bitErrs raw false
  .next (if s.paneOn d b then
    match use.mode with
    | .checked => both false
    | .raw => both true
    | .fifo =>
      let (rd, n) := s.paneLevel d b
      if n = 2048 then s
      else (s.paneWrites d b ((rd + n) % 2048) 0xF data use.bitErrs false false).paneMoves d b rd (n + 1)
  else s)

end Sys2Proof.Machine
end

