-- ==== Sys2Proof/Machine/Remote.lean ====
section
/-! DEFINITION. What a core's remote accesses bring back (R214, R223–R231, R238, R267): responses to window loads,
acknowledgements of stores, transfers of the DMA engine, and the cluster loader. -/

namespace Sys2Proof.Machine

/-- The core waits for a store-conditional's answer. -/
def CoreSt.awaitsSc (q : CoreSt) : Bool := q.stores.any fun x => x.sc && !x.old

/-- A core's instruction goes on after something it waited for has come. -/
def State.retry (s : State) (c : Nat) : State :=
  match (s.core c).wait with
  | none => s
  | some (.sc k xd xs p) => if (s.core c).awaitsSc then s else (s.scOp c (.sc k xd xs p) xd xs p).settle c
  | some i =>
    (match opOf s i with
    | some op => (s.advance c i op 3).settle c
    | none => s)

/-- The key of the sealed region at an address is retired or fenced (R189, R199, R232). -/
def State.keyRetired (s : State) (a : Nat) : Bool :=
  match (match s.place a with
    | .near _ k => s.sealOf k
    | .far _ k => s.sealOf k
    | _ => none) with
  | some e =>
    let k := s.keySlot (s.sealEntry e).key.toNat
    k.fenced || k.state == 2
  | none => false

/-- The detail of BUS for an answer at a device address; none for data (R232). -/
def State.busDetail (s : State) (a : Nat) : Reply → Option Nat
  | .error => some (if s.keyRetired a then 4 else 1)
  | .poisoned => some 2
  | .dark => some 3
  | _ => none

/-- A line that the cluster caches may hold: near or far, outside sealed regions (R229). -/
def State.cacheable (s : State) (a : Nat) : Bool :=
  match s.place a with
  | .near _ k => (s.sealOf k).isNone
  | .far _ k => (s.sealOf k).isNone
  | _ => false

/-- A table-window read (R223, R229, R231): through the cache where it is enabled, a miss reading the whole line. -/
def State.tableRead (s : State) (c : Nat) (a n : Nat) (errs : MemErrs) : Reply × State :=
  let r := coreReq c (s.core c).glint
  let cl := coreCluster c
  if s.rb .cluCtrl [cl / 16, cl % 16] 1 && s.cacheable a then
    let l := a / 64
    if s.cacheHit cl l then (.data ((Memory.bytes s.mem a n).map some), s.cacheRead c l)
    else
      let (x, s) := s.bufRead r (l * 64) 64 errs
      let s := if x.all fun y => y.byte?.isSome then s.cacheRead c l
        else s.countFor (s.core c).glint (cn 6 4) (coreDie c) (cl % 16) 1
      (readReply r ((x.drop (a % 64)).take n), s)
  else s.spaceRead r (some c) false a n errs

/-- The word of a load: its bytes, lowest first. -/
def replyLoad : Reply → Word
  | .word w => w
  | .data bs => BitVec.ofNat 32 (wordOfBytes (bs.map fun b => b.getD 0))
  | _ => 0

/-- The next window move of an instruction that waits, where it is a load. -/
def CoreSt.nextLoad (q : CoreSt) (c : Nat) (op : Op) : Option (MoveOp × Nat × Bool) :=
  match (q.windowMoves c op.moves)[q.passed]? with
  | some (m, dev, table) => if m.store then none else some (m, dev, table)
  | none => none

/-- A lock register's address. -/
def lockAt (a : Nat) : Bool :=
  decide (regBase ≤ a) && decide (a < regEnd) &&
    (match regAt (a - regBase) with
    | some (.lckLock, _) => true
    | _ => false)

/-- REMOTE_LOAD_RESPONSE (R214, R223–R225, R229, R231, R233): the window load for which the core's instruction waits is
answered. It waits for the core's own unacknowledged stores to its line, and a table-window read for a running invalidation.
A speculative item's read of a lock register is blocked (R125). -/
def execRemoteLoadResponse (core : Core) (errs : MemErrs) (poisoned : Bool) (s : State) : Out :=
  let c := core.val
  let s := if s.coreLive c then (s.sync c).timeOut c else s
  let q := s.core c
  .next (match q.wait.bind (opOf s) with
  | none => s
  | some op =>
    match q.nextLoad c op with
    | none => s
    | some (m, dev, table) =>
      if s.coreLive c = false then s
      else if table = false ∧ (q.stores.any fun x => x.addr.toNat / 64 == dev / 64) = true then s
      else if table = true ∧ (s.cluster (coreCluster c)).invBusy = true then s
      else
        let (x, s) :=
          if table then s.tableRead c dev m.size errs
          else s.devRead (coreReq c q.glint) (some c) dev m.size errs
        let s := if q.glint.isSome && lockAt dev then s.setCore c { s.core c with specBlocked := true } else s
        let x := if poisoned && (s.busDetail dev x).isNone then .poisoned else x
        match s.busDetail dev x with
        | some d =>
          let q := { s.core c with wait := none, passed := 0, got := [] }
          ((s.setCore c q).raiseExc c 4 d (some (BitVec.ofNat 32 (q.moveAddr m)))).settle c
        | none =>
          let q := s.core c
          (s.setCore c { q with got := q.got ++ [replyLoad x], passed := q.passed + 1 }).retry c)

/-- The Glint of a speculative store is not the one that issued it any more: its slot has become FREE. -/
def State.stale (s : State) (st : PendStore) : Bool :=
  match st.spec with
  | none => false
  | some g => (s.slot g.val).state == 0 || (s.slot g.val).gen != st.gen

/-- A speculative item's store was blocked, and not answered by the storage itself (R125, R156, R228). -/
def State.storeBlocked (s : State) (st : PendStore) : Bool :=
  match st.spec with
  | none => false
  | some g =>
    s.stale st ||
      (match s.place st.addr.toNat with
      | .item w => g.val != w || (s.slot w).state != 1
      | _ => true)

/-- A store-conditional's answer (R267): xd := 0, or 1 on an error; BUS on a poisoned or dark answer. -/
def State.scAnswer (s : State) (c : Nat) (i : Instr) (xd : Fin 16) (p : Fin 8) (x : Reply) : State :=
  let q := s.core c
  let exc (d : Nat) : State :=
    (s.setCore c { q with wait := none, passed := 0, resv := none }).raiseExc c 4 d (some (q.getP p))
  match x with
  | .poisoned => exc 2
  | .dark => exc 3
  | .ok => s.setCore c (q.scOver i xd 0)
  | _ => s.setCore c (q.scOver i xd 1)

/-- A store is performed (R224, R228, R267): its answer, with the invalidations that the answer waits for (R230). A core's
own write costs it no reservation; a blocked store is no store error. -/
def State.performStore (s : State) (c : Nat) (st : PendStore) (errs : MemErrs) (poisoned : Bool) : PendStore × State :=
  let resv := (s.core c).resv
  let blocked := s.storeBlocked st
  -- a reservation lost while the store-conditional was on its way: nothing is stored
  let lost := st.sc && resv != some (.remote (st.addr.toNat / 64))
  let (x, s) : Reply × State :=
    if lost then (.error, s)
    else if s.stale st then (.error, s.count (cn 3 8) hub 0 1)
    else s.devWrite (coreReq c st.spec) (some c) st.addr.toNat st.bytes errs
  let x := if poisoned && x == .ok then .poisoned else if blocked && !st.sc then .ok else x
  let s := s.setCore c { s.core c with resv := resv }
  ({ st with done := some x, due := s.dueOf st.addr.toNat st.bytes.length }, s)

/-- STORE_ACK (R224, R225, R228, R230, R267): the store is performed, earlier stores to its line first, and acknowledged once
every invalidation of its line has been answered. -/
def execStoreAck (core : Core) (k : Fin 8) (errs : MemErrs) (poisoned : Bool) (s : State) : Out :=
  let c := core.val
  let s := if s.coreLive c then (s.sync c).timeOut c else s
  let q := s.core c
  .next (match q.stores[k.val]? with
  | none => s
  | some st =>
    if s.coreLive c = false ∨ ((q.stores.take k.val).any fun x => x.addr.toNat / 64 == st.addr.toNat / 64) = true then s
    else
      let blocked := s.storeBlocked st && st.done.isNone
      let (st, s) : PendStore × State := if st.done.isSome then (st, s) else s.performStore c st errs poisoned
      let s := if blocked && !st.old then s.setCore c { s.core c with specBlocked := true } else s
      let q := s.core c
      if s.waitsFor st.due then s.setCore c { q with stores := q.stores.set k.val st }
      else
        let s := s.setCore c { q with stores := removeAt q.stores k.val }
        let x := st.done.getD .ok
        match st.sc && !st.old, q.wait with
        | true, some (.sc i xd xs p) => (s.scAnswer c (.sc i xd xs p) xd p x).settle c
        | true, _ => s
        | false, _ =>
          let s := if x == .ok || st.old then s
            else s.setCore c { s.core c with storeErr := true }
          s.retry c)

-- the DMA engine (R227)

/-- Words of a core's memory written with bytes that a transfer brought, failed ones left as they are. -/
def State.dmaPut (s : State) (c a : Nat) (bs : List (Option Byte)) : State :=
  (List.range ((bs.length + 3) / 4)).foldl (fun (s : State) i =>
    let b := (bs.drop (4 * i)).take 4
    let s := s.nearLost c (a + 4 * i)
    match b with
    | [some x, some y, some z, some w] =>
      s.writeLocal c false (a / 4 + i) (BitVec.ofNat 32 (wordOfBytes [x, y, z, w]))
    | _ =>
      if b.all Option.isNone then s
      else
        let old := bytesOf (Tbl.get 0 (s.core c).dmem (a / 4 + i)).toNat 4
        let new := (List.range 4).map fun j => ((b.getD j none).getD (old.getD j 0))
        s.setCore c ((s.core c).setWordAt false (a / 4 + i) (BitVec.ofNat 32 (wordOfBytes new)))) s

/-- Words of a core's memory read for a transfer; what an uncorrectable word sends is left open. -/
def State.dmaGet (s : State) (c a : Nat) : Nat → List Byte × State
  | 0 => ([], s)
  | k + 1 =>
    let (w, s) := s.readLocal none c false (a / 4)
    let (v, s) := match w with
      | some w => (w, s)
      | none => s.free 32
    let (t, s) := s.dmaGet c (a + 4) k
    (bytesOf v.toNat 4 ++ t, s)

/-- What a reply says of each of n bytes. -/
def replyRes (n : Nat) : Reply → List ByteRes
  | .ok => List.replicate n (.ok 0)
  | .word w => (bytesOf w.toNat 4).map .ok
  | .data bs => bs.map fun b => match b with
    | some b => .ok b
    | none => .bad
  | _ => List.replicate n .bad

/-- A transfer's read of the device side. -/
def State.dmaRead (s : State) (r : Req) (c a n : Nat) (errs : MemErrs) : List ByteRes × State :=
  if inRegs a then let (x, s) := s.devRead r (some c) a n errs; (replyRes n x, s) else s.bufRead r a n errs

/-- A transfer's write of the device side. -/
def State.dmaWrite (s : State) (r : Req) (c a : Nat) (bs : List Byte) (errs : MemErrs) : List ByteRes × State :=
  if inRegs a then let (x, s) := s.devWrite r (some c) a bs errs; (replyRes bs.length x, s) else s.bufWrite r a bs errs

/-- A transfer moves its bytes: the map of what failed, and the invalidations that its end waits for. -/
def State.performDma (s : State) (c : Nat) (t : Dma) (errs : MemErrs) : Dma × State :=
  let r := coreReq c none
  if t.out then
    let (bs, s) := s.dmaGet c t.loc.toNat ((t.len + 3) / 4)
    let resv := (s.core c).resv
    let (x, s) := s.dmaWrite r c t.dev.toNat (bs.take t.len) errs
    let s := s.setCore c { s.core c with resv := resv }
    ({ t with done := some (failBitmap x), due := s.dueOf t.dev.toNat t.len }, s)
  else
    let (x, s) := s.dmaRead r c t.dev.toNat t.len errs
    ({ t with done := some (failBitmap x) }, s.dmaPut c t.loc.toNat (x.map ByteRes.byte?))

/-- DMA_TRANSFER_DONE (R216, R217, R227, R230, R244): the transfer at the front of the core's queue moves its bytes; it
completes once every invalidation of what it wrote has been answered, and the next starts. -/
def execDmaTransferDone (core : Core) (errs : MemErrs) (s : State) : Out :=
  let c := core.val
  let s := if s.coreLive c then (s.sync c).timeOut c else s
  .next (match (s.core c).dmas with
  | [] => s
  | t :: _ =>
    if s.coreLive c = false then s
    else
      let (t, s) : Dma × State := if t.done.isSome then (t, s) else s.performDma c t errs
      let q := s.core c
      if s.waitsFor t.due then s.setCore c { q with dmas := t :: q.dmas.drop 1 }
      else
        let map := t.done.getD 0
        let rest := q.dmas.drop 1
        let rows := match rest with
          | n :: _ => rowsOf n.len
          | [] => 0
        let s := s.setCore c { q with
          dmas := rest, dpart := map != 0, dbitmap := BitVec.ofNat 16 map,
          time := { q.time with rows := rows, waited := 0 } }
        if c = lampCore then s.raiseLine 5 else s)

-- the cluster loader (R238)

/-- One word written at an instruction word of every core of a mask. -/
def State.loadWord (s : State) (cl : Nat) (mask : BitVec 16) (i : Nat) (w : Word) : State :=
  (clusterCores cl).foldl (fun (s : State) c => if bitOf mask (c % 16) then s.writeLocal c true i w else s) s

/-- The words of a granule, in order. -/
def State.loadWords (s : State) (cl : Nat) (mask : BitVec 16) : Nat → List ByteRes → State
  | i, a :: b :: c :: d :: t =>
    (s.loadWord cl mask i (BitVec.ofNat 32 (wordOfBytes ([a, b, c, d].filterMap ByteRes.byte?)))).loadWords cl mask (i + 1) t
  | _, _ => s

/-- Granules of 1,024 words: those that meet a failed read are not written; the map of them. -/
def State.loadGranules (s : State) (r : Req) (cl : Nat) (errs : MemErrs) : List Nat → Nat × State
  | [] => (0, s)
  | k :: t =>
    let q := s.cluster cl
    let n := min 1024 (fld q.ldSpan 16 13 - 1024 * k)
    if n = 0 then s.loadGranules r cl errs t
    else
      let (x, s) := s.bufRead r (q.ldSrc.toNat + 4096 * k) (4 * n) errs
      if x.all fun y => y.byte?.isSome then
        (s.loadWords cl q.ldMask (fld q.ldSpan 0 12 + 1024 * k) x).loadGranules r cl errs t
      else
        let (m, s) := s.loadGranules r cl errs t
        (m + 2 ^ k, s)

/-- LOADER_DONE (R238, R248). -/
def execLoaderDone (cl : Cluster) (errs : MemErrs) (s : State) : Out :=
  let k := cl.val
  .next (if s.live (domFCA (k / 16)) && (s.cluster k).ldBusy then
    let r : Req := { cls := (s.cluster k).ldCls, rnum := BitVec.ofNat 8 (16 + k) }
    let (m, s) := s.loadGranules r k errs [0, 1, 2, 3]
    s.setCluster k { s.cluster k with
      ldBusy := false, doneOk := m == 0, failed := m != 0, failMap := BitVec.ofNat 4 m }
  else s)

end Sys2Proof.Machine
end

