-- ==== Sys2Proof/Machine/Dispatch.lean ====
section
/-! DEFINITION. One arm for each command. -/

namespace Sys2Proof.Machine

/-- The effect of a command on everything but the queue. -/
def exec (i : Instr) (s : State) : Host.Outcome State Fault Refusal :=
  match i with
  | .registerWrite r off v hi => Sys2Proof.Machine.execRegisterWrite r off v hi s
  | .vauxPowerGood strap refsel fL => Sys2Proof.Machine.execVauxPowerGood strap refsel fL s
  | .vinMainPowerGood => Sys2Proof.Machine.execVinMainPowerGood s
  | .glowTrusted => Sys2Proof.Machine.execGlowTrusted s
  | .hubPhaseEnd vioDdr nvReadable => Sys2Proof.Machine.execHubPhaseEnd vioDdr nvReadable s
  | .firmwareLoaded nvReadable => Sys2Proof.Machine.execFirmwareLoaded nvReadable s
  | .resetN => Sys2Proof.Machine.execResetN s
  | .resetNRelease strap refsel => Sys2Proof.Machine.execResetNRelease strap refsel s
  | .perstN => Sys2Proof.Machine.execPerstN s
  | .perstNDeassert => Sys2Proof.Machine.execPerstNDeassert s
  | .flr => Sys2Proof.Machine.execFlr s
  | .d3hotEntry => Sys2Proof.Machine.execD3hotEntry s
  | .d0Return => Sys2Proof.Machine.execD0Return s
  | .vauxLoss => Sys2Proof.Machine.execVauxLoss s
  | .vinMainLoss => Sys2Proof.Machine.execVinMainLoss s
  | .vioDdrLoss => Sys2Proof.Machine.execVioDdrLoss s
  | .vioGpioLoss bank => Sys2Proof.Machine.execVioGpioLoss bank s
  | .vioGpioReturn bank => Sys2Proof.Machine.execVioGpioReturn bank s
  | .vbatLoss => Sys2Proof.Machine.execVbatLoss s
  | .syncEdge => Sys2Proof.Machine.execSyncEdge s
  | .syncLoad => Sys2Proof.Machine.execSyncLoad s
  | .arm r => Sys2Proof.Machine.execArm r s
  | .timebaseCancel r => Sys2Proof.Machine.execTimebaseCancel r s
  | .clkTbWrite r v => Sys2Proof.Machine.execClkTbWrite r v s
  | .timebaseStart => Sys2Proof.Machine.execTimebaseStart s
  | .checkWindow glowCount monitorPassed => Sys2Proof.Machine.execCheckWindow glowCount monitorPassed s
  | .monitorWindow count refPer2e20 glowMean64 => Sys2Proof.Machine.execMonitorWindow count refPer2e20 glowMean64 s
  | .decisionWindow glowCount64 => Sys2Proof.Machine.execDecisionWindow glowCount64 s
  | .coarseCheck count => Sys2Proof.Machine.execCoarseCheck count s
  | .pllHoldover => Sys2Proof.Machine.execPllHoldover s
  | .failoverRestart => Sys2Proof.Machine.execFailoverRestart s
  | .revert r => Sys2Proof.Machine.execRevert r s
  | .lanternRearm r => Sys2Proof.Machine.execLanternRearm r s
  | .heldRestart => Sys2Proof.Machine.execHeldRestart s
  | .darkEntry => Sys2Proof.Machine.execDarkEntry s
  | .muxSwitchRequest r target src => Sys2Proof.Machine.execMuxSwitchRequest r target src s
  | .muxSwitchDone target => Sys2Proof.Machine.execMuxSwitchDone target s
  | .clkMuxForce r target => Sys2Proof.Machine.execClkMuxForce r target s
  | .clkOutWrite r v => Sys2Proof.Machine.execClkOutWrite r v s
  | .clockWindow die bundle count => Sys2Proof.Machine.execClockWindow die bundle count s
  | .lsmTransition l ev => Sys2Proof.Machine.execLsmTransition l ev s
  | .lsmTimeout l ev => Sys2Proof.Machine.execLsmTimeout l ev s
  | .sweepDone l clean => Sys2Proof.Machine.execSweepDone l clean s
  | .laneBctrlWrite r die bundle v => Sys2Proof.Machine.execLaneBctrlWrite r die bundle v s
  | .flip r die => Sys2Proof.Machine.execFlip r die s
  | .laneEqOvrWrite r l v => Sys2Proof.Machine.execLaneEqOvrWrite r l v s
  | .frameReceive l start rest => Sys2Proof.Machine.execFrameReceive l start rest s
  | .anchorSequence l words ts => Sys2Proof.Machine.execAnchorSequence l words ts s
  | .rawRingWrite die allowance => Sys2Proof.Machine.execRawRingWrite die allowance s
  | .hitRingWrite die allowance => Sys2Proof.Machine.execHitRingWrite die allowance s
  | .rateWindowEnd die ch => Sys2Proof.Machine.execRateWindowEnd die ch s
  | .baselineCheck die ch => Sys2Proof.Machine.execBaselineCheck die ch s
  | .cfeFmtWrite r die fmt word v => Sys2Proof.Machine.execCfeFmtWrite r die fmt word v s
  | .cfeLaneCfgWrite r l v => Sys2Proof.Machine.execCfeLaneCfgWrite r l v s
  | .channelEnable r die ch en => Sys2Proof.Machine.execChannelEnable r die ch en s
  | .resetLoops r die ch => Sys2Proof.Machine.execResetLoops r die ch s
  | .wsuSort die bundle => Sys2Proof.Machine.execWsuSort die bundle s
  | .windowClose die => Sys2Proof.Machine.execWindowClose die s
  | .perDieSummaryArrive die => Sys2Proof.Machine.execPerDieSummaryArrive die s
  | .packageSummaryEmit => Sys2Proof.Machine.execPackageSummaryEmit s
  | .mergeDeadline => Sys2Proof.Machine.execMergeDeadline s
  | .windowsStart r v => Sys2Proof.Machine.execWindowsStart r v s
  | .windowsStop r v => Sys2Proof.Machine.execWindowsStop r v s
  | .issue src r wid countM1 => Sys2Proof.Machine.execIssue src r wid countM1 s
  | .accept src r wid countM1 type => Sys2Proof.Machine.execAccept src r wid countM1 type s
  | .confirm src r handle type => Sys2Proof.Machine.execConfirm src r handle type s
  | .cancel src r handle => Sys2Proof.Machine.execCancel src r handle s
  | .glintDeadline g => Sys2Proof.Machine.execGlintDeadline g s
  | .glintItemPost die g => Sys2Proof.Machine.execGlintItemPost die g s
  | .glintCopy g errs => Sys2Proof.Machine.execGlintCopy g errs s
  | .publishStart g => Sys2Proof.Machine.execPublishStart g s
  | .eventPublish g => Sys2Proof.Machine.execEventPublish g s
  | .releaseDone g => Sys2Proof.Machine.execReleaseDone g s
  | .acceptOutput => Sys2Proof.Machine.execAcceptOutput s
  | .acceptFrameSend die bundle => Sys2Proof.Machine.execAcceptFrameSend die bundle s
  | .gltDeadlineWrite r v => Sys2Proof.Machine.execGltDeadlineWrite r v s
  | .dbmRegionWrite r entry word v => Sys2Proof.Machine.execDbmRegionWrite r entry word v s
  | .dbmRawWrite r die hit v => Sys2Proof.Machine.execDbmRawWrite r die hit v s
  | .evtRelease r v => Sys2Proof.Machine.execEvtRelease r v s
  | .bufferRead r addr len errs => Sys2Proof.Machine.execBufferRead r addr len errs s
  | .bufferWrite r addr bytes errs => Sys2Proof.Machine.execBufferWrite r addr bytes errs s
  | .sidebandClearDone stack => Sys2Proof.Machine.execSidebandClearDone stack s
  | .fill lamp base len pattern => Sys2Proof.Machine.execFill lamp base len pattern s
  | .scrubRange lamp base len errs => Sys2Proof.Machine.execScrubRange lamp base len errs s
  | .repair lamp addr => Sys2Proof.Machine.execRepair lamp addr s
  | .sealedRead r block errs changed => Sys2Proof.Machine.execSealedRead r block errs changed s
  | .fullBlockWrite r block bytes => Sys2Proof.Machine.execFullBlockWrite r block bytes s
  | .partialWrite r addr bytes errs changed => Sys2Proof.Machine.execPartialWrite r addr bytes errs changed s
  | .recordWriteback => Sys2Proof.Machine.execRecordWriteback s
  | .alarmClear r => Sys2Proof.Machine.execAlarmClear r s
  | .generate r key => Sys2Proof.Machine.execGenerate r key s
  | .flush r mask => Sys2Proof.Machine.execFlush r mask s
  | .flushDone => Sys2Proof.Machine.execFlushDone s
  | .keyRetire lamp keyId => Sys2Proof.Machine.execKeyRetire lamp keyId s
  | .sealEntryWrite r entry v => Sys2Proof.Machine.execSealEntryWrite r entry v s
  | .rightsWrite r entry v => Sys2Proof.Machine.execRightsWrite r entry v s
  | .itemDispatch core list => Sys2Proof.Machine.execItemDispatch core list s
  | .itemStart core => Sys2Proof.Machine.execItemStart core s
  | .itemEnd core => Sys2Proof.Machine.execItemEnd core s
  | .budgetTimeout core => Sys2Proof.Machine.execBudgetTimeout core s
  | .holdQueueRelease die ring writeFails => Sys2Proof.Machine.execHoldQueueRelease die ring writeFails s
  | .cringConsWrite r die ring v => Sys2Proof.Machine.execCringConsWrite r die ring v s
  | .schPost r die list desc aligned => Sys2Proof.Machine.execSchPost r die list desc aligned s
  | .schpDescriptor die list desc => Sys2Proof.Machine.execSchpDescriptor die list desc s
  | .remoteLoadResponse core errs poisoned => Sys2Proof.Machine.execRemoteLoadResponse core errs poisoned s
  | .storeAck core k errs poisoned => Sys2Proof.Machine.execStoreAck core k errs poisoned s
  | .dmaTransferDone core errs => Sys2Proof.Machine.execDmaTransferDone core errs s
  | .snoopInvalidate cl line => Sys2Proof.Machine.execSnoopInvalidate cl line s
  | .cacheInvalidate r cl => Sys2Proof.Machine.execCacheInvalidate r cl s
  | .park r cl park => Sys2Proof.Machine.execPark r cl park s
  | .loaderGo r cl mask => Sys2Proof.Machine.execLoaderGo r cl mask s
  | .loaderDone cl errs => Sys2Proof.Machine.execLoaderDone cl errs s
  | .lampInterrupt => Sys2Proof.Machine.execLampInterrupt s
  | .lampTimer => Sys2Proof.Machine.execLampTimer s
  | .watchdogEnable r v => Sys2Proof.Machine.execWatchdogEnable r v s
  | .watchdogKick r v => Sys2Proof.Machine.execWatchdogKick r v s
  | .watchdogExpiry => Sys2Proof.Machine.execWatchdogExpiry s
  | .nop c mv => Sys2Proof.Machine.execNop c mv s
  | .add c f => Sys2Proof.Machine.execAdd c f s
  | .sub c f => Sys2Proof.Machine.execSub c f s
  | .adds c f => Sys2Proof.Machine.execAdds c f s
  | .subs c f => Sys2Proof.Machine.execSubs c f s
  | .add2 c f => Sys2Proof.Machine.execAdd2 c f s
  | .sub2 c f => Sys2Proof.Machine.execSub2 c f s
  | .add2s c f => Sys2Proof.Machine.execAdd2s c f s
  | .and c f => Sys2Proof.Machine.execAnd c f s
  | .or c f => Sys2Proof.Machine.execOr c f s
  | .xor c f => Sys2Proof.Machine.execXor c f s
  | .mov c f => Sys2Proof.Machine.execMov c f s
  | .abs c f => Sys2Proof.Machine.execAbs c f s
  | .max c f => Sys2Proof.Machine.execMax c f s
  | .min c f => Sys2Proof.Machine.execMin c f s
  | .clr c f => Sys2Proof.Machine.execClr c f s
  | .mul c f => Sys2Proof.Machine.execMul c f s
  | .mac c f => Sys2Proof.Machine.execMac c f s
  | .msu c f => Sys2Proof.Machine.execMsu c f s
  | .mac2 c f => Sys2Proof.Machine.execMac2 c f s
  | .msu2 c f => Sys2Proof.Machine.execMsu2 c f s
  | .macl c f => Sys2Proof.Machine.execMacl c f s
  | .msul c f => Sys2Proof.Machine.execMsul c f s
  | .exth c f => Sys2Proof.Machine.execExth c f s
  | .extw c f => Sys2Proof.Machine.execExtw c f s
  | .exts c xd a k => Sys2Proof.Machine.execExts c xd a k s
  | .pkn c f => Sys2Proof.Machine.execPkn c f s
  | .pknx c f => Sys2Proof.Machine.execPknx c f s
  | .maxi c f => Sys2Proof.Machine.execMaxi c f s
  | .mini c f => Sys2Proof.Machine.execMini c f s
  | .shl c f => Sys2Proof.Machine.execShl c f s
  | .shr c f => Sys2Proof.Machine.execShr c f s
  | .asr c f => Sys2Proof.Machine.execAsr c f s
  | .cmp c f => Sys2Proof.Machine.execCmp c f s
  | .norm c xd xs => Sys2Proof.Machine.execNorm c xd xs s
  | .expn c xd xs => Sys2Proof.Machine.execExpn c xd xs s
  | .mulw c xd xs xt => Sys2Proof.Machine.execMulw c xd xs xt s
  | .movi c h xd imm => Sys2Proof.Machine.execMovi c h xd imm s
  | .ldW c f => Sys2Proof.Machine.execLdW c f s
  | .ldH c f => Sys2Proof.Machine.execLdH c f s
  | .ldHu c f => Sys2Proof.Machine.execLdHu c f s
  | .ldB c f => Sys2Proof.Machine.execLdB c f s
  | .ldBu c f => Sys2Proof.Machine.execLdBu c f s
  | .stW c f => Sys2Proof.Machine.execStW c f s
  | .stH c f => Sys2Proof.Machine.execStH c f s
  | .stB c f => Sys2Proof.Machine.execStB c f s
  | .movp c p imm => Sys2Proof.Machine.execMovp c p imm s
  | .movm c m imm => Sys2Proof.Machine.execMovm c m imm s
  | .addp c p m => Sys2Proof.Machine.execAddp c p m s
  | .mtp c p x => Sys2Proof.Machine.execMtp c p x s
  | .mfp c p x => Sys2Proof.Machine.execMfp c p x s
  | .mtm c m x => Sys2Proof.Machine.execMtm c m x s
  | .mfm c m x => Sys2Proof.Machine.execMfm c m x s
  | .mfal c xd a => Sys2Proof.Machine.execMfal c xd a s
  | .mfah c xd a => Sys2Proof.Machine.execMfah c xd a s
  | .mfag c xd a => Sys2Proof.Machine.execMfag c xd a s
  | .mtal c a xs => Sys2Proof.Machine.execMtal c a xs s
  | .mtah c a xs => Sys2Proof.Machine.execMtah c a xs s
  | .mtag c a xs => Sys2Proof.Machine.execMtag c a xs s
  | .ash c a k => Sys2Proof.Machine.execAsh c a k s
  | .adda c a b => Sys2Proof.Machine.execAdda c a b s
  | .suba c a b => Sys2Proof.Machine.execSuba c a b s
  | .mova c a b => Sys2Proof.Machine.execMova c a b s
  | .nega c a b => Sys2Proof.Machine.execNega c a b s
  | .expa c xd a => Sys2Proof.Machine.execExpa c xd a s
  | .br c cond disp => Sys2Proof.Machine.execBr c cond disp s
  | .call c disp => Sys2Proof.Machine.execCall c disp s
  | .rep c count e => Sys2Proof.Machine.execRep c count e s
  | .sysNop c => Sys2Proof.Machine.execSysNop c s
  | .end_ c => Sys2Proof.Machine.execEnd c s
  | .fence c => Sys2Proof.Machine.execFence c s
  | .break_ c => Sys2Proof.Machine.execBreak c s
  | .jr c xs => Sys2Proof.Machine.execJr c xs s
  | .mfc c xd cr => Sys2Proof.Machine.execMfc c xd cr s
  | .mtc c cr xs => Sys2Proof.Machine.execMtc c cr xs s
  | .rete c => Sys2Proof.Machine.execRete c s
  | .wfi c => Sys2Proof.Machine.execWfi c s
  | .ien c => Sys2Proof.Machine.execIen c s
  | .idis c => Sys2Proof.Machine.execIdis c s
  | .lr c xd p => Sys2Proof.Machine.execLr c xd p s
  | .sc c xd xs p => Sys2Proof.Machine.execSc c xd xs p s
  | .mbxData r n w => Sys2Proof.Machine.execMbxData r n w s
  | .mbxLast r n w => Sys2Proof.Machine.execMbxLast r n w s
  | .mbxRx r n quiet => Sys2Proof.Machine.execMbxRx r n quiet s
  | .mbxAck r n code => Sys2Proof.Machine.execMbxAck r n code s
  | .mbxAckrd r n quiet => Sys2Proof.Machine.execMbxAckrd r n quiet s
  | .lockRead r n quiet => Sys2Proof.Machine.execLockRead r n quiet s
  | .lockRelease r n v => Sys2Proof.Machine.execLockRelease r n v s
  | .graceExpiry n => Sys2Proof.Machine.execGraceExpiry n s
  | .clkFpllWrite r die pll word v => Sys2Proof.Machine.execClkFpllWrite r die pll word v s
  | .pllLock die pll => Sys2Proof.Machine.execPllLock die pll s
  | .clkGcSelWrite r die gc v => Sys2Proof.Machine.execClkGcSelWrite r die gc v s
  | .clkPortSelWrite r die group v => Sys2Proof.Machine.execClkPortSelWrite r die group v s
  | .ltxFrame die bundle lane payload sofInside => Sys2Proof.Machine.execLtxFrame die bundle lane payload sofInside s
  | .regpAccess r die addr write data answer => Sys2Proof.Machine.execRegpAccess r die addr write data answer s
  | .regpTimeout die => Sys2Proof.Machine.execRegpTimeout die s
  | .netpRequest die port write addr len tag bytes mask errs => Sys2Proof.Machine.execNetpRequest die port write addr len tag bytes mask errs s
  | .paneRead die block word use meet => Sys2Proof.Machine.execPaneRead die block word use meet s
  | .paneWrite die block word mask data use clash => Sys2Proof.Machine.execPaneWrite die block word mask data use clash s
  | .bridgeTraining die => Sys2Proof.Machine.execBridgeTraining die s
  | .bridgeSweepDone die sweep => Sys2Proof.Machine.execBridgeSweepDone die sweep s
  | .trainingStateExit die ev => Sys2Proof.Machine.execTrainingStateExit die ev s
  | .flitReceive die dir f => Sys2Proof.Machine.execFlitReceive die dir f s
  | .retrainTrigger die dir cause => Sys2Proof.Machine.execRetrainTrigger die dir cause s
  | .reqRetrain r die v => Sys2Proof.Machine.execReqRetrain r die v s
  | .retrainDone die ok sweep durationNs => Sys2Proof.Machine.execRetrainDone die ok sweep durationNs s
  | .suspectExpiry die dir bundle wire => Sys2Proof.Machine.execSuspectExpiry die dir bundle wire s
  | .flitForward rp flit place err => Sys2Proof.Machine.execFlitForward rp flit place err s
  | .nocFlip r => Sys2Proof.Machine.execNocFlip r s
  | .shadeComputed => Sys2Proof.Machine.execShadeComputed s
  | .epochMark die => Sys2Proof.Machine.execEpochMark die s
  | .oldEpochDrained => Sys2Proof.Machine.execOldEpochDrained s
  | .fencedRequest dom posted => Sys2Proof.Machine.execFencedRequest dom posted s
  | .rspTimeout at_ addr => Sys2Proof.Machine.execRspTimeout at_ addr s
  | .snoopResend cl line => Sys2Proof.Machine.execSnoopResend cl line s
  | .avsStep dom slackPs fMHz => Sys2Proof.Machine.execAvsStep dom slackPs fMHz s
  | .profileSet lamp profile => Sys2Proof.Machine.execProfileSet lamp profile s
  | .shedCheck vinMw vauxMw settled => Sys2Proof.Machine.execShedCheck vinMw vauxMw settled s
  | .pmgLimitWrite r v => Sys2Proof.Machine.execPmgLimitWrite r v s
  | .sensorSample sensor reading => Sys2Proof.Machine.execSensorSample sensor reading s
  | .overcurrent dom => Sys2Proof.Machine.execOvercurrent dom s
  | .eclipseFence dom wholeDie cause => Sys2Proof.Machine.execEclipseFence dom wholeDie cause s
  | .drainEnd dom owed forced ns => Sys2Proof.Machine.execDrainEnd dom owed forced ns s
  | .eclipsePowerOff dom => Sys2Proof.Machine.execEclipsePowerOff dom s
  | .domainPowerOff r dom => Sys2Proof.Machine.execDomainPowerOff r dom s
  | .domainPowerOn r dom => Sys2Proof.Machine.execDomainPowerOn r dom s
  | .domainPowerOnDone dom => Sys2Proof.Machine.execDomainPowerOnDone dom s
  | .domainReset r dom => Sys2Proof.Machine.execDomainReset r dom s
  | .dieReset r die => Sys2Proof.Machine.execDieReset r die s
  | .coreReset r core => Sys2Proof.Machine.execCoreReset r core s
  | .spineLockLoss die => Sys2Proof.Machine.execSpineLockLoss die s
  | .dieEclipse lamp die => Sys2Proof.Machine.execDieEclipse lamp die s
  | .dieRestore lamp die => Sys2Proof.Machine.execDieRestore lamp die s
  | .restoreComplete die copyOk => Sys2Proof.Machine.execRestoreComplete die copyOk s
  | .loadImage lamp slot nvOk => Sys2Proof.Machine.execLoadImage lamp slot nvOk s
  | .loadPartial lamp slot region nvOk => Sys2Proof.Machine.execLoadPartial lamp slot region nvOk s
  | .imageApply => Sys2Proof.Machine.execImageApply s
  | .partialApply => Sys2Proof.Machine.execPartialApply s
  | .nvProgram lamp target src len errs res => Sys2Proof.Machine.execNvProgram lamp target src len errs res s
  | .nvErase lamp target res => Sys2Proof.Machine.execNvErase lamp target res s
  | .streamTimeout => Sys2Proof.Machine.execStreamTimeout s
  | .mirrorPass upsets micros => Sys2Proof.Machine.execMirrorPass upsets micros s
  | .bbramCommit r => Sys2Proof.Machine.execBbramCommit r s
  | .bbramZeroise r => Sys2Proof.Machine.execBbramZeroise r s
  | .cfgFwDataRead r quiet => Sys2Proof.Machine.execCfgFwDataRead r quiet s
  | .faultQueueDrain => Sys2Proof.Machine.execFaultQueueDrain s
  | .fltLogConsWrite r v => Sys2Proof.Machine.execFltLogConsWrite r v s
  | .nmeClear r v => Sys2Proof.Machine.execNmeClear r v s
  | .injectOneShot r => Sys2Proof.Machine.execInjectOneShot r s
  | .injectContinuous r => Sys2Proof.Machine.execInjectContinuous r s
  | .counterClear r off v => Sys2Proof.Machine.execCounterClear r off v s
  | .inexactClear r off v => Sys2Proof.Machine.execInexactClear r off v s
  | .dbgLevelLower r v => Sys2Proof.Machine.execDbgLevelLower r v s
  | .unlockReq r target => Sys2Proof.Machine.execUnlockReq r target s
  | .unlockCheck r => Sys2Proof.Machine.execUnlockCheck r s
  | .challengeExpiry => Sys2Proof.Machine.execChallengeExpiry s
  | .lockoutExpiry => Sys2Proof.Machine.execLockoutExpiry s
  | .dbgWinRead r errs => Sys2Proof.Machine.execDbgWinRead r errs s
  | .dbgWinWrite r v errs => Sys2Proof.Machine.execDbgWinWrite r v errs s
  | .coreHalt r core => Sys2Proof.Machine.execCoreHalt r core s
  | .coreResume r core => Sys2Proof.Machine.execCoreResume r core s
  | .coreStep r core => Sys2Proof.Machine.execCoreStep r core s
  | .groupHalt r g => Sys2Proof.Machine.execGroupHalt r g s
  | .groupResume r g => Sys2Proof.Machine.execGroupResume r g s
  | .regAccess r core v => Sys2Proof.Machine.execRegAccess r core v s
  | .memAccess r core write => Sys2Proof.Machine.execMemAccess r core write s
  | .dbgLckForce r n => Sys2Proof.Machine.execDbgLckForce r n s
  | .vtTxWrite core b => Sys2Proof.Machine.execVtTxWrite core b s
  | .vtTxRead r core live => Sys2Proof.Machine.execVtTxRead r core live s
  | .vtRxWrite r core b => Sys2Proof.Machine.execVtRxWrite r core b s
  | .vtRxRead core => Sys2Proof.Machine.execVtRxRead core s
  | .drCapture r => Sys2Proof.Machine.execDrCapture r s
  | .drWrite => Sys2Proof.Machine.execDrWrite s
  | .testLogicReset => Sys2Proof.Machine.execTestLogicReset s
  | .bypass => Sys2Proof.Machine.execBypass s
  | .idcode => Sys2Proof.Machine.execIdcode s
  | .samplePreload => Sys2Proof.Machine.execSamplePreload s
  | .extest => Sys2Proof.Machine.execExtest s
  | .clamp => Sys2Proof.Machine.execClamp s
  | .highz => Sys2Proof.Machine.execHighz s
  | .extestPulse => Sys2Proof.Machine.execExtestPulse s
  | .extestTrain => Sys2Proof.Machine.execExtestTrain s
  | .dbgAccess dr errs => Sys2Proof.Machine.execDbgAccess dr errs s
  | .cfgStream w => Sys2Proof.Machine.execCfgStream w s
  | .fuseProg dr => Sys2Proof.Machine.execFuseProg dr s
  | .privateMode => Sys2Proof.Machine.execPrivateMode s
  | .bar2Read off len errs => Sys2Proof.Machine.execBar2Read off len errs s
  | .bar2Write off bytes errs => Sys2Proof.Machine.execBar2Write off bytes errs s
  | .hifWinBaseWrite r v => Sys2Proof.Machine.execHifWinBaseWrite r v s
  | .unknownOpcode lamp op => Sys2Proof.Machine.execUnknownOpcode lamp op s
  | .darkRecordRead lamp entry dst errs => Sys2Proof.Machine.execDarkRecordRead lamp entry dst errs s
  | .commandEnd => Sys2Proof.Machine.execCommandEnd s
  | .ringEnable r ring v => Sys2Proof.Machine.execRingEnable r ring v s
  | .ringDisable r ring v => Sys2Proof.Machine.execRingDisable r ring v s
  | .ringConsWrite r ring v => Sys2Proof.Machine.execRingConsWrite r ring v s
  | .msixHoldoffExpiry ring => Sys2Proof.Machine.execMsixHoldoffExpiry ring s
  | .msixPendingSend v => Sys2Proof.Machine.execMsixPendingSend v s
  | .gpiPinWrite r bank pin v => Sys2Proof.Machine.execGpiPinWrite r bank pin v s
  | .accEnWrite r v => Sys2Proof.Machine.execAccEnWrite r v s
  | .busyEdge bank pin rising => Sys2Proof.Machine.execBusyEdge bank pin rising s
  | .edgePop r => Sys2Proof.Machine.execEdgePop r s
  | .markPulse bank pin => Sys2Proof.Machine.execMarkPulse bank pin s
  | .codeGroupReceive l w => Sys2Proof.Machine.execCodeGroupReceive l w s
  | .lanternCheckTimeout => Sys2Proof.Machine.execLanternCheckTimeout s
  | .hubPllLock => Sys2Proof.Machine.execHubPllLock s
  | .farTrainingDone half dimms size mismatch => Sys2Proof.Machine.execFarTrainingDone half dimms size mismatch s
  | .linkUp width speed sets => Sys2Proof.Machine.execLinkUp width speed sets s
  | .tlpError aerBit corrected => Sys2Proof.Machine.execTlpError aerBit corrected s
  | .illegalInstruction c w => Sys2Proof.Machine.execIllegalInstruction c w s

end Sys2Proof.Machine
end

