-- ==== Sys2Proof/Machine/Contacts.lean ====
section
/-! DEFINITION. What the contacts do (21_pins_and_electrical R566, R567, R577; 18_errors_and_counters R498): each group's
contact is a function of the state. -/

namespace Sys2Proof.Machine

/-- The contacts of the package by group (R562); supplies, sense and reserved contacts apart. -/
inductive Contact where
  | laneTx (l : LaneId)
  | laneRx (l : LaneId)
  /-- L7 of a bundle: its forwarded clock. -/
  | clockTx (die : Die) (bundle : Bundle)
  | clockRx (die : Die) (bundle : Bundle)
  | pcieTx (lane : Fin 8)
  | pcieRx (lane : Fin 8)
  | ddr (half : Half)
  | dimmReset (half : Half)
  | spd (half : Half)
  | gpio (bank : Fin 2) (pin : Fin 24)
  | refclk
  | sync
  | clkout
  | alertN
  /-- RESET_N, PERST_N, STRAP, REFSEL, TCK, TMS, TDI and TRST_N. -/
  | input
  deriving DecidableEq, Repr

/-- What the part does at a contact (R566): nothing, a level that it drives, a signal of the group's own kind that it drives or
terminates, or what the boundary register says (R528). -/
inductive Drive where
  | harmless
  | level (high : Bool)
  | active
  | boundary
  deriving DecidableEq, Repr

/-- UNPOWERED, AON_ONLY or RESET (R566). -/
def State.allHarmless (s : State) : Bool :=
  !s.rails.vaux || !s.rails.resetN || !bitOf s.su.ended 1 || s.su.dark || s.su.thermalOff || s.su.vinOff

/-- A contact is active under a condition, and else harmless. -/
def activeIf (b : Bool) : Drive := if b then .active else .harmless

/-- A bundle's receiver contacts are terminated (R567): rx_en ≠ 0 in the bundle, or loop_mode = 1. -/
def State.rxReleased (s : State) (d b : Nat) : Bool :=
  s.live (domLG d b) && (decide (s.rf .laneBctrl [d, b] 0 7 ≠ 0) || decide (s.rf .laneBctrl [d, b] 8 2 = 1))

/-- A bundle's transmitters drive (R62, R567). -/
def State.txReleased (s : State) (d b : Nat) : Bool := s.live (domLG d b) && s.rb .laneBctrl [d, b] 12

/-- A DRESET_N contact (R528, R567): in reset until the half is trained, inactive in self-refresh. -/
def State.dimmReset (s : State) (h : Nat) : Drive :=
  if s.on (domFBC h) = false then .harmless else .level ((s.half h).trained || (s.dbg.extest && (s.half h).dimms != 0))

/-- A GPIO contact (R567, R576–R578): out of power or OFF it is high-impedance, as an input it drives nothing. -/
def State.gpioDrive (s : State) (b i : Nat) : Drive :=
  if s.live domGPI = false ∨ s.bankOk b = false then .harmless
  else
    let inv := s.rb .gpiPin [b, i] 4
    match s.pinActs b i with
    | 2 => .level (s.rb .gpiPin [b, i] 5 != inv)
    | 4 => .level ((s.tb.counting && s.tb.tick.toNat % 2 ^ s.rf .gpiCtrl [] 8 6 == 0) != inv)
    | 5 => .active
    | _ => .harmless

/-- ALERT_N is asserted (R498, R567): a bit of FLT_NME is 1, or the part is in DARK, in thermal shutdown or without VIN_MAIN. -/
def State.alerts (s : State) : Bool :=
  s.rails.vaux && s.rails.resetN && (s.nmeWord != 0 || s.su.dark || s.su.thermalOff || s.su.vinOff)

/-- The test port holds the scanned contacts (R528). -/
def State.scanned (s : State) : Contact → Bool
  | .laneTx _ | .laneRx _ | .clockTx _ _ | .clockRx _ _ | .pcieTx _ | .pcieRx _ | .ddr _ | .gpio _ _ | .clkout | .alertN => s.dbg.extest
  | _ => false

/-- What the part does at a contact (R498, R528, R566, R567). -/
def State.drive (s : State) (c : Contact) : Drive :=
  if s.scanned c then .boundary
  else
    match c with
    | .alertN => if s.alerts then .level false else .harmless
    | .refclk | .sync | .input | .spd _ => .harmless
    | c =>
      if s.allHarmless then .harmless
      else
        match c with
        | .laneTx l => activeIf (s.txReleased l.die.val l.bundle.val)
        | .clockTx d b => activeIf (s.txReleased d.val b.val)
        | .laneRx l => activeIf (s.rxReleased l.die.val l.bundle.val)
        | .clockRx d b => activeIf (s.rxReleased d.val b.val)
        | .pcieTx _ | .pcieRx _ => activeIf (s.live domPCI && s.rails.perstN)
        | .ddr h => activeIf (s.on (domFBC h.val) && (s.half h.val).trained)
        | .dimmReset h => s.dimmReset h.val
        | .gpio b i => s.gpioDrive b.val i.val
        | .clkout => activeIf (s.rb .clkOut [] 8)
        | _ => .harmless

end Sys2Proof.Machine
end

