-- ==== Sys2Proof/Machine/Idle.lean ====
section
/-! DEFINITION. What the block does on an empty queue: one tick of TBCLK (log entry 2). -/

namespace Sys2Proof.Machine

/-- Records of counter words that were found in error since the last tick (R506). -/
def State.reportFound (s : State) : List (Nat × Nat × Bool) → State
  | [] => s
  | (place, off, ue) :: t =>
    (s.offer (if place < 4 then .die place else .hub) 21 place (b2n ue) (Config.detCode 21 (b2n ue))
      (Config.syndrome 21 (b2n ue) off) (BitVec.ofNat 48 off) true).reportFound t

/-- WSUM's port cycle: a beat of the front summary (R108). -/
def State.drainWsum (s : State) (d : Nat) : State :=
  let w := s.wsu d
  match w.wsum with
  | [] => s
  | x :: t =>
    let last := w.beat == 32
    (s.setWsu d { w with wsum := if last then t else w.wsum, beat := if last then 0 else w.beat + 1 }).emit
      (.wsum (Fin.ofNat 4 d) (w.beat == 0) last (x.beat w.beat))

/-- Items that wait at the detached window ports of a die are discarded and counted as losses (R319). -/
def State.portsDetached (s : State) (d : Nat) : State :=
  if s.windowPorts d then s
  else
    let w := s.wsu d
    let f := s.fab d
    let lose (n a i : Nat) (s : State) : State := if n = 0 then s else s.count a d i n
    let s := lose w.whit.length (cn 2 4) 0 (lose w.wlate.length (cn 2 4) 1 (lose w.wcls.length (cn 2 4) 2
      (lose w.wsum.length (cn 2 4) 3 (lose f.ctap.length (cn 8 2) 0 s))))
    (s.setWsu d { w with whit := [], wlate := [], wcls := [], wsum := [], beat := 0 }).setFab d { s.fab d with ctap := [] }

/-- The window and tap ports of a die carry what they can in a port cycle (R108, R321); a close event not before the last
on-time item of its window (R109). -/
def State.drainPorts (s : State) (d : Nat) : State :=
  if s.windowPorts d = false then s
  else
    let die : Die := Fin.ofNat 4 d
    let w := s.wsu d
    let f := s.fab d
    let rest := w.whit.drop 4
    let close := match w.wcls with
      | e :: _ => if rest.any fun x => x.2 == e.wid then [] else [e]
      | [] => []
    let out := (w.whit.take 4).map (fun e => Output.whit die e.1 e.2) ++ (w.wlate.take 1).map (fun e => Output.wlate die e.1 e.2) ++
      close.map (Output.wcls die) ++ (f.ctap.take 4).map (Output.ctap die)
    let s := s.setWsu d { w with whit := rest, wlate := w.wlate.drop 1, wcls := w.wcls.drop close.length }
    let s := s.setFab d { f with ctap := f.ctap.drop 4 }
    ({ s with outbox := s.outbox ++ out }).drainWsum d

/-- The strobe fires at edge e (R398). -/
def strobeAt (hz e : Nat) : Bool := decide (0 < hz ∧ (e - 1) * 1000000 / hz < e * 1000000 / hz)

/-- One strobe of the timebase: the deadlines of OPEN Glints and the running command's time (R129, R398, R560). -/
def State.microsecond (s : State) : State :=
  let slots := (idxs (fun g => (s.slot g).state == 1) 64).foldl
    (fun (s : State) g => s.setSlot g { s.slot g with remain := (s.slot g).remain - 1 }) s
  let s := upTo (fun k s => s.holdoffMicro k) 16 slots
  if s.hif.busy then { s with hif := { s.hif with time := s.hif.time + 1 } } else s

/-- TBCLK ticks (R17, R398). -/
def State.tick (s : State) : State :=
  if s.tb.counting && !s.clk.holding then
    let e := s.tb.edge + 1
    let s := { s with tb := { s.tb with tick := s.tb.tick + 1, edge := e } }
    if strobeAt s.tbHz e then s.microsecond else s
  else s

/-- MCLK runs: LANTERN is on, or REFCLK drives its substitute (R245, R393). -/
def State.mclkRuns (s : State) : Bool := s.rails.vaux && (if s.clk.mclkSub then s.clk.refOk else s.clk.lanternOn)

/-- Spine cycles and MCLK's microseconds of one nominal TBCLK period, with what is left over (R208, R245). -/
def State.cycles (s : State) : State :=
  let hz := max 1 s.tbHz
  let a := (if s.clk.holding then 0 else s.spineNow * 1000000) + s.clk.spineRest
  let b := (if s.mclkRuns then 1000000 else 0) + s.clk.usRest
  let n := 1000000000 + s.clk.bridgeRest
  let c := { s.clk with bridge := s.clk.bridge + n / hz, bridgeRest := n % hz, spineRest := a % hz, usRest := b % hz }
  ((({ s with clk := c }).nocCycles (a / hz)).wdgCount (b / hz)).debugMicros (b / hz)

/-- Every core that runs counts the spine's cycles; an item whose budget they use up ends (R236). -/
def State.syncCores (s : State) : State :=
  (s.cores.map fun e => e.1).foldl (fun (s : State) c => if s.coreLive c then (s.sync c).timeOut c else s) s

-- the port groups' cycles (R317–R320)

/-- A port cycle of a response channel: user logic takes the first response or holds it back, which a free value says; every
cycle beyond the 16th in which it does is counted, and a detached port's responses are discarded (R319, R320). -/
def State.sinkCycle (s : State) (d p : Nat) : State :=
  let f := s.fab d
  let w := Tbl.get 0 f.waited p
  match s.portResp d p with
  | [] => s.setFab d { f with waited := Tbl.set 0 f.waited p 0 }
  | o :: t =>
    if s.respAttached d p = false then
      s.setFab d { f with resp := Tbl.set [] f.resp p [], waited := Tbl.set 0 f.waited p 0 }
    else
      let (ready, s) := s.free 1
      if ready = 1 then
        let s := s.setFab d { f with resp := Tbl.set [] f.resp p t, waited := Tbl.set 0 f.waited p 0 }
        { s with outbox := s.outbox ++ [o] }
      else
        let s := s.setFab d { f with waited := Tbl.set 0 f.waited p (w + 1) }
        if 16 ≤ w then s.vioSink d p else s

/-- A port cycle of REGP: user logic has had one more for the access that it was offered (R324). -/
def State.regpCycle (s : State) (d : Nat) : State :=
  let f := s.fab d
  if f.regp = [] then s
  else if f.regpWait + 1 < s.rf .regpTimeout [d] 0 16 then s.setFab d { f with regpWait := f.regpWait + 1 }
  else s.regpLate d

/-- A cycle of port group p of die d. -/
def State.portCycle (s : State) (d p : Nat) : State :=
  match p with
  | 0 => s.drainPorts d
  | 1 => (((s.sinkCycle d 0).sinkCycle d 1).gltServe (Fin.ofNat 4 d) 16).schServe (Fin.ofNat 4 d) 16
  | 2 => upTo (fun k s => s.sinkCycle d (2 + k)) 8 s
  | 5 => (s.lirqCycle d).regpCycle d
  | _ => s

/-- n cycles of a port group. -/
def State.portCycles (s : State) (d p : Nat) : Nat → State
  | 0 => s
  | n + 1 => (s.portCycle d p).portCycles d p n

/-- What one period of TBCLK brings to a die's fabric and its ports. -/
def State.dieTick (s : State) (d : Nat) : State :=
  let s := (s.portsDetached d).gcTick d
  upTo (fun p s =>
    let (n, s) := s.portTick d p
    s.portCycles d p n) 6 s

/-- The block with nothing waiting. -/
def State.idle (s : State) : State :=
  let s := s.acceptTick.tick.cycles.syncCores.passTick
  let s := (s.clusters.filter fun e => e.2.invBusy).foldl
    (fun (s : State) e => s.setCluster e.1 { s.cluster e.1 with invBusy := false }) s
  let s := (upTo (fun k s => s.prbsBundle (k / 16) (k % 16)) 64 s).txIdle
  let (spans, s) := s.spanTick
  let s := (List.range 4).foldl (fun (s : State) d =>
    (((((s.moveWm d).ringRates d).dieTick d).spanErrors d spans false).spanErrors d spans true).suspectsLapse d) s
  let found := s.cnt.found
  { s with cnt := { s.cnt with found := [] } }.reportFound found

end Sys2Proof.Machine
end

