-- ==== Sys2Proof/Certificates/Slice0/Obligations.lean ====
section
/-! DEFINITION. The statements for the provers. -/

-- words of the statements

namespace Sys2Proof.Claims

open Sys2Proof.Machine

/-- Cycles of core c's clock that its registers have not yet counted. -/
def lag (c : Nat) (s : State) : Nat := s.coreNow c - (s.core c).time.clock

/-- No interlock of R274 holds an instruction that issues in this cycle or later. -/
def horizon (t : CoreTime) : Nat :=
  latest (t.flagsFrom :: t.accFlagsFrom :: t.mulFrom ::
    [t.addrFrom, t.storeFrom, t.intoFrom, t.readFrom].flatMap fun l => l.map (·.2))

/-- Cycles that pass at most until an instruction of core c with n cycles is over: those that the registers lag behind the
clock, those that the interlocks hold it, and its own (R236, R274, R275). -/
def cycles (n c : Nat) (s : State) : Nat := lag c s + (horizon (s.core c).time - ((s.core c).time.clock + 1)) + n

/-- The core's registers q as its clock has moved them on to r: cyc, the budget, the timer's line and the interlocks (R211,
R236, R244, R274). -/
def clocked (q r : CoreSt) : CoreSt := { q with cyc := r.cyc, ipend := r.ipend, bleft := r.bleft, time := r.time }

/-- What the clock alone does between q and r: some cycles are counted, at most so many leave the budget, and on the Lamp the
timer's line 4 may rise (R236, R244). -/
def Elapsed (c : Nat) (q r : CoreSt) : Prop :=
  ∃ n m, m ≤ n ∧ r.cyc = q.cyc + BitVec.ofNat 32 n ∧ r.bleft = BitVec.ofNat 32 (q.bleft.toNat - m) ∧
    (r.ipend = q.ipend ∨ c = lampCore ∧ r.ipend = setBit q.ipend 4 true)

/-- Core c's registers become q, as its clock moves them on; no other core's change. -/
def CoreBecomes (c : Nat) (s t : State) (q : CoreSt) : Prop :=
  t.core c = clocked q (t.core c) ∧ Elapsed c q (t.core c) ∧ ∀ i, i ≠ c → t.core i = s.core i

/-- Only core c's registers change, and they become q. -/
def Becomes (c : Nat) (s t : State) (q : CoreSt) : Prop := t = { s with cores := t.cores } ∧ CoreBecomes c s t q

/-- The state with core c's clock brought up to the present. -/
def counted (c : Nat) (s : State) : CoreSt := (s.sync c).core c

/-- No injection is in force, and no Glint's counts are held back (R126, R499). -/
def Plain (s : State) : Prop := s.flt.injMode = 0 ∧ s.holdFor = none

/-- No bank of core c's memory is taken by a merged word or a transfer's row (R215, R216). -/
def BanksFree (q : CoreSt) : Prop := (∀ m ∈ q.time.merges, m.1 ≤ q.time.clock) ∧ q.time.rows = 0

/-- Core c issues an instruction of n cycles and nothing stands in its way: it can issue (R235, R271, R520), its PC lies where
instructions lie (R213), the fetched word shows no error (R235), the item's budget outlasts it (R236), and neither a step nor
a halt waits for it (R521). -/
structure Ready (n c : Nat) (s : State) : Prop where
  issue : s.canIssue c = true
  fetch : (s.core c).fetchFault c = false
  good : Tbl.get 0 ((s.core c).bad (isImem c true)) ((s.core c).pc.toNat / 4) % 64 = 0
  budget : c = lampCore ∨ cycles n c s < (s.core c).bleft.toNat
  steady : (s.core c).dbg.stepping = false ∧ (s.core c).dbg.stopping = false

/-- The core's registers as an instruction finds them; what its clock does to them apart. -/
def issued (q : CoreSt) : CoreSt := { q with fencing := false, wfi := false }

/-- The core's registers after an instruction that computes f and then moves on by the end check (R221). -/
def after (q : CoreSt) (f : CoreSt → CoreSt) : CoreSt :=
  CoreSt.retire { f (issued q) with wait := none, passed := 0, got := [], near := [], undo := none }

/-- The core's registers after a SC that leaves w in xd (R267). -/
def scAfter (q : CoreSt) (xd : Fin 16) (w : Word) : CoreSt :=
  CoreSt.retire { (issued q).setX xd w with resv := none, wait := none, passed := 0, got := [] }

/-- Instruction i of core c completes, and the core's registers become q; nothing else changes. -/
def Runs (i : Instr) (c : Nat) (s : State) (q : CoreSt) : Prop := ∃ t, exec i s = .next t ∧ Becomes c s t q

/-- An integer result w in xd, with the flags that its row names (R255). -/
def int (xd : Fin 16) (w : Word) (c v : Option Bool) (clamped : Bool) (q : CoreSt) : CoreSt :=
  q.putRes xd (plainRes w c v clamped)

/-- An accumulator written with the exact result e (R259). -/
def wrote (a : Fin 4) (e : Int) (q : CoreSt) : CoreSt :=
  q.putAcc a { val := BitVec.ofInt 80 e, sov := decide (e < -(2 : Int) ^ 79 ∨ (2 : Int) ^ 79 ≤ e) }

/-- An accumulator that takes the bits v: sov stays (R260). -/
def took (a : Fin 4) (v : Acc) (q : CoreSt) : CoreSt := q.putAcc a { val := v }

/-- The destination and operands of a two-operand form that carries no moves (R257, R258). -/
def operands (q : CoreSt) : AluForm → Option (Fin 16 × Word × Word)
  | .par ua ub ⟨none, none⟩ => some (hi8 ua, q.getX (hi8 ua), q.getX (hi8 ub))
  | .par _ _ _ => none
  | .alu3 xd xs xt => some (xd, q.getX xs, q.getX xt)
  | .alui xd xs k => some (xd, q.getX xs, k.signExtend 32)

/-- The same of a row that ALUI does not accept (R258). -/
def registers (q : CoreSt) : AluForm → Option (Fin 16 × Word × Word)
  | .alui _ _ _ => none
  | .par ua ub mv => operands q (.par ua ub mv)
  | .alu3 xd xs xt => operands q (.alu3 xd xs xt)

/-- The destination and operand of MOV and ABS without moves; in ALU3, xt is 0 (R258). -/
def source (q : CoreSt) : AluForm → Option (Fin 16 × Word)
  | .par ua ub ⟨none, none⟩ => some (hi8 ua, q.getX (hi8 ub))
  | .alu3 xd xs xt => if xt = 0 then some (xd, q.getX xs) else none
  | _ => none

/-- The destination, operand and amount of a shift (R258). -/
def shift (q : CoreSt) : ShForm → Option (Fin 16 × Word × Nat)
  | .alu3 xd xs xt => some (xd, q.getX xs, (q.getX xt).toNat % 256)
  | .alui xd xs k => if k.toNat < 64 then some (xd, q.getX xs, k.toNat) else none

/-- The operands of CMP, whose xd is 0 (R258). -/
def compared (q : CoreSt) : ShForm → Option (Word × Word)
  | .alu3 xd xs xt => if xd = 0 then some (q.getX xs, q.getX xt) else none
  | .alui xd xs k => if xd = 0 then some (q.getX xs, k.signExtend 32) else none

/-- The accumulator and the two registers of an accumulator form without moves (R257, R260). -/
def factors (q : CoreSt) : AccForm → Option (Fin 4 × Word × Word)
  | .par a ua ub ⟨none, none⟩ => some (a, q.getX (hi8 ua), q.getX (hi8 ub))
  | .par _ _ _ _ => none
  | .full a xa xb => some (a, q.getX xa, q.getX xb)

/-- The accumulator and the one register of an accumulator form without moves whose second field is 0 (R257, R260). -/
def single : AccForm → Option (Fin 4 × Fin 16)
  | .par a ua ub ⟨none, none⟩ => if ub = 0 then some (a, hi8 ua) else none
  | .par _ _ _ _ => none
  | .full a xa xb => if xb = 0 then some (a, xa) else none

/-- The accumulator of CLR without moves, whose other fields are 0 (R257, R260). -/
def cleared : AccForm → Option (Fin 4)
  | .par a ua ub ⟨none, none⟩ => if ua = 0 ∧ ub = 0 then some a else none
  | .par _ _ _ _ => none
  | .full a xa xb => if xa = 0 ∧ xb = 0 then some a else none

/-- A signed number that n bits cannot hold. -/
def beyond (n : Nat) (e : Int) : Bool := decide (e < -(2 : Int) ^ (n - 1) ∨ (2 : Int) ^ (n - 1) ≤ e)

/-- The nearest number that n bits hold. -/
def nearest (n : Nat) (e : Int) : Int :=
  if e < -(2 : Int) ^ (n - 1) then -(2 : Int) ^ (n - 1) else if (2 : Int) ^ (n - 1) - 1 < e then (2 : Int) ^ (n - 1) - 1 else e

/-- The low and the high lane of a word, signed. -/
def low (w : Word) : Int := (w.extractLsb' 0 16).toInt
def high (w : Word) : Int := (w.extractLsb' 16 16).toInt

/-- A word from its lanes, each modulo 2^16. -/
def lanes (h l : Int) : Word := BitVec.ofInt 16 h ++ BitVec.ofInt 16 l

/-- P and PL (R259). -/
def times (q : CoreSt) (u w : Int) : Int := if bitOf q.st 11 then 2 * (u * w) else u * w

/-- What an extraction of v to n bits writes to xd (R262). -/
def extracted (xd : Fin 16) (n : Nat) (v : Int) (q : CoreSt) : CoreSt :=
  if bitOf q.st 8 then int xd (BitVec.ofInt 32 (nearest n v)) none none (beyond n v) q
  else int xd ((BitVec.ofInt n v).signExtend 32) none none false q

/-- The bits below the top bit that equal it, counted from there: n of them, and then, if any are left, one that differs
(R263). -/
def Redundant {m : Nat} (w : BitVec m) (n : Nat) : Prop :=
  n < m ∧ (∀ i, m - 1 - n ≤ i → i < m → w.getLsbD i = w.msb) ∧ (n = m - 1 ∨ w.getLsbD (m - 2 - n) ≠ w.msb)

/-- A move of the core reaches its own memory, aligned, at a word without error (R213, R218, R235, R241). -/
def Near (c : Nat) (q : CoreSt) (p : Fin 8) (size : Nat) : Prop :=
  (q.getP p).toNat < (if c = lampCore then 0x400000 else 0x10000) ∧ (q.getP p).toNat % size = 0 ∧
    Tbl.get 0 q.badD ((q.getP p).toNat / 4) % 64 = 0

/-- A byte of a core's data memory, little-endian in its word (R213). -/
def byteIn (m : Tbl Word) (b : Nat) : Nat := (Tbl.get 0 m (b / 4)).toNat / 2 ^ (8 * (b % 4)) % 256

/-- n bytes of a core's data memory from address a on, little-endian. -/
def bytesIn (m : Tbl Word) (a : Nat) : Nat → Nat
  | 0 => 0
  | n + 1 => byteIn m a + 256 * bytesIn m (a + 1) n

/-- Post-modify of a load or store (R218, R266). -/
def moved (c : Nat) (f : LsForm) (q : CoreSt) : CoreSt := if f.pm then q.setP c f.p (q.getP f.p + q.getM f.m) else q

/-- A word in a pointer's width, and in a modifier's (R209, R240): 18 bits on a Facet, zero- and sign-extended; 32 on the Lamp. -/
def pointer (c : Nat) (w : Word) : Word := if c = 1024 then w else BitVec.ofNat 32 (w.toNat % 2 ^ 18)
def modifier (c : Nat) (w : Word) : Word := if c = 1024 then w else (BitVec.ofNat 18 w.toNat).signExtend 32

/-- Core c's registers after a load of v. -/
def loaded (c : Nat) (f : LsForm) (v : Word) (q : CoreSt) : CoreSt := (moved c f q).setX f.xr v

/-- Instruction i of core c stores the low n bytes of v at address a: the registers become q apart from the data memory,
whose bytes outside the store read as before. -/
def Stores (i : Instr) (c : Nat) (s : State) (a n : Nat) (v : Word) (q : CoreSt) : Prop :=
  ∃ t m e, exec i s = .next t ∧ Becomes c s t { q with dmem := m, badD := e } ∧
    (∀ b, byteIn m b = if a ≤ b ∧ b < a + n then v.toNat / 2 ^ (8 * (b - a)) % 256 else byteIn (s.core c).dmem b) ∧
    ∀ k, Tbl.get 0 e k = if k = a / 4 then 0 else Tbl.get 0 (s.core c).badD k

/-- Counter leaf (n, loc, inst) and the nodes above it count k; no other counter moves. -/
def Counted (s t : State) (n loc inst k : Nat) : Prop := t.cnt = (s.countRaw n loc inst k).cnt

/-- A taken branch to t, linked through x15 where it is a CALL (R222, R269). -/
def branched (q : CoreSt) (t : Word) (link : Bool) : CoreSt :=
  let b := (issued q).branchTo t
  if link then b.setX 15 (q.pc + 4) else b

/-- Where branch target pc + 4 × disp lies inside the instructions of core c (R269). -/
def targetOk (c : Nat) (pc : Word) (disp : BitVec 23) : Prop :=
  c = 1024 ∨ (0 ≤ (pc.toNat : Int) + 4 * disp.toInt ∧ (pc.toNat : Int) + 4 * disp.toInt ≤ 16380)

/-- The Lamp's registers as an exception's handler finds them (R243): code k, faulting address a; an instruction that waited is
given up (R233). -/
def lampExcepted (k a : Word) (q : CoreSt) : CoreSt :=
  { q.giveUp with
    epc := q.pc,
    est := q.st,
    ecause := k,
    eaddr := a,
    st := setBit (setBit (setBit q.st 7 true) 5 false) 4 false,
    suspended := q.st.toNat % 8 :: q.suspended,
    pc := q.vbase,
    resv := none,
    wfi := false }

/-- The groups that 10-bit words spell, each at the running disparity that the one before leaves (R38). -/
def groups : Bool → List (BitVec 20) → List Group
  | _, [] => []
  | rd, w :: ws => decodeGroup (w.toNat % 1024) rd :: groups (groupDisparity (w.toNat % 1024) rd) ws

/-- The command port takes a command (R129, R544, R545): it is free, the part is up, and for the Lamp's bank the Lamp runs. -/
structure PortFree (lamp : Bool) (s : State) : Prop where
  reach : lamp = false → s.hostReaches = true
  spine : s.live domSPN = true
  lamp : lamp = true → s.live domLMP = true
  free : s.hif.busy = false
  up : 6 ≤ s.phase

/-- The state as a taken command of the port starts (R544, R545): its opcode, bank and arguments are latched, the port is busy,
and the Lamp's line 7 rises. -/
def begun (lamp : Bool) (op : Nat) (args : List Word) (s : State) : State :=
  { s with hif := { s.hif with
      opcode := BitVec.ofNat 8 op,
      busy := true,
      ownerLamp := lamp,
      time := 0,
      args := args,
      endCode := none } }.raiseLine 7

/-- What a command of the port leaves the port with: the code that its end will show (R545). -/
def ending (code : Nat) (s : State) : State := { s with hif := { s.hif with endCode := some (BitVec.ofNat 8 code) } }

/-- Memory writes to a ring of the host's memory, at its base and of its size, put bytes from position c on: each of them at most
the maximum payload, none across a 4 KiB boundary (R552). -/
def Written (base size most : Nat) : Nat → List Output → List Byte → Prop
  | _, [], bs => bs = []
  | c, .hostWrite a b :: ws, bs => a = BitVec.ofNat 64 (base + c % size) ∧ b ≠ [] ∧ b.length ≤ most ∧
      c % size % 4096 + b.length ≤ 4096 ∧ b = bs.take b.length ∧ Written base size most (c + b.length) ws (bs.drop b.length)
  | _, _, _ => False

/-- A near page that has been written, in its region's code, with its own tag and the mark 0b101 (R159), on a live stack, with
no bit in error (R160, R162). -/
def CleanPage (s : State) (page : Nat) : Prop :=
  Tbl.get {} s.dbm.pages page = { t := s.pageT page, page := BitVec.ofNat 28 page, mark := 5 } ∧ s.pageT page ≠ 0 ∧ bitOf s.dbm.cleared (stackOfPage page) = true ∧ s.stuckBits page = 0

/-- Counter leaf (n, loc, inst) counts k, whatever other counters do. -/
def Rose (s t : State) (n loc inst k : Nat) : Prop :=
  Tbl.get {} t.cnt.leaves (leafKey n loc inst) = (Tbl.get {} s.cnt.leaves (leafKey n loc inst)).add k

/-- The watchdog after core c's release: a held count of the Lamp's goes on with the grace at least (R246). -/
def released (c : Nat) (s : State) : Watchdog :=
  let grace := s.rd .wdgGrace []
  if c = 1024 ∧ s.rb .wdgCtrl [] 1 = true ∧ s.wdg.left.toNat < grace.toNat then { s.wdg with left := grace } else s.wdg

/-- No byte of memory outside the fault log changes (R487, R495). -/
def LogOnly (s t : State) : Prop :=
  ∀ a, a < logBase ∨ logBase + 131072 * 32 ≤ a → t.mem.byte a = s.mem.byte a

end Sys2Proof.Claims

section

open Sys2Proof Sys2Proof.Machine Sys2Proof.Claims
-- the block as a whole

/-- A step takes the command at the front of the queue and runs it on the state with the queue's rest. Every command, whatever
its operands, completes in every state: the spec stops the block nowhere, and what a command refuses, counts or leaves alone
is a next state too. -/
def Obligations.StepTakesFrontCommand : Prop :=
  (∀ (i : Instr) (rest : List Instr) (s : State), s.pending = i :: rest → step s = exec i { s with pending := rest }) ∧
    ∀ (i : Instr) (s : State), ∃ t, exec i s = .next t

/-- On an empty queue a step is a nominal period of TBCLK (the model's choice, log entry 2; R17, R398): the tick counter of a
running timebase counts one, the queue stays empty, and no register, pin, supply, setting or NV byte changes; no memory byte
does, where no core runs, no command's pass is under way, no fault record is on its way to the log and no counter word has
been found in error since the last tick (R506). -/
def Obligations.IdleStepIsOneTick : Prop :=
  ∀ (s : State), s.pending = [] → ∃ t, step s = .next t ∧ t.pending = [] ∧
    t.tb.tick = (if s.tb.counting && !s.clk.holding then s.tb.tick + 1 else s.tb.tick) ∧
    t.regs = s.regs ∧ t.gpio = s.gpio ∧ t.pw = s.pw ∧ t.rails = s.rails ∧ t.nv = s.nv ∧ t.cfg = s.cfg ∧
    t.clk.onLantern = s.clk.onLantern ∧ t.clk.holding = s.clk.holding ∧ t.clk.locked = s.clk.locked ∧
    (s.cores = [] → s.dbm.pass = none → s.flt.logged = none → s.cnt.found = [] → t.mem = s.mem)

/-- The memory map keeps its canonical form through every step: addresses strictly rise, and no listed byte is 0 (what an
unlisted byte reads as: log entry 7). And no step leaves counts held back for a Glint when it ends: what a step counts on a
Glint's behalf it has put among that Glint's own counts (R126). -/
def Obligations.StepKeepsMemoryCanonical : Prop :=
  ∀ (s t : State), step s = .next t →
    (Memory.wf s.mem = true → Memory.wf t.mem = true) ∧ (s.holdFor = none → t.holdFor = none)

/-- Reset: memory is canonical and nothing waits; start-up stands at its first phase and no domain is live; every register
reads its Cold value (the Cold columns of the register maps; where a map gives none, 0, log entry 4), no tick has been
counted, no lock has an owner, no mailbox, fault or event waits, and every counter is 0. -/
def Obligations.ResetIsCold : Prop :=
  Memory.wf State.reset.mem = true ∧ State.reset.pending = [] ∧ State.reset.outbox = [] ∧ State.reset.holdFor = none ∧ State.reset.phase = 0 ∧
    (∀ d, State.reset.live d = false) ∧ (∀ n ix, State.reset.rd n ix = State.reset.coldWord n ix) ∧
    State.reset.rd .hifFltIen [] = 2 ∧ State.reset.rd .gpiCtrl [] = 0x1400 ∧ State.reset.tb.tick = 0 ∧
    (∀ n, (State.reset.lock n).owner = 0) ∧ State.reset.flt.queue = [] ∧ State.reset.dbm.events = [] ∧
    ∀ k, (State.reset.pkgNode k).value = 0

/-- Decoding what a Facet instruction's word spells gives the instruction back, every operand at every value that the encoding
admits (R251, R252, R256–R258, R260, R266–R271). Each word spells at most one instruction, and every word that spells one is
the word of that instruction: no bit of it is dropped. -/
def Obligations.FacetCodesAgree : Prop :=
  (∀ (i : Instr) (w : Word), facetWord i = some w → ∃ c, facetDecode c w = some i) ∧
  (∀ (c : Core) (w : Word) (i : Instr), facetDecode c w = some i → facetWord i = some w)
-- Facet operations

/-- ADD, SUB, ADDS, SUBS, AND, OR, XOR (R255, R257, R258): a form that carries no moves writes its result and flags, moves on,
and changes nothing else. ADD2, SUB2, ADD2S, MAX, MIN of two registers, and MOV, ABS of one (R255, R257, R258), in a form that
carries no moves. -/
def Obligations.IntegerOperationsComplete : Prop :=
  (∀ (c : Core) (s : State) (f : AluForm) (d : Fin 16) (x y : Word),
     Ready 1 c.val s → operands (s.core c.val) f = some (d, x, y) →
     Runs (.add c f) c.val s (after (s.core c.val)
       (int d (x + y) (some (decide (2 ^ 32 ≤ x.toNat + y.toNat))) (some (beyond 32 (x.toInt + y.toInt))) false)) ∧
     Runs (.sub c f) c.val s (after (s.core c.val)
       (int d (x - y) (some (decide (y.toNat ≤ x.toNat))) (some (beyond 32 (x.toInt - y.toInt))) false)) ∧
     Runs (.adds c f) c.val s (after (s.core c.val)
       (int d (BitVec.ofInt 32 (nearest 32 (x.toInt + y.toInt))) (some (decide (2 ^ 32 ≤ x.toNat + y.toNat)))
         (some (beyond 32 (x.toInt + y.toInt))) (beyond 32 (x.toInt + y.toInt)))) ∧
     Runs (.subs c f) c.val s (after (s.core c.val)
       (int d (BitVec.ofInt 32 (nearest 32 (x.toInt - y.toInt))) (some (decide (y.toNat ≤ x.toNat)))
         (some (beyond 32 (x.toInt - y.toInt))) (beyond 32 (x.toInt - y.toInt)))) ∧
     Runs (.and c f) c.val s (after (s.core c.val) (int d (x &&& y) (some false) (some false) false)) ∧
     Runs (.or c f) c.val s (after (s.core c.val) (int d (x ||| y) (some false) (some false) false)) ∧
     Runs (.xor c f) c.val s (after (s.core c.val) (int d (x ^^^ y) (some false) (some false) false))) ∧
  ((∀ (c : Core) (s : State) (f : AluForm) (d : Fin 16) (x y : Word),
     Ready 1 c.val s → registers (s.core c.val) f = some (d, x, y) →
     Runs (.add2 c f) c.val s (after (s.core c.val) (int d (lanes (high x + high y) (low x + low y)) (some false)
       (some (beyond 16 (low x + low y) || beyond 16 (high x + high y))) false)) ∧
     Runs (.sub2 c f) c.val s (after (s.core c.val) (int d (lanes (high x - high y) (low x - low y)) (some false)
       (some (beyond 16 (low x - low y) || beyond 16 (high x - high y))) false)) ∧
     Runs (.add2s c f) c.val s (after (s.core c.val)
       (int d (lanes (nearest 16 (high x + high y)) (nearest 16 (low x + low y))) (some false)
         (some (beyond 16 (low x + low y) || beyond 16 (high x + high y)))
         (beyond 16 (low x + low y) || beyond 16 (high x + high y)))) ∧
     Runs (.max c f) c.val s (after (s.core c.val)
       (int d (if x.toInt < y.toInt then y else x) (some false) (some false) false)) ∧
     Runs (.min c f) c.val s (after (s.core c.val)
       (int d (if y.toInt < x.toInt then y else x) (some false) (some false) false))) ∧
   (∀ (c : Core) (s : State) (f : AluForm) (d : Fin 16) (x : Word),
     Ready 1 c.val s → source (s.core c.val) f = some (d, x) →
     Runs (.mov c f) c.val s (after (s.core c.val) (int d x (some false) (some false) false)) ∧
     Runs (.abs c f) c.val s (after (s.core c.val) (int d (if x = 0x80000000 then 0x7FFFFFFF else if x.msb then -x else x)
       (some false) (some (decide (x = 0x80000000))) (decide (x = 0x80000000))))))

/-- CLR, MUL, MAC, MSU, MAC2, MSU2, MACL, MSUL (R257, R259, R260) in a form that carries no moves: the accumulator takes the
exact result, modulo 2^80. MFAL, MFAH, MFAG, MTAL, MTAH, MTAG, ASH, ADDA, SUBA, MOVA, NEGA, EXPA (R260, R261, R263). -/
def Obligations.AccumulatorOperationsComplete : Prop :=
  ((∀ (c : Core) (s : State) (f : AccForm) (a : Fin 4) (x y : Word),
     Ready 1 c.val s → factors (s.core c.val) f = some (a, x, y) →
     ∀ (old lo hi full : Int), old = ((s.core c.val).getA a).toInt → lo = times (s.core c.val) (low x) (low y) →
     hi = times (s.core c.val) (high x) (high y) → full = times (s.core c.val) x.toInt y.toInt →
     Runs (.mul c f) c.val s (after (s.core c.val) (wrote a lo)) ∧
     Runs (.mac c f) c.val s (after (s.core c.val) (wrote a (old + lo))) ∧
     Runs (.msu c f) c.val s (after (s.core c.val) (wrote a (old - lo))) ∧
     Runs (.mac2 c f) c.val s (after (s.core c.val) (wrote a (old + lo + hi))) ∧
     Runs (.msu2 c f) c.val s (after (s.core c.val) (wrote a (old - lo - hi))) ∧
     Runs (.macl c f) c.val s (after (s.core c.val) (wrote a (old + full))) ∧
     Runs (.msul c f) c.val s (after (s.core c.val) (wrote a (old - full)))) ∧
   (∀ (c : Core) (s : State) (f : AccForm) (a : Fin 4), Ready 1 c.val s → cleared f = some a →
     Runs (.clr c f) c.val s (after (s.core c.val) (took a 0)))) ∧
  (∀ (c : Core) (s : State) (d : Fin 16) (a b : Fin 4) (k : BitVec 7) (n : Nat) (v u : Acc), Ready 1 c.val s →
     v = (s.core c.val).getA a → u = (s.core c.val).getA b →
     Runs (.mfal c d a) c.val s (after (s.core c.val) fun q => q.setX d (BitVec.ofNat 32 v.toNat)) ∧
     Runs (.mfah c d a) c.val s (after (s.core c.val) fun q => q.setX d (BitVec.ofNat 32 (v.toNat / 2 ^ 32))) ∧
     Runs (.mfag c d a) c.val s (after (s.core c.val) fun q => q.setX d (BitVec.ofInt 32 (v.toInt.fdiv (2 ^ 64)))) ∧
     Runs (.mtal c a d) c.val s (after (s.core c.val) fun q => took a (v.extractLsb' 32 48 ++ q.getX d) q) ∧
     Runs (.mtah c a d) c.val s (after (s.core c.val) fun q =>
       took a (v.extractLsb' 64 16 ++ q.getX d ++ v.extractLsb' 0 32) q) ∧
     Runs (.mtag c a d) c.val s (after (s.core c.val) fun q =>
       took a ((q.getX d).extractLsb' 0 16 ++ v.extractLsb' 0 64) q) ∧
     (0 ≤ k.toInt → Runs (.ash c a k) c.val s (after (s.core c.val) (wrote a (v.toInt * 2 ^ k.toInt.toNat)))) ∧
     (k.toInt < 0 → Runs (.ash c a k) c.val s (after (s.core c.val)
       (took a (BitVec.ofInt 80 (rnd (fld (s.core c.val).st 9 2) v.toInt (-k.toInt).toNat))))) ∧
     Runs (.adda c a b) c.val s (after (s.core c.val) (wrote a (v.toInt + u.toInt))) ∧
     Runs (.suba c a b) c.val s (after (s.core c.val) (wrote a (v.toInt - u.toInt))) ∧
     Runs (.mova c a b) c.val s (after (s.core c.val) (took a u)) ∧
     Runs (.nega c a b) c.val s (after (s.core c.val) (wrote a (-u.toInt))) ∧
     (Redundant v n →
       Runs (.expa c d a) c.val s (after (s.core c.val) (int d (BitVec.ofInt 32 ((n : Int) - 16)) none none false))))

/-- SHL, SHR, ASR and CMP, MULW, NORM, EXPN, MOVI and NOP (R255, R257, R258, R263): results, flags and nothing else. EXTH,
EXTW, EXTS, and PKN, PKNX, MAXI, MINI as R264 and R265 step them (R257, R260, R262). PKNX runs in a package at FL2 (R265). -/
def Obligations.ShiftsExtractionsAndSearchesComplete : Prop :=
  ((∀ (c : Core) (s : State) (f : ShForm) (d : Fin 16) (x : Word) (k : Nat),
     Ready 1 c.val s → shift (s.core c.val) f = some (d, x, k) →
     Runs (.shl c f) c.val s (after (s.core c.val)
       (int d (BitVec.ofNat 32 (x.toNat * 2 ^ k)) (some (decide (x.toNat * 2 ^ k / 2 ^ 32 % 2 = 1 ∧ k ≠ 0)))
         (some false) false)) ∧
     Runs (.shr c f) c.val s (after (s.core c.val)
       (int d (BitVec.ofNat 32 (x.toNat / 2 ^ k)) (some (decide (2 * x.toNat / 2 ^ k % 2 = 1 ∧ k ≠ 0)))
         (some false) false)) ∧
     Runs (.asr c f) c.val s (after (s.core c.val)
       (int d (BitVec.ofInt 32 (x.toInt.fdiv (2 ^ k))) (some (decide ((2 * x.toInt).fdiv (2 ^ k) % 2 = 1 ∧ k ≠ 0)))
         (some false) false))) ∧
   (∀ (c : Core) (s : State) (f : ShForm) (x y : Word),
     Ready 1 c.val s → compared (s.core c.val) f = some (x, y) →
     Runs (.cmp c f) c.val s (after (s.core c.val) fun q =>
       { int 0 (x - y) (some (decide (y.toNat ≤ x.toNat))) (some (beyond 32 (x.toInt - y.toInt))) false q with x := q.x })) ∧
   (∀ (c : Core) (s : State) (d i j : Fin 16) (n : Nat) (imm : BitVec 16), Ready 1 c.val s →
     Runs (.mulw c d i j) c.val s (after (s.core c.val)
       (int d (BitVec.ofInt 32 (((s.core c.val).getX i).toInt * ((s.core c.val).getX j).toInt)) (some false) (some false)
         false)) ∧
     (Redundant ((s.core c.val).getX i) n →
       Runs (.expn c d i) c.val s (after (s.core c.val) (int d (BitVec.ofNat 32 n) none none false)) ∧
       Runs (.norm c d i) c.val s (after (s.core c.val)
         (int d (BitVec.ofNat 32 (((s.core c.val).getX i).toNat * 2 ^ n)) none none false))) ∧
     Runs (.movi c false d imm) c.val s (after (s.core c.val) fun q => q.setX d (imm.signExtend 32)) ∧
     Runs (.movi c true d imm) c.val s (after (s.core c.val) fun q => q.setX d (imm ++ (q.getX d).extractLsb' 0 16)) ∧
     Runs (.nop c ⟨none, none⟩) c.val s (after (s.core c.val) id))) ∧
  ((∀ (c : Core) (s : State) (f : AccForm) (a : Fin 4) (d : Fin 16) (v : Int), Ready 1 c.val s →
     single f = some (a, d) → v = ((s.core c.val).getA a).toInt →
     Runs (.exth c f) c.val s (after (s.core c.val) (extracted d 16 (rnd (fld (s.core c.val).st 9 2) v 16))) ∧
     Runs (.extw c f) c.val s (after (s.core c.val) (extracted d 32 v)) ∧
     Runs (.pkn c f) c.val s (after (s.core c.val) fun q => q.setA a (peak .pkn (q.getA a) (q.getX d))) ∧
     Runs (.maxi c f) c.val s (after (s.core c.val) fun q => q.setA a (peak .maxi (q.getA a) (q.getX d))) ∧
     Runs (.mini c f) c.val s (after (s.core c.val) fun q => q.setA a (peak .mini (q.getA a) (q.getX d)))) ∧
   (∀ (c : Core) (s : State) (f : AccForm) (a : Fin 4) (x y : Word), Ready 1 c.val s →
     factors (s.core c.val) f = some (a, x, y) → s.fl2 = true →
     Runs (.pknx c f) c.val s (after (s.core c.val) fun q => q.setA a (pknx (q.getA a) x y))) ∧
   (∀ (c : Core) (s : State) (d : Fin 16) (a : Fin 4) (k : BitVec 7) (v : Int), Ready 1 c.val s → k.toNat < 64 →
     v = ((s.core c.val).getA a).toInt →
     Runs (.exts c d a k) c.val s (after (s.core c.val)
       (extracted d 32 (if k = 0 then v else rnd (fld (s.core c.val).st 9 2) v k.toNat)))))
/-- LD.W, LD.H, LD.HU, LD.B, LD.BU and LR from the core's own memory (R213, R218, R266, R267), whose banks are free: the
value's extension, the post-modify from the pointer before the instruction, and LR's reservation. ST.W, ST.H, ST.B and SC to
the core's own memory (R213, R215, R218, R266, R267), with no injection in force: the bytes of the store, every other byte as
before; a SC whose reservation names another line stores nothing. -/
def Obligations.NearMovesComplete : Prop :=
  (∀ (c : Core) (s : State) (f : LsForm) (xd : Fin 16) (a : Nat) (m : Tbl Word), Ready 1 c.val s →
     BanksFree (s.core c.val) →
     a = ((s.core c.val).getP f.p).toNat → m = (s.core c.val).dmem →
     (Near c.val (s.core c.val) f.p 4 →
       Runs (.ldW c f) c.val s (after (s.core c.val) (loaded c.val f (BitVec.ofNat 32 (bytesIn m a 4)))) ∧
       Runs (.lr c xd f.p) c.val s (after (s.core c.val) fun q =>
         { q.setX xd (BitVec.ofNat 32 (bytesIn m a 4)) with resv := some (.near (a / 64)) })) ∧
     (Near c.val (s.core c.val) f.p 2 →
       Runs (.ldH c f) c.val s (after (s.core c.val) (loaded c.val f ((BitVec.ofNat 16 (bytesIn m a 2)).signExtend 32))) ∧
       Runs (.ldHu c f) c.val s (after (s.core c.val) (loaded c.val f (BitVec.ofNat 32 (bytesIn m a 2))))) ∧
     (Near c.val (s.core c.val) f.p 1 →
       Runs (.ldB c f) c.val s (after (s.core c.val) (loaded c.val f ((BitVec.ofNat 8 (bytesIn m a 1)).signExtend 32))) ∧
       Runs (.ldBu c f) c.val s (after (s.core c.val) (loaded c.val f (BitVec.ofNat 32 (bytesIn m a 1)))))) ∧
  (∀ (c : Core) (s : State) (f : LsForm) (xd : Fin 16) (a : Nat) (v : Word), Ready 1 c.val s → Plain s →
     BanksFree (s.core c.val) → a = ((s.core c.val).getP f.p).toNat → v = (s.core c.val).getX f.xr →
     (Near c.val (s.core c.val) f.p 4 →
       Stores (.stW c f) c.val s a 4 v (after (s.core c.val) (moved c.val f)) ∧
       ((s.core c.val).resv = some (.near (a / 64)) →
         Stores (.sc c xd f.xr f.p) c.val s a 4 v (scAfter (s.core c.val) xd 0)) ∧
       ((s.core c.val).resv ≠ some (.near (a / 64)) →
         Runs (.sc c xd f.xr f.p) c.val s (scAfter (s.core c.val) xd 1))) ∧
     (Near c.val (s.core c.val) f.p 2 → Stores (.stH c f) c.val s a 2 v (after (s.core c.val) (moved c.val f))) ∧
     (Near c.val (s.core c.val) f.p 1 → Stores (.stB c f) c.val s a 1 v (after (s.core c.val) (moved c.val f))))

/-- MOVP, MOVM, ADDP, MTP, MFP, MTM, MFM (R209, R240, R268): pointers and modifiers in their widths, 18 bits on a Facet and 32
on the Lamp (core 1024). A parallel instruction with moves (R214, R218, R219, R252) whose moves reach the core's own memory,
aligned, in free banks without a conflict, no injection in force: the compute result, then the post-modify of each move from
the registers before, then the loads, slot 0 and slot 1; both stores, slot 0 and slot 1. -/
def Obligations.PointersAndParallelMovesComplete : Prop :=
  (∀ (c : Core) (s : State) (p m : Fin 8) (x : Fin 16) (imm : BitVec 18), Ready 1 c.val s →
     Runs (.movp c p imm) c.val s (after (s.core c.val) fun q => { q with p := q.p.set p.val (BitVec.ofNat 32 imm.toNat) }) ∧
     Runs (.movm c m imm) c.val s (after (s.core c.val) fun q => { q with m := q.m.set m.val (imm.signExtend 32) }) ∧
     Runs (.addp c p m) c.val s (after (s.core c.val) fun q =>
       { q with p := q.p.set p.val (pointer c.val (q.getP p + q.getM m)) }) ∧
     Runs (.mtp c p x) c.val s (after (s.core c.val) fun q => { q with p := q.p.set p.val (pointer c.val (q.getX x)) }) ∧
     Runs (.mfp c p x) c.val s (after (s.core c.val) fun q => q.setX x (q.getP p)) ∧
     Runs (.mtm c m x) c.val s (after (s.core c.val) fun q => { q with m := q.m.set m.val (modifier c.val (q.getX x)) }) ∧
     Runs (.mfm c m x) c.val s (after (s.core c.val) fun q => q.setX x (q.getM m))) ∧
  (∀ (c : Core) (s : State) (ua ub : Fin 8) (a : Fin 4) (mv : Moves) (i : Instr) (op : Op), Ready 1 c.val s →
     Plain s → BanksFree (s.core c.val) →
     (i, op) ∈ [(Instr.add c (.par ua ub mv), opAdd (.par ua ub mv)), (.sub c (.par ua ub mv), opSub (.par ua ub mv)),
       (.adds c (.par ua ub mv), opAdds (.par ua ub mv)), (.subs c (.par ua ub mv), opSubs (.par ua ub mv)),
       (.add2 c (.par ua ub mv), opAdd2 (.par ua ub mv)), (.sub2 c (.par ua ub mv), opSub2 (.par ua ub mv)),
       (.add2s c (.par ua ub mv), opAdd2s (.par ua ub mv)), (.and c (.par ua ub mv), opAnd (.par ua ub mv)),
       (.or c (.par ua ub mv), opOr (.par ua ub mv)), (.xor c (.par ua ub mv), opXor (.par ua ub mv)),
       (.mov c (.par ua ub mv), opMov (.par ua ub mv)), (.abs c (.par ua ub mv), opAbs (.par ua ub mv)),
       (.max c (.par ua ub mv), opMax (.par ua ub mv)), (.min c (.par ua ub mv), opMin (.par ua ub mv)),
       (.nop c mv, opNop mv), (.clr c (.par a 0 0 mv), opClr (.par a 0 0 mv)),
       (.mul c (.par a ua ub mv), opMul (.par a ua ub mv)), (.mac c (.par a ua ub mv), opMac (.par a ua ub mv)),
       (.msu c (.par a ua ub mv), opMsu (.par a ua ub mv)), (.mac2 c (.par a ua ub mv), opMac2 (.par a ua ub mv)),
       (.msu2 c (.par a ua ub mv), opMsu2 (.par a ua ub mv)), (.macl c (.par a ua ub mv), opMacl (.par a ua ub mv)),
       (.msul c (.par a ua ub mv), opMsul (.par a ua ub mv)), (.exth c (.par a ua 0 mv), opExth (.par a ua 0 mv)),
       (.extw c (.par a ua 0 mv), opExtw (.par a ua 0 mv)), (.pkn c (.par a ua 0 mv), opPkn (.par a ua 0 mv)),
       (.pknx c (.par a ua ub mv), opPknx true (.par a ua ub mv)), (.maxi c (.par a ua 0 mv), opMaxi (.par a ua 0 mv)),
       (.mini c (.par a ua 0 mv), opMini (.par a ua 0 mv))] →
     (∀ x, i ≠ .pknx c x ∨ s.fl2 = true) →
     (∀ m ∈ parMoves mv, Near c.val (s.core c.val) m.p 4) → (s.core c.val).bankConflict c.val (parMoves mv) = false →
     ∃ t, exec i s = .next t ∧
       let q := s.core c.val
       let at4 (m : MoveOp) : Nat := (q.getP m.p).toNat / 4
       let r := (parMoves mv).foldl (fun r m => match m.pm with
         | some k => r.setP c.val m.p (r.getP m.p + q.getM k)
         | none => r) (op.fn (issued q))
       let r := (parMoves mv).foldl (fun r m => if m.store then r else r.setX m.xr (Tbl.get 0 q.dmem (at4 m))) r
       Becomes c.val s t { CoreSt.retire { r with wait := none, passed := 0, got := [], near := [], undo := none } with
         dmem := (parMoves mv).foldl (fun d m => if m.store then Tbl.set 0 d (at4 m) (q.getX m.xr) else d) q.dmem,
         badD := (parMoves mv).foldl (fun d m => if m.store then Tbl.set 0 d (at4 m) 0 else d) q.badD })
/-- BR, CALL, JR and REP (R220, R222, R256, R269, R270) where they raise nothing: the target, the link, the levels. -/
def Obligations.FlowComplete : Prop :=
  ∀ (c : Core) (s : State) (q : CoreSt), q = s.core c.val →
    (∀ (cond : BitVec 4) (disp : BitVec 23), Ready 1 c.val s → taken q.fl cond = false →
      Runs (.br c cond disp) c.val s (CoreSt.retire (issued q))) ∧
    (∀ (cond : BitVec 4) (disp : BitVec 23), Ready 3 c.val s → taken q.fl cond = true → targetOk c.val q.pc disp →
      Runs (.br c cond disp) c.val s (branched q (BitVec.ofInt 32 (q.pc.toNat + 4 * disp.toInt)) (cond == 15))) ∧
    (∀ (disp : BitVec 23), Ready 3 c.val s → targetOk c.val q.pc disp →
      Runs (.call c disp) c.val s (branched q (BitVec.ofInt 32 (q.pc.toNat + 4 * disp.toInt)) true)) ∧
    (∀ (xs : Fin 16) (t : Nat), Ready 3 c.val s → t = (if c.val = 1024 then (q.getX xs).toNat else (q.getX xs).toNat % 16384) →
      t % 4 = 0 → Runs (.jr c xs) c.val s (branched q (BitVec.ofNat 32 t) false)) ∧
    (∀ (n : RepCount) (k : Word) (e : BitVec 12) (fin : Nat), Ready 1 c.val s →
      (n = .imm (BitVec.ofNat 14 k.toNat) ∧ k.toNat < 2 ^ 14 ∨ ∃ xs, n = .reg xs ∧ k = q.getX xs) →
      fin = q.pc.toNat + 4 * e.toNat → 0 < e.toNat → q.ld < 4 →
      (q.susp < q.ld → fin ≤ (level q.le (q.ld - 1)).toNat) →
      (k = 0 → Runs (.rep c n e) c.val s { issued q with pc := BitVec.ofNat 32 (fin + 4) }) ∧
      (k ≠ 0 → fin < 2 ^ 32 → (c.val = 1024 ∨ fin < 16384) → Runs (.rep c n e) c.val s
        { issued q with
          lc := setLevel q.lc q.ld k,
          ls := setLevel q.ls q.ld (q.pc + 4),
          le := setLevel q.le q.ld (BitVec.ofNat 32 fin),
          st := BitVec.ofNat 16 (q.st.toNat + 1),
          pc := q.pc + 4 }))

/-- RETE, WFI, IEN, IDIS of the Lamp in mode S (R242, R243, R271): the mode, the interrupt enable and the suspended levels.
What raises an exception as its own effect (R232–R234, R242, R243, R251, R271, R521): a word that is no instruction and BREAK
without a debugger end a Facet's item, or enter the Lamp's handler; BREAK under bk_halt at level FULL (2) halts the core. No
injection is in force; the item asks for no completion record and belongs to no Glint; the faulting address, which neither
has, is left open (a free value: log entry 1). -/
def Obligations.PrivilegedAndExceptionsComplete : Prop :=
  (∀ (c : Core) (s : State) (q : CoreSt), c.val = 1024 → q = s.core 1024 → bitOf q.st 4 = false → Ready 1 1024 s →
     Runs (.rete c) 1024 s { issued q with pc := q.epc, st := q.est, suspended := q.suspended.drop 1 } ∧
     Runs (.wfi c) 1024 s { CoreSt.retire (issued q) with wfi := true } ∧
     Runs (.ien c) 1024 s
       { CoreSt.retire (issued q) with st := setBit (CoreSt.retire (issued q)).st 5 true } ∧
     Runs (.idis c) 1024 s
       { CoreSt.retire (issued q) with st := setBit (CoreSt.retire (issued q)).st 5 false }) ∧
  (∀ (c : Core) (s : State) (w : Word) (i : Instr) (k : Nat) (q : CoreSt), q = s.core c.val → Ready 1 c.val s →
     Plain s → (i = .illegalInstruction c w ∧ facetDecode c w = none ∧ k = 1 ∨
       i = .break_ c ∧ (q.dbg.bkHalt && s.dbg.level == 2) = false ∧ k = 7) →
     (∀ it, c.val ≠ 1024 → q.item = some it → descSpec it.desc = false → bitOf (dword it.desc 4) 4 = false →
       ∃ t a, exec i s = .next t ∧ t = { s with cores := t.cores, cnt := t.cnt, freeCtr := t.freeCtr } ∧
         CoreBecomes c.val s t { (issued q).giveUp.dropItem with lastExc := BitVec.ofNat 12 k, lastAddr := a } ∧
         Counted s t (cn 6 1) (c.val / 256) (c.val / 16 % 16) 1) ∧
     (c.val = 1024 → bitOf q.st 7 = false →
       ∃ t a, exec i s = .next t ∧ t = { s with cores := t.cores, cnt := t.cnt, freeCtr := t.freeCtr } ∧
         CoreBecomes c.val s t (lampExcepted (BitVec.ofNat 32 k) a (issued q)) ∧
         Counted s t (cn 6 6) hub 0 1) ∧
     (s.dbg.level = 2 → q.dbg.bkHalt = true → q.dbg.groupEn = false → ∃ t, exec (.break_ c) s = .next t ∧
       t = { s with cores := t.cores, cnt := t.cnt } ∧
       CoreBecomes c.val s t { issued q with
         resv := none,
         dbg := { q.dbg with halted := true, stopping := false, stepping := false, cause := 3 } } ∧
       Counted s t (cn 17 1) hub 0 1))

/-- A reserved form raises ILLEGAL (R257, R258, R260): the registers and the flags of a Facet that runs an item stay as they
were, and the item is gone. -/
def Obligations.ReservedFormsAreIllegal : Prop :=
  ∀ (c : Core) (s : State) (i : Instr) (it : Item) (q : CoreSt), q = s.core c.val → Ready 1 c.val s → c.val ≠ 1024 →
    q.item = some it → descSpec it.desc = false → bitOf (dword it.desc 4) 4 = false → Plain s →
    (∃ xd xs k f, f = AluForm.alui xd xs k ∧
      i ∈ [Instr.add2 c f, .sub2 c f, .add2s c f, .mov c f, .abs c f, .max c f, .min c f]) ∨
    (∃ xd xs xt, xt ≠ 0 ∧ (i = .mov c (.alu3 xd xs xt) ∨ i = .abs c (.alu3 xd xs xt))) ∨
    (∃ xd xs k, 64 ≤ BitVec.toNat k ∧ (i = .shl c (.alui xd xs k) ∨ i = .shr c (.alui xd xs k) ∨ i = .asr c (.alui xd xs k))) ∨
    (∃ xd xs xt, xd ≠ 0 ∧ i = .cmp c (.alu3 xd xs xt)) ∨
    (∃ a k xd, 64 ≤ BitVec.toNat k ∧ i = .exts c xd a k) ∨
    (∃ f, s.fl2 = false ∧ i = .pknx c f) ∨
    i ∈ [Instr.rete c, .wfi c, .ien c, .idis c] →
    ∃ t a, exec i s = .next t ∧ t = { s with cores := t.cores, cnt := t.cnt, freeCtr := t.freeCtr } ∧
      CoreBecomes c.val s t { (issued q).giveUp.dropItem with lastExc := 1, lastAddr := a }
/-- R254's rounding of a / 2^s, for s ≥ 1: half up adds half and takes the floor; half to even gives a nearest number, and of
two equally near the even one; the others are the floor and the quotient toward zero. -/
def Obligations.RoundingFollowsR254 : Prop :=
  ∀ (a : Int) (s : Nat), 1 ≤ s →
    rnd 0 a s = (a + 2 ^ (s - 1)).fdiv (2 ^ s) ∧ rnd 2 a s = a.fdiv (2 ^ s) ∧ rnd 3 a s = a.tdiv (2 ^ s) ∧
    (∀ q : Int, q = rnd 1 a s → 2 * (a - q * 2 ^ s).natAbs ≤ 2 ^ s ∧ (2 * (a - q * 2 ^ s).natAbs = 2 ^ s → q % 2 = 0))

/-- R255's flags. An integer operation sets z and n from its result and c and v where its row names them; setting v sets sv, a
clamp sets ssat, and the sticky bits stay set otherwise. An accumulator write sets az, an and av, and sov where it wrapped. No
other bit changes. -/
def Obligations.FlagsFollowR255 : Prop :=
  (∀ (r : AluRes) (fl : BitVec 16) (i : Nat), i < 16 → bitOf (r.flags fl) i =
    if i = 0 then r.z else if i = 1 then r.n else if i = 2 then r.c.getD (bitOf fl 2) else if i = 3 then r.v.getD (bitOf fl 3)
    else if i = 8 then bitOf fl 8 || r.ssat else if i = 10 then bitOf fl 10 || r.v == some true else bitOf fl i) ∧
  (∀ (w : Word) (c v : Option Bool) (k : Bool), (plainRes w c v k).z = decide (w = 0) ∧
    (plainRes w c v k).n = decide (w.toInt < 0)) ∧
  (∀ (r : AccRes) (fl : BitVec 16) (i : Nat), i < 16 → bitOf (r.flags fl) i =
    if i = 4 then decide (r.val = 0) else if i = 5 then decide (r.val.toInt < 0)
    else if i = 6 then decide (r.val.toInt < -2 ^ 63 ∨ 2 ^ 63 ≤ r.val.toInt) else if i = 9 then bitOf fl 9 || r.sov
    else bitOf fl i)

/-- R256's conditions; and a taken branch whose condition is CALL, on a core that can issue and whose target lies inside its
instructions, leaves the branch's offset + 4 in x15. -/
def Obligations.ConditionsFollowR256 : Prop :=
  (∀ (fl : BitVec 16) (z n c v az an av : Bool), z = bitOf fl 0 → n = bitOf fl 1 → c = bitOf fl 2 → v = bitOf fl 3 →
    az = bitOf fl 4 → an = bitOf fl 5 → av = bitOf fl 6 →
    taken fl 0 = true ∧ taken fl 1 = z ∧ taken fl 2 = !z ∧ (taken fl 3 = true ↔ n ≠ v) ∧ (taken fl 4 = true ↔ n = v) ∧
    (taken fl 5 = true ↔ z = false ∧ n = v) ∧ (taken fl 6 = true ↔ z = true ∨ n ≠ v) ∧ taken fl 7 = !c ∧ taken fl 8 = c ∧
    taken fl 9 = az ∧ taken fl 10 = !az ∧ taken fl 11 = an ∧ taken fl 12 = !an ∧ taken fl 13 = av ∧ taken fl 14 = v ∧
    taken fl 15 = true) ∧
  (∀ (c : Core) (s : State) (disp : BitVec 23), Ready 3 c.val s → targetOk c.val (s.core c.val).pc disp →
    ∃ q, Runs (.br c 15 disp) c.val s q ∧ q.getX 15 = (s.core c.val).pc + 4)

/-- SYS NOP, END, FENCE, MFC and MTC (R211, R227, R235, R271, R272, R275): END on a Facet starts the drain; FENCE holds the
next instruction; MFC reads and MTC writes a control register that the core may reach; a write of dctl queues a transfer. A
read of a control register that was just written gives the value in the register's width (R211, R253, R255, R272), and every
other listed register reads as before; a write of a read-only number changes nothing. -/
def Obligations.ControlRegistersComplete : Prop :=
  (∀ (c : Core) (s : State) (q : CoreSt), q = s.core c.val →
     (Ready 1 c.val s →
       Runs (.sysNop c) c.val s (CoreSt.retire (issued q)) ∧
       Runs (.fence c) c.val s { CoreSt.retire (issued q) with fencing := true } ∧
       (c.val ≠ 1024 → Runs (.end_ c) c.val s { CoreSt.retire (issued q) with ending := true }) ∧
       ∀ (xd : Fin 16) (cr : BitVec 6), q.crOk c.val cr.toNat = true →
         ∃ t, exec (.mfc c xd cr) s = .next t ∧
           Becomes c.val s t (CoreSt.retire ((issued q).setX xd ((clocked q (t.core c.val)).crRead c.val cr.toNat)))) ∧
     (Ready 4 c.val s → ∀ (cr : BitVec 6) (xs : Fin 16),
       (q.crOk c.val cr.toNat = true → cr ≠ 0x23 →
         Runs (.mtc c cr xs) c.val s (CoreSt.retire ((issued q).crWrite c.val cr.toNat (q.getX xs)))) ∧
       ∀ (len dev : Nat) (v : Word), v = q.getX xs → len = v.toNat % 2 ^ 17 →
         dev = q.ddaLo.toNat + 2 ^ 32 * q.ddaHi.toNat → q.glint = none → q.dmas.length < 4 → 4 ≤ len → len ≤ 65536 →
         q.dla.toNat % 32 = 0 → dev % 4 = 0 → q.dla.toNat + len ≤ (if c.val = 1024 then 0x400000 else 0x10000) →
         Runs (.mtc c 0x23 xs) c.val s (CoreSt.retire { issued q with
           dmas := q.dmas ++ [{ loc := q.dla, dev := BitVec.ofNat 48 dev, len := len, out := bitOf v 17 }],
           dblocked := false }))) ∧
  (∀ (q : CoreSt) (c n : Nat) (v : Word),
     (n ∈ [0x10, 0x11, 0x20, 0x21, 0x31, 0x35, 0x38, 4, 5, 6, 7] → (q.crWrite c n v).crRead c n = v) ∧
     (n ∈ [8, 9, 10, 11, 12, 13, 14, 15] →
       (q.crWrite c n v).crRead c n = if c = 1024 then v else BitVec.ofNat 32 (v.toNat % 2 ^ 14)) ∧
     (q.crWrite c 0x01 v).crRead c 0x01 = v &&& 0x77F ∧ (q.crWrite c 0x22 v).crRead c 0x22 = v &&& 0xFFFF ∧
     (q.crWrite c 0x30 v).crRead c 0x30 = v &&& 0xFFFFF000 ∧ (q.crWrite c 0x32 v).crRead c 0x32 = v &&& 0x0FFF ∧
     (q.crWrite c 0x37 v).crRead c 0x37 = v &&& 0x3FFFF ∧
     (q.crWrite c 0x00 v).crRead c 0x00 =
       (if c = 1024 ∧ bitOf q.st 4 = false then (q.st.setWidth 32 &&& 0xF01F) ||| (v &&& 0x0FE0)
         else (q.st.setWidth 32 &&& 0xF0FF) ||| (v &&& 0x0F00)) ∧
     (∀ m, m ≠ n → (q.crWrite c n v).crRead c m = q.crRead c m) ∧
     (n ∈ [0x12, 0x15, 0x16, 0x17, 0x24, 0x33, 0x34, 0x36] → q.crWrite c n v = q))
-- cores, their items and clusters

/-- Window accesses of a core (R223–R225, R266, R267) as they issue: an aligned load or LR through a window waits for its
data; an aligned store through the remote window is posted while fewer than 8 are unacknowledged, and the core moves on; a SC
that holds the reservation waits with its store out, and one that does not gives 1. REMOTE_LOAD_RESPONSE, STORE_ACK and
DMA_TRANSFER_DONE (R224, R225, R227, R231) where the device side answers without an error and changes nothing but what it
says, and no invalidation of a written line waits: the waiting load completes with the word it brought; the store leaves the
queue; the transfer at the front leaves the queue with its bytes in the core's memory and its bitmap clear. -/
def Obligations.WindowAccessesComplete : Prop :=
  (∀ (c : Core) (s : State) (f : LsForm) (xd : Fin 16) (q : CoreSt) (a dev : Nat), q = s.core c.val → Ready 1 c.val s →
     a = (q.getP f.p).toNat →
     (a % 4 = 0 → q.target c.val a false = .remote dev ∨ q.target c.val a false = .table dev → q.passed = 0 →
       Runs (.ldW c f) c.val s { issued q with wait := some (.ldW c f), near := [0], undo := none }) ∧
     (a % 4 = 0 → q.target c.val a false = .remote dev → inRegs dev = false → q.passed = 0 →
       Runs (.lr c xd f.p) c.val s { issued q with wait := some (.lr c xd f.p), near := [0], undo := none }) ∧
     (a % 4 = 0 → q.target c.val a true = .remote dev → q.stores.length < 8 → q.passed = 0 →
       Runs (.stW c f) c.val s (after q fun q => { moved c.val f q with
         stores := q.stores ++ [s.tagStore q { addr := BitVec.ofNat 48 dev, bytes := bytesOf (q.getX f.xr).toNat 4 }] })) ∧
     (a % 4 = 0 → q.target c.val a true = .remote dev → inRegs dev = false → q.stores.length < 8 →
       (q.resv = some (.remote (dev / 64)) → Runs (.sc c xd f.xr f.p) c.val s { issued q with
         stores := q.stores ++ [s.tagStore q
           { addr := BitVec.ofNat 48 dev, bytes := bytesOf (q.getX f.xr).toNat 4, sc := true }],
         wait := some (.sc c xd f.xr f.p) }) ∧
       (q.resv ≠ some (.remote (dev / 64)) →
         Runs (.sc c xd f.xr f.p) c.val s (scAfter q xd 1)))) ∧
  (∀ (c : Core) (s u v : State) (q : CoreSt) (errs : MemErrs), u = s.sync c.val → q = u.core c.val →
     s.coreLive c.val = true → (c.val = 1024 ∨ lag c.val s < (s.core c.val).bleft.toNat) →
     (∀ (f : LsForm) (dev : Nat) (x : Reply), q.wait = some (.ldW c f) → q.passed = 0 →
       q.got = [] → q.target c.val (q.getP f.p).toNat false = .remote dev → (q.stores.any fun y => y.addr.toNat / 64 == dev / 64) = false →
       (q.glint = none ∨ lockAt dev = false) → u.devRead (coreReq c.val q.glint) (some c.val) dev 4 errs = (x, u) →
       (∃ w, x = .word w) ∨ (∃ b0 b1 b2 b3 : Byte, x = .data [some b0, some b1, some b2, some b3]) →
       q.dbg.stepping = false → q.dbg.stopping = false →
       ∃ t, exec (.remoteLoadResponse c errs false) s = .next t ∧
         Becomes c.val u t (CoreSt.retire { loaded c.val f (replyLoad x) q with
           wait := none, passed := 0, got := [], near := [], undo := none })) ∧
     (∀ (k : Fin 8) (st : PendStore), q.stores[k.val]? = some st → st.sc = false → st.done = none → q.wait = none →
       ((q.stores.take k.val).any fun y => y.addr.toNat / 64 == st.addr.toNat / 64) = false → u.storeBlocked st = false →
       u.devWrite (coreReq c.val st.spec) (some c.val) st.addr.toNat st.bytes errs = (.ok, v) → v.core c.val = q →
       (∀ x ∈ v.noc.snoops, x.2 < st.addr.toNat / 64 ∨ (st.addr.toNat + st.bytes.length + 63) / 64 ≤ x.2) →
       ∃ t, exec (.storeAck c k errs false) s = .next t ∧
         Becomes c.val v t { q with stores := q.stores.take k.val ++ q.stores.drop (k.val + 1) }) ∧
     (∀ (d : Dma) (rest : List Dma) (bs : List Byte), q.dmas = d :: rest → d.out = false → d.done = none → d.due = [] → bs.length = d.len →
       0 < d.len → d.loc.toNat % 4 = 0 → Plain s → u.dmaRead (coreReq c.val none) c.val d.dev.toNat d.len errs = (bs.map .ok, u) →
       ∃ t, exec (.dmaTransferDone c errs) s = .next t ∧ t = { s with cores := t.cores } ∧ (t.core c.val).dmas = rest ∧
         (t.core c.val).dpart = false ∧ (t.core c.val).dbitmap = 0 ∧ (t.core c.val).x = q.x ∧ (t.core c.val).pc = q.pc ∧
         (c.val = 1024 → s.on domLMP = true → bitOf (t.core 1024).ipend 5 = true) ∧
         ∀ b, byteIn (t.core c.val).dmem b =
           if d.loc.toNat ≤ b ∧ b < d.loc.toNat + d.len then (bs.getD (b - d.loc.toNat) 0).toNat else byteIn q.dmem b))

/-- The life of an item (R209, R210, R234–R236, R282–R286): an eligible item of a list that has services left in the round
fills the prefetch slot of a core that runs none, and the list's services count it; at the start the registers take the values
of R209 and R210; an item that has drained ends, and one whose budget is used up aborts, their completion records not asked
for. An item that ends with its completion asked for writes R285's record to its ring: where the ring is enabled and full, the
record waits last in the hold queue, up to 16. -/
def Obligations.ItemsLive : Prop :=
  (∀ (core : Facet) (s : State) (c : Nat) (q : CoreSt), c = core.val → q = counted c s → s.coreLive c = true → Plain s →
     (∀ (list : Fin 64), (∃ x ∈ s.readyList (c / 256) list.val, s.eligible c x = true) →
       s.rb .schCtrl [c / 256] 0 = true → s.rb .cluCtrl [c / 16 / 16, c / 16 % 16] 0 = false →
       (s.core c).prefetch = none → (s.core c).item = none →
       Tbl.get 0 (s.sched (c / 256)).served list.val < s.rf .schList [c / 256, list.val, 0] 16 4 →
       ∃ t pre d post, exec (.itemDispatch core list) s = .next t ∧
         s.readyList (c / 256) list.val = pre ++ d :: post ∧ s.eligible c d = true ∧
         t = { s with cores := t.cores, scheds := t.scheds, freeCtr := t.freeCtr } ∧
         t.readyList (c / 256) list.val = pre ++ post ∧
         (∀ l, l ≠ list.val → t.readyList (c / 256) l = s.readyList (c / 256) l) ∧
         (∀ e, e ≠ c / 256 → t.sched e = s.sched e) ∧
         Tbl.get 0 (t.sched (c / 256)).served list.val = Tbl.get 0 (s.sched (c / 256)).served list.val + 1 ∧
         t.core c = { s.core c with prefetch := some { desc := d, list := list } } ∧ ∀ i, i ≠ c → t.core i = s.core i) ∧
     (∀ (it : Item), q.prefetch = some it → q.item = none → q.dbg.halted = false → (dword it.desc 0).toNat % 4 = 0 →
       ∃ t r, exec (.itemStart core) s = .next t ∧ t = { s with cores := t.cores } ∧ (∀ i, i ≠ c → t.core i = s.core i) ∧
         r = t.core c ∧ r.item = some it ∧ r.prefetch = none ∧
         r.getX 0 = dword it.desc 1 ∧ r.getX 1 = (dword it.desc 2) &&& 0xFFFF ∧ (∀ i : Fin 16, 2 ≤ i.val → r.getX i = 0) ∧
         (∀ i : Fin 4, r.getA i = 0) ∧ (∀ i : Fin 8, r.getP i = 0 ∧ r.getM i = 0) ∧
         (∀ i : Fin 4, r.lc.get i = 0 ∧ r.ls.get i = 0 ∧ r.le.get i = 0) ∧ r.fl = 0 ∧
         r.st = (if descSpec it.desc then 0x0908 else 0x0900) ∧ r.pc = (dword it.desc 0) &&& 0x3FFF ∧ r.rbase = 0 ∧
         r.tbase = 0 ∧ r.bleft = dword it.desc 3 ∧ r.cyc = q.cyc ∧ r.resv = none ∧ r.wait = none ∧ r.dmem = q.dmem ∧
         r.imem = q.imem) ∧
     (∀ (it : Item), q.item = some it → descSpec it.desc = false → bitOf (dword it.desc 4) 4 = false → q.ending = true →
       q.stores = [] → q.dmas = [] → ∃ t, exec (.itemEnd core) s = .next t ∧ t = { s with cores := t.cores, cnt := t.cnt } ∧
         CoreBecomes c s t q.dropItem ∧ Counted s t (cn 6 0) (c / 256) (c / 16 % 16) 1) ∧
     (∀ (it : Item), q.item = some it → descSpec it.desc = false → bitOf (dword it.desc 4) 4 = false → q.counts = true →
       ∃ t a, exec (.budgetTimeout core) s = .next t ∧ t = { s with cores := t.cores, cnt := t.cnt, freeCtr := t.freeCtr } ∧
         CoreBecomes c s t { q.giveUp.dropItem with lastExc := 8, lastAddr := a } ∧
         (t.core c).bleft = 0 ∧ (t.core c).cyc = q.cyc + q.bleft ∧
         Counted s t (cn 6 1) (c / 256) (c / 16 % 16) 1)) ∧
  (∀ (core : Facet) (s : State) (c r : Nat) (q : CoreSt) (it : Item), c = core.val → q = counted c s → s.coreLive c = true →
     Plain s → q.item = some it → descSpec it.desc = false → bitOf (dword it.desc 4) 4 = true → q.ending = true →
     q.stores = [] → q.dmas = [] → r = fld (dword it.desc 4) 0 4 → s.rb .schCringCtl [c / 256, r] 5 = true →
     s.cringFull (c / 256) r = true → (s.cring (c / 256) r).hold.length < 16 →
     ∃ t w, exec (.itemEnd core) s = .next t ∧
       t = { s with cores := t.cores, cnt := t.cnt, scheds := t.scheds } ∧
       t.cring (c / 256) r = { s.cring (c / 256) r with hold := (s.cring (c / 256) r).hold ++ [w] } ∧
       w.length = 8 ∧ w.getD 0 0 = dword it.desc 6 ∧
       (w.getD 1 0).toNat = c + 2 ^ 12 * b2n q.storeErr + 2 ^ 13 * b2n q.specBlocked ∧ w.getD 2 0 = 0 ∧ w.getD 3 0 = 0 ∧
       (q.bleft.toNat ≤ (dword it.desc 3).toNat → w.getD 4 0 = dword it.desc 3 - q.bleft) ∧
       (w.getD 5 0).toNat = it.list.val ∧ (w.getD 6 0).toNat + 2 ^ 32 * (w.getD 7 0).toNat = (s.tb.tick.toNat * 64) % 2 ^ 64)

/-- Clusters (R229–R231, R237–R239): a snoop drops its line and the filter's entry, and the answers that waited for nothing
else go out; CACHE_INVALIDATE drops every line and is busy; PARK sets the park bit and returns each prefetched item to its
list, and unparking clears it; LOADER_GO on a parked, idle cluster latches its source, span and cores and is busy. LOADER_DONE
(R238): where every word is read without error, each core of the mask holds the span's words at its place, and no other core's
memory changes. -/
def Obligations.ClustersComplete : Prop :=
  (∀ (r : Req) (cl : Cluster) (s : State) (k : Nat) (q : ClusterSt), k = cl.val → q = s.cluster k → r.spec = none →
     s.reaches r = true →
     (∀ (line : Addr) (rest : List (Nat × Nat)) (ends : List (Nat × Nat) × Output → Bool),
       (s.noc.snoops.contains (k, line.toNat / 64)) = true → rest = s.noc.snoops.filter (fun x => x != (k, line.toNat / 64)) →
       (∀ h, ends h = h.1.all fun x => !rest.contains x) → (∀ h ∈ s.noc.held, h.2.port? = none) →
       ∃ t, exec (.snoopInvalidate cl line) s = .next t ∧
         t = { s with clusters := t.clusters, noc := { s.noc with snoops := rest, held := t.noc.held }, outbox := t.outbox } ∧
         t.noc.held = s.noc.held.filter (fun h => !ends h) ∧ t.outbox = s.outbox ++ (s.noc.held.filter ends).map (·.2) ∧
         t.cluster k = { q with lines := q.lines.filter fun x => x != line.toNat / 64 } ∧
         ∀ j, j ≠ k → t.cluster j = s.cluster j) ∧
     (s.live (domFCA (k / 16)) = true →
       (s.rb .cluCtrl [k / 16, k % 16] 0 = false ∨ (∀ i ∈ clusterCores k, (s.core i).prefetch = none) →
         exec (.cacheInvalidate r cl) s = .next ((s.store .cluCtrl [k / 16, k % 16]
           (BitVec.ofNat 32 (s.rf .cluCtrl [k / 16, k % 16] 0 2 + 4))).setCluster k { q with lines := [], invBusy := true })) ∧
       (q.ldBusy = false →
         exec (.park r cl false) s = .next (s.store .cluCtrl [k / 16, k % 16]
           (BitVec.ofNat 32 (s.rf .cluCtrl [k / 16, k % 16] 1 1 * 2)))) ∧
       ((∀ i ∈ clusterCores k, (s.core i).prefetch = none) →
         exec (.park r cl true) s = .next (s.store .cluCtrl [k / 16, k % 16]
           (BitVec.ofNat 32 (s.rf .cluCtrl [k / 16, k % 16] 1 1 * 2 + 1)))) ∧
       (∀ (i : Nat) (it : Item), i ∈ clusterCores k → (s.core i).prefetch = some it →
         (∀ j ∈ clusterCores k, j ≠ i → (s.core j).prefetch = none) →
         exec (.park r cl true) s = .next (((s.store .cluCtrl [k / 16, k % 16]
           (BitVec.ofNat 32 (s.rf .cluCtrl [k / 16, k % 16] 1 1 * 2 + 1))).setCore i { s.core i with prefetch := none }).setReadyList
             (i / 256) it.list.val (s.readyList (i / 256) it.list.val ++ [it.desc]))) ∧
       ∀ (mask : BitVec 16) (src : Nat) (span : Word), s.parked k = true → q.ldBusy = false → mask ≠ 0 →
         src = s.rd64 .cluLdSrc [k / 16, k % 16] → span = s.rd .cluLdSpan [k / 16, k % 16] → src % 4 = 0 → 0 < fld span 16 13 →
         fld span 0 12 + fld span 16 13 ≤ 4096 →
         exec (.loaderGo r cl mask) s = .next ((s.store .cluLdCtrl [k / 16, k % 16]
           (BitVec.ofNat 32 (mask.toNat + 65536))).setCluster k { q with
             ldBusy := true,
             doneOk := false,
             failed := false,
             failMap := 0,
             ldCls := r.cls,
             ldSrc := BitVec.ofNat 48 src,
             ldSpan := span,
             ldMask := mask }))) ∧
  (∀ (cl : Cluster) (s : State) (k n first : Nat) (q : ClusterSt) (bs : List Byte), k = cl.val → q = s.cluster k →
     s.live (domFCA (k / 16)) = true → q.ldBusy = true → Plain s → first = fld q.ldSpan 0 12 →
     n = fld q.ldSpan 16 13 → 0 < n → n ≤ 1024 → first + n ≤ 4096 → bs.length = 4 * n →
     s.bufRead { cls := q.ldCls, rnum := BitVec.ofNat 8 (16 + k) } q.ldSrc.toNat (4 * n) [] = (bs.map .ok, s) →
     ∃ t, exec (.loaderDone cl []) s = .next t ∧ t = { s with cores := t.cores, clusters := t.clusters } ∧
       t.cluster k = { q with ldBusy := false, doneOk := true, failed := false, failMap := 0 } ∧
       (∀ c, c / 16 ≠ k ∨ bitOf q.ldMask (c % 16) = false → t.core c = s.core c) ∧
       ∀ c, c / 16 = k → bitOf q.ldMask (c % 16) = true → ∀ i,
         Tbl.get 0 (t.core c).imem i = if first ≤ i ∧ i < first + n
           then BitVec.ofNat 32 (wordOfBytes ((bs.drop (4 * (i - first))).take 4)) else Tbl.get 0 (s.core c).imem i)
-- the Lamp, schedulers, mailboxes and locks

/-- LAMP_INTERRUPT, LAMP_TIMER and the watchdog's commands (R243–R246, R250): the non-maskable interrupt before the lowest
pending line, whose bit clears; the timer, once cyc has passed its bound, raises line 4; an enable loads T1, an accepted kick
reloads it; stage 0 ends with line 0 and T2, stage 1 with a reset Lamp core. What ecause and eaddr hold after an interrupt is
left open (free values: log entry 1). -/
def Obligations.LampEventsComplete : Prop :=
  ∀ (s : State) (q : CoreSt), q = s.core 1024 → s.coreLive 1024 = true →
    (∀ (k : Nat) (st : BitVec 16) (pend : Word) (nmi : Bool), q.dbg.halted = false → q.wait = none →
      (q.nmiPend = true ∧ bitOf q.st 6 = false ∧ k = 1 ∧ st = setBit q.st 6 true ∧ pend = q.ipend ∧ nmi = false ∨
        (∃ n, (q.nmiPend && !bitOf q.st 6) = false ∧ bitOf q.st 5 = true ∧ n < 32 ∧ bitOf (q.ipend &&& q.imask) n = true ∧
          (∀ j, j < n → bitOf (q.ipend &&& q.imask) j = false) ∧ k = 2 + n ∧ st = q.st ∧
          pend = setBit q.ipend n false ∧ nmi = q.nmiPend)) →
      ∃ t a b, exec .lampInterrupt s = .next t ∧ t = { s with cores := t.cores, freeCtr := t.freeCtr } ∧
        (∀ i, i ≠ 1024 → t.core i = s.core i) ∧ t.core 1024 = { q with
          epc := q.pc,
          est := q.st,
          ecause := a,
          eaddr := b,
          st := setBit (setBit st 5 false) 4 false,
          suspended := q.st.toNat % 8 :: q.suspended,
          ipend := pend,
          nmiPend := nmi,
          wfi := false,
          pc := q.vbase + BitVec.ofNat 32 (64 * k) }) ∧
    (∃ t, exec .lampTimer s = .next t ∧ Becomes 1024 s t (counted 1024 s) ∧ bitOf (t.core 1024).ipend 4 = true ∧
      (t.core 1024).cyc = q.tcmp + 1) ∧
    (∀ (r : Req) (v : Word), r.spec = none → s.reaches r = true →
      exec (.watchdogEnable r v) s = .next (if bitOf v 0
        then { s.store .wdgCtrl [] v with wdg := { s.wdg with left := s.rd .wdgT1 [] } } else s.store .wdgCtrl [] v) ∧
      (r.cls = .lamp → fld v 0 16 = 0x4C4D →
        exec (.watchdogKick r v) s = .next { s with wdg := { s.wdg with left := s.rd .wdgT1 [], stage := false } })) ∧
    (s.rb .wdgCtrl [] 0 = true → (s.rb .wdgCtrl [] 1 = false ∨ q.dbg.halted = false) →
      (s.wdg.stage = false → exec .watchdogExpiry s = .next { s with
        wdg := { s.wdg with stage := true, left := s.rd .wdgT2 [] },
        cores := Tbl.set {} s.cores 1024 { q with ipend := setBit q.ipend 0 true } }) ∧
      (s.wdg.stage = true → Plain s → ∃ t, exec .watchdogExpiry s = .next t ∧
        t.wdg = { s.wdg with stage := false, left := s.rd .wdgT1 [] } ∧ (t.core 1024).pc = 0 ∧ (t.core 1024).st = 0x0900 ∧
        (∀ i, (t.core 1024).getX i = 0) ∧ (t.core 1024).imask = 0 ∧ (t.core 1024).dmem = q.giveUp.dmem ∧ t.regs = s.regs ∧
        (∀ n, n < 256 → (t.lock n).owner ≠ 2) ∧ (∀ i, i ≠ 1024 → t.core i = s.core i)))

/-- SCH_POST and SCHP_DESCRIPTOR (R276–R279, R281): a post within the list's quota stands last in the list, one beyond it is
FULL (1), and a bad descriptor is BAD_DESC (2): the result is counted, and a write is acknowledged whatever it is; the port,
where nothing waits in it, answers the code. Completion rings (R286): the record that waited longest is written where the ring
has room, at base + (prod mod 2^n) × 32, and prod counts it; a write that fails sets lost and counts; a write of cons within
2^n of prod is taken. -/
def Obligations.ListsAndRingsComplete : Prop :=
  (∀ (r : Req) (die : Die) (list : Fin 64) (desc : Desc) (s : State) (d l : Nat), d = die.val → l = list.val →
     s.live (domFCA d) = true → Plain s →
     ∀ (code : Nat) (u : State),
       (descOk desc = true ∧ s.heldItems d l < s.rf .schList [d, l, 0] 0 13 ∧ code = 0 ∧
           u = (s.setReadyList d l (s.readyList d l ++ [desc])).countRaw (cn 7 0) d l 1 ∨
         descOk desc = true ∧ s.rf .schList [d, l, 0] 0 13 ≤ s.heldItems d l ∧ code = 1 ∧
           u = (s.setSched d { s.sched d with fullSeen := setBit (s.sched d).fullSeen l true }).countRaw (cn 7 1) d l 1 ∨
         descOk desc = false ∧ code = 2 ∧ u = s.countRaw (cn 7 1) d l 1) →
       (r.spec = none → s.reaches r = true → desc.length = 16 →
         exec (.schPost r die list desc true) s = .next (if r.cls = .host then u else u.answer r .ok)) ∧
       (s.portAttached d 1 0 = true → (s.fab d).schQueue = [] → (s.portResp d 1).length < 64 →
         ∃ t, exec (.schpDescriptor die list desc) s = .next t ∧ t = { u with fabs := t.fabs } ∧ (t.fab d).schQueue = [] ∧
           t.portResp d 1 = s.portResp d 1 ++ [.portStatus die 1 code 0 0] ∧ ∀ e, e ≠ d → t.fab e = s.fab e)) ∧
  (∀ (r : Req) (die : Die) (ring : Fin 16) (s u : State) (v : Word) (d k a n : Nat) (w : List Word) (rest : List (List Word))
     (bs : List ByteRes), d = die.val → k = ring.val → n = s.rf .schCringCtl [d, k] 0 5 → Plain s →
     ((s.cring d k).hold = w :: rest → s.rb .schCringCtl [d, k] 5 = true →
       ((s.cring d k).prod - (s.cring d k).cons).toNat ≠ 2 ^ n →
       a = s.rd64 .schCringBase [d, k] + (s.cring d k).prod.toNat % 2 ^ n * 32 →
       ((s.setCring d k { s.cring d k with hold := rest }).memWrite engine a (w.flatMap fun v => bytesOf v.toNat 4) [] = (bs, u) →
         (∀ b ∈ bs, ∃ x, b = .ok x) →
         exec (.holdQueueRelease die ring false) s =
           .next (u.setCring d k { u.cring d k with prod := (u.cring d k).prod + 1 })) ∧
       exec (.holdQueueRelease die ring true) s =
         .next (((s.setCring d k { s.cring d k with hold := rest }).setCring d k
           { s.cring d k with hold := rest, lost := true }).countRaw (cn 7 4) d k 1)) ∧
     (r.spec = none → s.reaches r = true → s.live (domFCA d) = true → ((s.cring d k).prod - v).toNat ≤ 2 ^ n →
       exec (.cringConsWrite r die ring v) s = .next (s.setCring d k { s.cring d k with cons := v })))

/-- Mailboxes (R291–R294, R302): MBX_DATA adds a word to the sender's open message and MBX_LAST completes it; MBX_RX pops the
head message's next word and, in mode EMPTY_IRQ, the last word tells the sender; MBX_ACK puts its code in the sender's
MBX_ACKRD in mode ACK_REG, and MBX_ACKRD returns it and clears it. No notification is enabled here; a fabric port that has
room for the answer gets it. -/
def Obligations.MailboxesComplete : Prop :=
  ∀ (r : Req) (n : Fin 128) (s : State) (m : Mailbox) (b : Bool) (w : Word) (code : BitVec 16), m = s.mbx n.val →
    s.mbxTakes r = true → s.reaches r = true → r.spec = none → Plain s → m.valid = true →
    (if b then m.sideB = r.rnum ∧ m.sideA ≠ r.rnum else m.sideA = r.rnum) →
    (m.side (!b)).ienMsg = false → (m.side (!b)).ienAck = false →
    ((m.out b).words < 8 → (m.out b).opened.length < 7 →
      exec (.mbxData r n w) s = .next ((s.setMbx n.val
        (m.setOut b { m.out b with opened := (m.out b).opened ++ [w] })).portAnswer r .ok)) ∧
    ((m.out b).words < 8 → exec (.mbxLast r n w) s = .next (((s.setMbx n.val
      (m.setOut b { msgs := (m.out b).msgs ++ [(m.out b).opened ++ [w]], opened := [] })).countRaw (cn 7 5) hub
        (2 * n.val + b2n b) 1).portAnswer r .ok)) ∧
    (∀ (h : Word) (t : List Word) (rest : List (List Word)), (m.out (!b)).msgs = (h :: t) :: rest →
      exec (.mbxRx r n true) s = .next (s.mbxAnswer r (some h)) ∧
      (t ≠ [] → exec (.mbxRx r n false) s =
        .next ((s.setMbx n.val (m.setOut (!b) { m.out (!b) with msgs := t :: rest })).mbxAnswer r (some h))) ∧
      (t = [] → rest ≠ [] ∨ m.mode = true → exec (.mbxRx r n false) s =
        .next ((s.setMbx n.val (m.setOut (!b) { m.out (!b) with msgs := rest })).mbxAnswer r (some h))) ∧
      (t = [] → rest = [] → m.mode = false → ∃ u : State, exec (.mbxRx r n false) s = .next u ∧
        u = { s.mbxAnswer r (some h) with mbxs := u.mbxs } ∧ (∀ j, j ≠ n.val → u.mbx j = s.mbx j) ∧
        u.mbx n.val = (m.setOut (!b) { m.out (!b) with msgs := [] }).setSide (!b)
          { m.side (!b) with valid := true, empty := true })) ∧
    (m.mode = true → exec (.mbxAck r n code) s = .next ((s.setMbx n.val (m.setSide (!b) { m.side (!b) with
      code := code, valid := true, ovf := (m.side (!b)).ovf || (m.side (!b)).valid })).portAnswer r .ok)) ∧
    exec (.mbxAckrd r n true) s = .next (s.mbxAnswer r (some (m.side b).word)) ∧
    exec (.mbxAckrd r n false) s = .next ((s.setMbx n.val (m.setSide b { m.side b with
      code := 0, valid := false, ovf := false, empty := false })).mbxAnswer r (some (m.side b).word))

/-- Lock registers (R296–R298): a read by requester q, the release by the owner, and the end of a grace window. -/
def Obligations.LocksComplete : Prop :=
  ∀ (r : Req) (n : Fin 256) (s : State) (l : Lock) (k : Nat), l = s.lock n.val → k = n.val → Plain s →
    (r.spec = none → s.reaches r = true → s.live domSPN = true →
      (l.grace = true → r.rnum ≠ l.waiters.headD 0 → exec (.lockRead r n false) s =
        .next ((s.setLock k { l with waiters := if l.waiters.contains r.rnum ∨ 8 ≤ l.waiters.length then l.waiters
          else l.waiters ++ [r.rnum] }).answer r (.word (BitVec.ofNat 32 (l.waiters.headD 0).toNat)))) ∧
      (l.grace = false ∨ r.rnum = l.waiters.headD 0 → l.owner = 0 → exec (.lockRead r n false) s =
        .next ((s.setLock k { owner := r.rnum, waiters := l.waiters.filter fun w => w != r.rnum, grace := false }).answer r
          (.word 0))) ∧
      (l.grace = false ∨ r.rnum = l.waiters.headD 0 → l.owner ≠ 0 → exec (.lockRead r n false) s =
        .next ((s.setLock k { l with waiters :=
          if r.rnum = l.owner ∨ l.waiters.contains r.rnum ∨ 8 ≤ l.waiters.length then l.waiters
          else l.waiters ++ [r.rnum] }).answer r (.word (BitVec.ofNat 32 l.owner.toNat)))) ∧
      exec (.lockRead r n true) s = .next (s.answer r (.word (BitVec.ofNat 32 l.owner.toNat))) ∧
      (l.owner = r.rnum → r.rnum ≠ 0 → exec (.lockRelease r n 0) s =
        .next (s.setLock k { l with owner := 0, grace := decide (l.waiters ≠ []) })) ∧
      (∀ v, l.owner ≠ r.rnum ∨ v ≠ 0 → exec (.lockRelease r n v) s = .next (s.countRaw vioName hub 72 1))) ∧
    (l.grace = true → exec (.graceExpiry n) s = .next ((s.setLock k { l with
      waiters := l.waiters.drop 1, grace := decide (l.waiters.drop 1 ≠ []) }).countRaw (cn 7 7) hub 0 1))
-- lanes and the channel front end

/-- CLOCK_WINDOW, SWEEP_DONE, LSM_TRANSITION and LSM_TIMEOUT of a lane whose domain is on (R48–R52, R66): a window's count and
whether it passes at the bundle's rate; the phase in the middle of the longest clean run of at least 6, or a failure; the
first true exit rule's target, or else the timeout's, entered by its action; a lane that a rule of R52 holds is in state 0.
CODE_GROUP_RECEIVE at the held offset of a lane that is in no loopback (R38, R39, R50, R595), no injection in force: the
disparity moves on, the group is clean or in error, and between frames or inside one the receiver does what the group says. -/
def Obligations.LanesComplete : Prop :=
  (∀ (l : LaneId) (s : State) (n : Ln) (x : LaneSt), n = LaneId.ln l → x = s.lane n.key → Plain s → s.laneOn n = true →
     (∀ (count : Nat) (slow pass : Bool) (b : BundleSt), slow = s.rb .laneBctrl [n.d, n.b] 10 → b = s.bundle (n.d * 16 + n.b) →
       pass = (if slow then decide (60 ≤ count ∧ count ≤ 68) else decide (120 ≤ count ∧ count ≤ 136)) →
       ∃ u, u = s.setBundle (n.d * 16 + n.b) { count := BitVec.ofNat 8 (min count 255), last := some pass, before := b.last } ∧
         exec (.clockWindow l.die l.bundle count) s = .next (if pass then u else u.countRaw (cn 0 10) n.d n.b 1)) ∧
     (∀ (clean : SweepMap) (p k : Nat), x.sweeping = true → bestRun clean = (p, k) →
       (6 ≤ k → exec (.sweepDone l clean) s = .next (s.setLane n.key { x with
         sweeping := false, sweepOk := true, phase := BitVec.ofNat 5 (p + (k - 1) / 2), phaseValid := true })) ∧
       (k < 6 → exec (.sweepDone l clean) s = .next ((s.setLane n.key { x with
         sweeping := false, sweepFail := true, phase := 0, phaseValid := false }).countRaw (cn 0 8) n.d n.ix 1))) ∧
     (∀ (ev : LaneEvidence) (st act : Nat) (i : Instr) (lock : Bool), s.laneHeld n = false → st < 16 →
       ((i = .lsmTransition l ev ∨ i = .lsmTimeout l ev) ∧
           (∃ c, s.lsmExit n ev = some (c, st) ∧ lock = (c == 0x0B && ev.commaLock.isSome)) ∨
         i = .lsmTimeout l ev ∧ s.lsmExit n ev = none ∧ (s.lsmTimeoutOf n).1 ≠ 0 ∧ (s.lsmTimeoutOf n).2 = st ∧ lock = false) →
       act = s.lsmAction n.d (s.activeEpoch n.d) st →
       ∃ t, exec i s = .next t ∧ t.regs = s.regs ∧ (∀ k, k ≠ n.key → t.lane k = s.lane k) ∧
         (t.lane n.key).st = BitVec.ofNat 4 st ∧ (t.lane n.key).epoch = s.activeEpoch n.d ∧
         (t.lane n.key).sweeping = Nat.testBit act 2 ∧ (t.lane n.key).phaseValid = (x.phaseValid && !Nat.testBit act 2) ∧
         (t.lane n.key).offsetValid = ((x.offsetValid || lock) && !Nat.testBit act 3) ∧
         (t.lane n.key).anchorLatch = (x.anchorLatch && !Nat.testBit act 4) ∧
         (t.lane n.key).tries = (if Nat.testBit act 6 then 0 else if Nat.testBit act 5 && x.tries != 15 then x.tries + 1
           else x.tries) ∧
         (t.lane n.key).looping = Nat.testBit act 8 ∧ (t.lane n.key).eqOvr = x.eqOvr ∧
         (t.lane n.key).anchorValid = (x.anchorValid && decide (st ≠ 0))) ∧
     (∀ (ev : LaneEvidence), s.laneHeld n = true → ∃ t, exec (.lsmTransition l ev) s = .next t ∧ (t.lane n.key).st = 0 ∧
       (t.lane n.key).epoch = s.activeEpoch n.d ∧ ∀ k, k ≠ n.key → t.lane k = s.lane k)) ∧
  (∀ (l : LaneId) (s : State) (n : Ln) (x y z : LaneSt) (w : BitVec 20) (g : Group), n = LaneId.ln l → x = s.lane n.key →
     Plain s → s.laneOn n = true → s.rawMode n = false → x.looping = false → x.offsetValid = true →
     g = decodeGroup (w.toNat % 1024) x.rd →
     y = { x with groups := x.groups + 1, rd := groupDisparity (w.toNat % 1024) x.rd } →
     z = (if g = .codeError then { y with
         cleanRun := 0, commaRun := 0, errAny := true,
         errPos := (x.groups + 1) :: x.errPos.filter (fun p => decide (x.groups + 1 < p + 256)),
         errMost := max x.errMost ((x.errPos.filter fun p => decide (x.groups + 1 < p + 256)).length + 1) }
       else { y with
         cleanRun := min (x.cleanRun + 1) 64,
         commaRun := if g = .k28_5 then min (x.commaRun + 1) 3 else x.commaRun,
         errPos := x.errPos.filter fun p => decide (x.groups + 1 < p + 256) }) →
     ∃ t ts, exec (.codeGroupReceive l w) s = .next t ∧
       (x.rx = .idle → t = { s with lanes := t.lanes, cnt := t.cnt, freeCtr := t.freeCtr } ∧
         (∀ k, k ≠ n.key → t.lane k = s.lane k) ∧
         t.lane n.key = { z with rx := if g = .k27_7 then .frame [] else if g = .k28_3 then .anchor ts [] else .idle } ∧
         t.cnt = (if g = .codeError then s.countRaw (cn 0 0) n.d n.ix 1
           else if g = .k29_7 ∨ g = .foreign then s.countRaw (cn 0 1) n.d n.ix 1 else s).cnt) ∧
       (∀ ws, x.rx = .frame ws → s.isLit n = false → g = .codeError ∨ g = .k29_7 ∨ (∃ b, g = .data b) →
         t = { s with lanes := t.lanes, cnt := t.cnt, freeCtr := t.freeCtr } ∧ (∀ k, k ≠ n.key → t.lane k = s.lane k) ∧
         t.lane n.key = { z with rx := match g with
           | .data b => .frame (b.setWidth 20 :: ws)
           | .codeError => .dropped
           | _ => .idle } ∧
         t.cnt = (if g = .codeError then (s.countRaw (cn 0 0) n.d n.ix 1).countRaw (cn 0 3) n.d n.ix 1 else s).cnt))

/-- Writes of a lane's registers that are taken (R43, R47, R52, R57, R58, R62): LANE_BCTRL with its mode bits kept and raw
mode off changes the word, and every lane that it holds is in state 0; FLIP turns the active copy over, lanes held dark with
it; LANE_EQ_OVR takes its fields in state 0 at level FULL. FRAME_RECEIVE and ANCHOR_SEQUENCE in 8b/10b (R35, R38, R39, R41,
R73), the lane in no loopback: a whole frame is delivered by a LIT lane, and the Prism of a lane that is not enabled there
only counts its samples; an anchor's index and its timestamp, less the lane's offset, are held; one cut short is dropped. A
raw lane that is not LIT takes the index of the two words behind its anchor pattern, a frame of as many words as its format
gives, and a word that is neither as a framing error (R42). No injection is in force. -/
def Obligations.LaneRegistersAndFramesComplete : Prop :=
  (∀ (r : Req) (l : LaneId) (s : State) (n : Ln) (v : Word), n = LaneId.ln l → r.spec = none → s.reaches r = true →
     (s.live (domLG n.d n.b) = true → fld v 8 4 = fld (s.rd .laneBctrl [n.d, n.b]) 8 4 → bitOf v 11 = false →
       ∃ t, exec (.laneBctrlWrite r l.die l.bundle v) s = .next t ∧
         t.rd .laneBctrl [n.d, n.b] = v &&& BitVec.ofNat 32 (RegName.row .laneBctrl).rw ∧
         (∀ j ∈ bundleLanes n.d n.b, t.laneHeld j = true → (t.lane j.key).st = 0) ∧
         (∀ j ∈ bundleLanes n.d n.b, t.laneHeld j = false → t.lane j.key = s.lane j.key)) ∧
     (s.live (domBRG n.d) = true → s.oldInUse n.d = false → s.shadeBad n.d = false →
       ∃ t, exec (.flip r l.die) s = .next t ∧ t = { s with lsmActive := t.lsmActive, lanes := t.lanes } ∧
         (∀ d : Nat, d < 4 → t.activeEpoch d = if d = n.d then !s.activeEpoch d else s.activeEpoch d) ∧
         (∀ j ∈ dieLanes n.d, t.lane j.key =
           if s.laneHeld j then { s.lane j.key with epoch := !s.activeEpoch n.d } else s.lane j.key)) ∧
     (s.live (domLG n.d n.b) = true → s.dbg.level = 2 → (s.lane n.key).st = 0 →
       exec (.laneEqOvrWrite r l v) s =
         .next (s.setLane n.key { s.lane n.key with eqOvr := BitVec.ofNat 16 (v.toNat % 2 ^ 16) &&& 0x8FFF }))) ∧
  (∀ (l : LaneId) (s : State) (n : Ln) (x : LaneSt) (words : List (BitVec 20)), n = LaneId.ln l → x = s.lane n.key → Plain s →
     s.laneOn n = true → s.rawMode n = false → x.looping = false → x.offsetValid = true → x.rx = .idle →
     (∀ (w : BitVec 20) (ws : List (BitVec 20)) (payload : List Byte), words = w :: ws → groups x.rd words = .k27_7 :: payload.map .data ++ [.k29_7] →
       ∃ t u, exec (.frameReceive l w ws) s = .next t ∧ u = { s with lanes := u.lanes, cnt := u.cnt, freeCtr := u.freeCtr } ∧
         (∀ k, k ≠ n.key → u.lane k = s.lane k) ∧ (u.lane n.key).rx = .idle ∧ (u.lane n.key).st = x.st ∧
         (u.lane n.key).groups = x.groups + words.length ∧ (u.lane n.key).cleanRun = min (x.cleanRun + words.length) 64 ∧
         (s.isLit n = false → t = u ∧ t.cnt = s.cnt) ∧
         (s.isLit n = true → s.on (domCFE n.d) = true →
           t = (u.prism n.d n.ix payload).moveWm n.d ∧
           u.cnt = (if s.rb .cfeLaneCfg [n.d, n.ix] 13 && (s.cfeLane (cfeKey n.d n.ix)).anchor.isSome
             then s.countRaw (cn 0 2) n.d n.ix 1 else s).cnt ∧
           (∀ (a : Word) (ats : Stamp), (s.cfeLane (cfeKey n.d n.ix)).anchor = some (a, ats) →
             s.rb .cfeLaneCfg [n.d, n.ix] 13 = false → (t.cfeLane (cfeKey n.d n.ix)).nextIdx =
               (s.cfeLane (cfeKey n.d n.ix)).nextIdx + BitVec.ofNat 32 (s.laneFmt n.d n.ix).nsamp))) ∧
     (∀ (ts ofs : Stamp) (b0 b1 b2 b3 : Byte) (a : Word), s.tb.loaded = true → s.isLit n = false →
       groups x.rd words = [.k28_3, .data b0, .data b1, .data b2, .data b3] →
       a.toNat = b0.toNat + 2 ^ 8 * b1.toNat + 2 ^ 16 * b2.toNat + 2 ^ 24 * b3.toNat →
       ofs = (BitVec.ofNat 16 (s.rd .laneAnchorOfs [n.d, n.b, n.n]).toNat).signExtend 64 →
       ∃ t, exec (.anchorSequence l words ts) s = .next t ∧ t.regs = s.regs ∧
         (∀ k, k ≠ n.key → t.lane k = s.lane k) ∧ (t.lane n.key).anchorTs = ts - ofs ∧ (t.lane n.key).anchorIdx = a ∧
         (t.lane n.key).anchorLatch = true ∧ (t.lane n.key).anchorValid = true ∧ (t.lane n.key).rx = .idle ∧
         (t.lane n.key).st = x.st ∧
         (s.on (domCFE n.d) = false → t = { s with lanes := t.lanes, cnt := t.cnt } ∧ Counted s t (cn 0 4) n.d n.ix 1) ∧
         (s.on (domCFE n.d) = true → (t.cfeLane (cfeKey n.d n.ix)).anchor = some (a, ts - ofs) ∧
           (t.cfeLane (cfeKey n.d n.ix)).nextIdx = a)) ∧
     (∀ (ts : Stamp) (b0 b1 : Byte), groups x.rd words = [.k28_3, .data b0, .data b1, .k28_5] →
       ∃ t, exec (.anchorSequence l words ts) s = .next t ∧ t = { s with lanes := t.lanes, cnt := t.cnt } ∧
         (∀ k, k ≠ n.key → t.lane k = s.lane k) ∧ (t.lane n.key).anchorLatch = x.anchorLatch ∧
         (t.lane n.key).rx = .idle ∧ Counted s t (cn 0 5) n.d n.ix 1)) ∧
  (∀ (l : LaneId) (s : State) (n : Ln) (x : LaneSt) (w : BitVec 20), n = LaneId.ln l → x = s.lane n.key → Plain s →
     s.laneOn n = true → s.rawMode n = true → x.looping = false → x.offsetValid = true → x.rx = .idle → s.isLit n = false →
     (∀ (w0 w1 : BitVec 20) (ts ofs : Stamp) (a : Word), s.tb.loaded = true → w.toNat = s.rf .laneRawAnchor [n.d, n.b] 0 20 →
       w.toNat ≠ s.rf .laneRawComma [n.d, n.b] 0 20 → a.toNat = w0.toNat % 2 ^ 16 + 2 ^ 16 * (w1.toNat % 2 ^ 16) →
       ofs = (BitVec.ofNat 16 (s.rd .laneAnchorOfs [n.d, n.b, n.n]).toNat).signExtend 64 →
       ∃ t, exec (.anchorSequence l [w, w0, w1] ts) s = .next t ∧ t.regs = s.regs ∧
         (∀ k, k ≠ n.key → t.lane k = s.lane k) ∧ (t.lane n.key).anchorTs = ts - ofs ∧ (t.lane n.key).anchorIdx = a ∧
         (t.lane n.key).anchorLatch = true ∧ (t.lane n.key).anchorValid = true ∧ (t.lane n.key).rx = .idle ∧
         (t.lane n.key).st = x.st ∧ Rose s t (cn 0 4) n.d n.ix 1 ∧
         (s.on (domCFE n.d) = false → t = { s with lanes := t.lanes, cnt := t.cnt })) ∧
     (∀ ws : List (BitVec 20), w.toNat = s.rf .laneRawComma [n.d, n.b] 0 20 → 0 < ws.length →
       ws.length = (s.laneFmt n.d n.ix).rawWords →
       ∃ t, exec (.frameReceive l w ws) s = .next t ∧ t = { s with lanes := t.lanes, cnt := t.cnt, freeCtr := t.freeCtr } ∧
         (∀ k, k ≠ n.key → t.lane k = s.lane k) ∧ (t.lane n.key).rx = .idle ∧ (t.lane n.key).st = x.st ∧
         (t.lane n.key).groups = x.groups + (w :: ws).length) ∧
     (w.toNat ≠ s.rf .laneRawAnchor [n.d, n.b] 0 20 → w.toNat ≠ s.rf .laneRawComma [n.d, n.b] 0 20 →
       ∃ t, exec (.codeGroupReceive l w) s = .next t ∧ t = { s with lanes := t.lanes, cnt := t.cnt, freeCtr := t.freeCtr } ∧
         (∀ k, k ≠ n.key → t.lane k = s.lane k) ∧ (t.lane n.key).rx = .discard ∧ (t.lane n.key).errAny = true ∧
         Counted s t (cn 0 0) n.d n.ix 1))

/-- RATE_WINDOW_END, BASELINE_CHECK, CFE_FMT_WRITE, CFE_LANE_CFG_WRITE, CHANNEL_ENABLE and RESET_LOOPS (R69, R76, R78, R80,
R82, R83, R94) where they are taken. -/
def Obligations.FrontEndComplete : Prop :=
  ∀ (r : Req) (l : LaneId) (ch : Chan) (s : State) (n : Ln) (c : ChanSt) (d k : Nat), n = LaneId.ln l → d = n.d →
    k = d * 1792 + ch.val → c = s.chan k → s.live (domCFE d) = true → r.spec = none → s.reaches r = true → Plain s →
    (s.rb .chCfg [d, ch.val] 0 = true → c.pend = none → 2 ^ (s.chanCfg d ch.val).rateLog2 ≤ c.winCount → ∀ e : Int,
      e = (if (c.hits : Int) - fld (s.rd .chRate [d, ch.val]) 0 16 < -32 then -32
        else if 31 < (c.hits : Int) - fld (s.rd .chRate [d, ch.val]) 0 16 then 31
        else (c.hits : Int) - fld (s.rd .chRate [d, ch.val]) 0 16) →
      exec (.rateWindowEnd l.die ch) s = .next (s.setChan k { c with
        pend := some (s.stepEntry d (fld (s.rd .chCfg [d, ch.val]) 2 2) (e + 32).toNat),
        hitsLast := BitVec.ofNat 16 (min c.hits 65535),
        hits := 0,
        winCount := 0 })) ∧
    (s.rb .chCfg [d, ch.val] 0 = true → 1024 ≤ c.bCount → ∃ t, exec (.baselineCheck l.die ch) s = .next t ∧
      t = { s with chans := t.chans } ∧ (∀ j, j ≠ k → t.chan j = s.chan j) ∧ t.chan k = { c with
        bstat := if c.bClamped then 2
          else if ((c.base.toNat : Int) - c.bStart.toNat).natAbs / 2 ^ 16 ≤ fld (s.rd .chHyst [d, ch.val]) 24 8 then 1 else 0,
        bStart := c.base,
        bCount := 0,
        bClamped := false,
        startOk := c.startOk || (t.chan k).bstat == 1 && c.st == 3 }) ∧
    (∀ (f : Fin 64) (v : Word), (∀ j, j < 112 → s.rb .cfeLaneCfg [d, j] 13 = true → s.rf .cfeLaneCfg [d, j] 0 6 ≠ f.val) →
      (let w := v &&& BitVec.ofNat 32 (RegName.mask .cfeFmt [d, f.val, 0])
       let g := fmtOf w (s.rd .cfeFmt [d, f.val, 1])
       fld w 0 4 ≤ 8 ∧ g.len ≤ 2552 ∧ (g.seqEn = true → g.seqPos + 2 ≤ g.hdr)) →
      exec (.cfeFmtWrite r l.die f 0 v) s =
        .next (s.wr .cfeFmt [d, f.val, 0] (v &&& BitVec.ofNat 32 (RegName.mask .cfeFmt [d, f.val, 0])))) ∧
    (∀ (v : Word), (bitOf v 13 = false →
        ∃ t, exec (.cfeLaneCfgWrite r l v) s = .next t ∧ t.rd .cfeLaneCfg [d, n.ix] = v &&& 0x3FFF ∧
          (s.rb .cfeLaneCfg [d, n.ix] 13 = true → (t.cfeLane (cfeKey d n.ix)).flowing = false) ∧
          t = { s with regs := t.regs, cfeLanes := t.cfeLanes }) ∧
      (bitOf v 13 = true → s.rb .cfeLaneCfg [d, n.ix] 13 = false →
        fld v 6 7 + (s.fmt d (fld v 0 6)).nch ≤ 112 → s.slotClash d n.ix (v &&& 0x3FFF) = false →
        ∃ t, exec (.cfeLaneCfgWrite r l v) s = .next t ∧ t.rd .cfeLaneCfg [d, n.ix] = v &&& 0x3FFF ∧
          (t.cfeLane (cfeKey d n.ix)).prevSeq = none ∧ (t.cfeLane (cfeKey d n.ix)).gap = true)) ∧
    (c.pulse = none → c.post = none → ∀ z : ChanSt, z = { c with
        first := true, pulse := none, post := none, below := false, holdLeft := 0, bCount := 0, bClamped := false, st := 3,
        dwell := 0, startOk := false } →
      exec (.resetLoops r l.die ch) s = .next (s.setChan k z) ∧
      (s.rb .chCfg [d, ch.val] 0 = false → exec (.channelEnable r l.die ch true) s =
        .next ((s.wr .chCfg [d, ch.val] (setBit (s.rd .chCfg [d, ch.val]) 0 true)).setChan k
          { z with pend := none, winCount := 0, hits := 0, history := [] })) ∧
      exec (.channelEnable r l.die ch false) s =
        .next (s.wr .chCfg [d, ch.val] (setBit (s.rd .chCfg [d, ch.val]) 0 false)))
-- windows

/-- WSU_SORT (R96, R97): the oldest record of a bundle's hit queue. Before the origin, or with the windows stopped, it is
counted and gone. Otherwise, where the watermark has closed neither window, it is counted in its home window, the one whose
interval holds its timestamp, and stands last at WHIT with that window's ID; a record in the band of a boundary stands there
once more, with pen set and the neighbour's ID. WINDOWS_START and WINDOWS_STOP (R101, R102) with sum_en unchanged: parameters
that pass start every powered WSU with the hub's origin, W, P and L, at its tick, from the first window not yet closed; a stop
ends every WSU and the merge. WINDOW_CLOSE (R98, R99, R104, R109): the watermark does not fall; where 64 times it has reached
origin + (n + 1)·W + P + 64·L of the oldest window n, that window closes and the next is the oldest; its close event stands
last at WCLS. No summary is enabled, and no item is posted. -/
def Obligations.WindowsComplete : Prop :=
  (∀ (die : Die) (b : Bundle) (s : State) (d k : Nat) (h : HitRec) (q : List HitRec) (w : Wsu), d = die.val →
     k = d * 16 + b.val → s.hitQueue k = h :: q → s.on (domCFE d) = true → w = s.wsu d → Plain s →
     (w.running = false ∨ 2 ^ 63 ≤ (h.ts - w.origin).toNat →
       exec (.wsuSort die b) s = .next ((s.setHitQueue k q).countRaw (cn 2 3) d 0 1)) ∧
     (∀ m o : Nat, w.running = true → (h.ts - w.origin).toNat < 2 ^ 63 → (h.ts - w.origin).toNat = m * w.width + o →
       o < w.width → 2 * w.pen < w.width → s.windowPorts d = true → w.whit.length < 511 → w.oldest < m →
       (∀ u, u = (BitVec.ofNat 64 (w.wm.toNat * 64) - w.origin).toNat → u < m * w.width + w.pen + 64 * w.late ∨ 2 ^ 63 ≤ u) →
       ∃ t, exec (.wsuSort die b) s = .next t ∧ t.hitQueue k = q ∧ (∀ i, i ≠ k → t.hitQueue i = s.hitQueue i) ∧
         t.regs = s.regs ∧ (∀ i, i ≠ d → t.wsu i = s.wsu i) ∧ ((t.wsu d).acc m).count = (w.acc m).count + 1 ∧
         (∀ j, j ≠ m → ((t.wsu d).acc j).count = (w.acc j).count) ∧
         (t.wsu d).whit = w.whit ++ [(h, BitVec.ofNat 48 m)] ++
           (if o < w.pen then [({ h with pen := true }, BitVec.ofNat 48 (m - 1))]
             else if w.width - w.pen ≤ o then [({ h with pen := true }, BitVec.ofNat 48 (m + 1))] else []))) ∧
  ((∀ (r : Req) (v : Word) (s : State), r.spec = none → s.reaches r = true → s.live domSPN = true → bitOf v 1 = s.rb .mrgCtrl [] 1 →
      (s.rb .mrgCtrl [] 0 = false → 64 ≤ s.mrgW → s.mrgW ≤ 2 ^ 22 → 2 * s.mrgP < s.mrgW → s.mrgL ≠ 0 →
        s.rf .mrgWait [] 0 16 ≠ 0 → (bitOf v 1 = true → 8192 ≤ s.mrgW) → fld v 8 4 ≠ 0 →
        ∃ t, exec (.windowsStart r v) s = .next t ∧ t.rb .mrgCtrl [] 0 = true ∧ t.merge.running = true ∧
          t.merge.sum = bitOf v 1 ∧ t.merge.mask = BitVec.ofNat 4 (fld v 8 4) ∧ t.merge.firstId = BitVec.ofNat 48 t.merge.next ∧
          t.merge.arrived = [] ∧ ∀ d : Nat, d < 4 → s.live (domCFE d) = true →
            (t.wsu d).running = true ∧ (t.wsu d).wm = s.tb.tick ∧ (t.wsu d).origin = s.mrgOrigin ∧ (t.wsu d).width = s.mrgW ∧
            (t.wsu d).pen = s.mrgP ∧ (t.wsu d).late = s.mrgL ∧ (t.wsu d).windows = [] ∧ (t.wsu d).oldest = t.merge.next ∧
            (t.wsu d).whit = (s.wsu d).whit) ∧
      (s.rb .mrgCtrl [] 0 = true → ∃ t, exec (.windowsStop r v) s = .next t ∧ t.rb .mrgCtrl [] 0 = false ∧
        t.merge.running = false ∧ ∀ d : Nat, d < 4 → (t.wsu d).running = false)) ∧
   (∀ (die : Die) (s : State) (d n wm u : Nat) (w : Wsu) (x : WinAcc), d = die.val → w = s.wsu d → s.on (domCFE d) = true →
      w.running = true → n = w.oldest → wm = (s.watermark d).toNat → x = w.acc n →
      w.wm.toNat ≤ wm ∧
      (u = (BitVec.ofNat 64 (wm * 64) - w.origin).toNat →
        (u < (n + 1) * w.width + w.pen + 64 * w.late ∨ 2 ^ 63 ≤ u →
          exec (.windowClose die) s = .next (s.setWsu d { w with wm := BitVec.ofNat 58 wm })) ∧
        ((n + 1) * w.width + w.pen + 64 * w.late ≤ u → u < 2 ^ 63 → s.merge.sum = false → x.count ≠ 0 →
          s.windowPorts d = true → w.wcls.length < 256 → s.rb .schTmplCtrl [d] 7 = false →
          ∀ ev : CloseEv, ev.wid = BitVec.ofNat 48 n → ev.count = BitVec.ofNat 24 (min x.count 0xFFFFFF) → ev.empty = false →
          ev.forced = false → ev.deg = (x.deg || s.tb.degraded) → ev.ovf = x.ovf →
          ∃ t, exec (.windowClose die) s = .next t ∧ t = { s with wsus := t.wsus } ∧ (∀ i, i ≠ d → t.wsu i = s.wsu i) ∧
            t.wsu d = { w with
              wm := BitVec.ofNat 58 wm,
              oldest := n + 1,
              windows := w.windows.filter fun y => y.m != n,
              wcls := w.wcls ++ [ev] }))))

/-- The Window Merge (R105, R106): a die's summary of a window not yet emitted joins those that have arrived; the package
summary of the next window is emitted when every awaited die has delivered, or once the tick count has reached its deadline,
and names the dies of die_mask that have not. -/
def Obligations.MergeComplete : Prop :=
  ∀ (die : Die) (s : State) (d : Nat), d = die.val → s.on domSPN = true → Plain s →
    (∀ (m : Nat) (y : Summary) (q : List MrgMsg), s.dieHeld d = false → s.merge.stopping = none → s.merge.running = true →
      Tbl.get [] s.merge.inbox d = .summary m y :: q → s.merge.next ≤ m →
      exec (.perDieSummaryArrive die) s = .next { s with merge := { s.merge with
        inbox := Tbl.set [] s.merge.inbox d q,
        arrived := s.merge.arrived ++ [(d, m, y)] } }) ∧
    (∀ i : Instr, s.merge.running = true → s.merge.stopping = none → s.merge.sum = true →
      (i = .packageSummaryEmit ∧ (∃ e : Nat, e < 4 ∧ s.awaited e s.merge.next = true) ∧
          (∀ e : Nat, e < 4 → s.awaited e s.merge.next = true → ∃ y, (e, s.merge.next, y) ∈ s.merge.arrived) ∨
        i = .mergeDeadline ∧ s.deadlineHeld = false ∧ s.merge.origin.toNat ≤ 64 * s.tb.tick.toNat ∧
          64 * s.tb.tick.toNat < 2 ^ 63 ∧
          (s.merge.origin.toNat + (s.merge.next + 1) * s.merge.width + s.merge.pen + 63) / 64 + s.merge.late +
            s.rf .mrgWait [] 0 16 ≤ s.tb.tick.toNat) →
      ∃ t, exec i s = .next t ∧ t.regs = s.regs ∧ t.mem = s.mem ∧ t.merge = { s.merge with
          next := s.merge.next + 1,
          arrived := s.merge.arrived.filter fun e => decide (s.merge.next < e.2.1),
          lastMissing := t.merge.lastMissing,
          lastId := BitVec.ofNat 48 s.merge.next } ∧
        ∀ e : Nat, e < 4 → (bitOf t.merge.lastMissing e = true ↔
          bitOf s.merge.mask e = true ∧ ∀ y, (e, s.merge.next, y) ∉ s.merge.arrived))
-- Glint

/-- ISSUE and ACCEPT that the part takes (R116, R118, R121, R122, R127, R128, R596): Glints enabled, the windows running, an
event pool, a range that is not stale, a FREE slot; the lowest one opens, or goes straight to CONFIRMED, with the request's
range, its pin interval and the deadline, and the answer is OK (0) with its handle. A request of a die's port whose queue is
empty and that has room for the response is taken at once; status, handle and op go back (R118). -/
def Obligations.RequestsTaken : Prop :=
  ∀ (r : Req) (wid : Addr) (c : BitVec 4) (ty : Byte) (s : State) (g : Nat), s.live domSPN = true →
    r.cls = .host ∨ r.cls = .lamp → s.reaches r = true → s.rb .gltCtrl [] 0 = true → s.merge.running = true → s.pool.isSome = true →
    s.staleRange (s.windowStart (s.unwrap wid) - BitVec.ofNat 64 (64 * s.rf .gltMargin [] 0 16)) = false → Plain s →
    g < 64 → (s.slot g).state = 0 → (∀ j, j < g → (s.slot j).state ≠ 0) →
    ∀ (i : Instr) (opened : Bool),
      (i = .issue none r wid c ∧ opened = true ∧ 100 ≤ s.gltLimit ∧ s.tb.degraded = false ∧
          s.openSlots < s.rf .gltCtrl [] 8 7 ∨
        i = .accept none r wid c ty ∧ opened = false ∧ bitOf (s.typeMap ty) 4 = true ∧ bitOf (s.typeMap ty) 5 = false ∧
          bitOf (s.typeMap ty) 6 = false) →
      ∃ t, exec i s = .next t ∧ t = { s with glint := t.glint, cnt := t.cnt, outbox := t.outbox } ∧
        t.outbox = s.outbox ++ [.reply r (.status 0 (g + 64 * (s.slot g).gen.toNat))] ∧
        (∀ j, j ≠ g → t.slot j = s.slot j) ∧ (t.slot g).state = (if opened then 1 else 2) ∧ (t.slot g).gen = (s.slot g).gen ∧
        (t.slot g).wid = wid ∧ (t.slot g).countM1 = c ∧ (t.slot g).direct = !opened ∧
        (t.slot g).remain = (if opened then s.glint.deadline.toNat else 0) ∧
        (t.slot g).pinLo = s.windowStart (s.unwrap wid) - BitVec.ofNat 64 (64 * s.rf .gltMargin [] 0 16) ∧
        (t.slot g).pinHi = s.windowStart (s.unwrap wid + c.toNat + 1) + BitVec.ofNat 64 (64 * s.rf .gltMargin [] 16 16) ∧
        (opened = false → (t.slot g).type = ty ∧ (t.slot g).map = s.typeMap ty ∧ (t.slot g).tsConf = s.tb.tick ∧
          (t.slot g).order = s.glint.nextOrder) ∧
        ∀ (d : Die) (j : Instr) (op : Nat), s.gltPort d = true → (s.fab d.val).gltQueue = [] → (s.portResp d.val 0).length < 64 →
          i = .issue none r wid c ∧ j = .issue (some d) r wid c ∧ op = 0 ∨
            i = .accept none r wid c ty ∧ j = .accept (some d) r wid c ty ∧ op = 3 →
          ∃ u, exec j s = .next u ∧ u = { t with outbox := s.outbox, fabs := u.fabs } ∧
            u.portResp d.val 0 = s.portResp d.val 0 ++ [.portStatus d 0 0 (g + 64 * (s.slot g).gen.toNat) op] ∧
            ∀ e, e ≠ d.val → u.fab e = s.fab e

/-- CONFIRM, CANCEL, GLINT_DEADLINE, RELEASE_DONE and GLT_DEADLINE_WRITE (R116, R124, R126, R127, R129, R142): an OPEN Glint
named by its handle is confirmed with an enabled type, or cancelled, by GLT_DECIDE or by a port; its deadline expires it; a
released slot is FREE with the next generation. A confirmation whose outputs are off schedules none. GLINT_ITEM_POST,
GLINT_COPY and PUBLISH_START (R122, R127, R154, R278, R280): the item that an issue owes a die stands last in the template's
list with the slot's handle and item window; a hit record of the range is copied once, in the room held; a confirmed Glint
whose copy is complete and whose items have ended starts to publish. -/
def Obligations.DecisionsComplete : Prop :=
  (∀ (r : Req) (g : Gid) (h : BitVec 16) (ty : Byte) (s : State) (sl : GlintSlot), sl = s.slot g.val → Plain s → s.reaches r = true →
     (s.live domSPN = true → r.spec = none → sl.state = 1 → h.toNat = g.val + 64 * sl.gen.toNat →
       (s.handleExpired h = false → bitOf (s.typeMap ty) 4 = true → bitOf (s.typeMap ty) 5 = false →
         bitOf (s.typeMap ty) 6 = false →
         ∃ t, exec (.confirm none r h ty) s = .next t ∧ t = { s with glint := t.glint, cnt := t.cnt } ∧
           (∀ j, j ≠ g.val → t.slot j = s.slot j) ∧ t.slot g.val = { sl with
             state := 2, type := ty, map := s.typeMap ty, order := s.glint.nextOrder, remain := 0, tsConf := s.tb.tick,
             deg := sl.deg || s.tb.degraded } ∧
           t.glint.nextOrder = s.glint.nextOrder + 1 ∧ t.glint.accepts = s.glint.accepts ∧ Counted s t (cn 3 3) hub 0 1) ∧
       ∃ t, exec (.cancel none r h) s = .next t ∧ (t.slot g.val).state = 4 ∧ (t.slot g.val).lastExpired = false ∧
         (t.slot g.val).gen = sl.gen ∧ (t.slot g.val).items = [] ∧ (t.slot g.val).held = [] ∧ (t.slot g.val).completions = [] ∧
         t.regs = s.regs ∧
         ∀ (d : Die) (i j : Instr) (op : Nat) (v : State), s.gltPort d = true → (s.fab d.val).gltQueue = [] →
           (s.portResp d.val 0).length < 64 → exec j s = .next v →
           i = .confirm (some d) r h ty ∧ j = .confirm none r h ty ∧ s.handleExpired h = false ∧ bitOf (s.typeMap ty) 4 = true ∧
               op = 1 ∨ i = .cancel (some d) r h ∧ j = .cancel none r h ∧ op = 2 →
           ∃ u, exec i s = .next u ∧ u = { v with fabs := u.fabs } ∧
             u.portResp d.val 0 = s.portResp d.val 0 ++ [.portStatus d 0 0 h.toNat op] ∧ ∀ e, e ≠ d.val → u.fab e = s.fab e) ∧
     (sl.state = 1 → sl.remain = 0 → ∃ t, exec (.glintDeadline g) s = .next t ∧ (t.slot g.val).state = 4 ∧
       (t.slot g.val).lastExpired = true ∧ (t.slot g.val).gen = sl.gen ∧ (t.slot g.val).items = [] ∧
       (t.slot g.val).held = [] ∧ (t.slot g.val).completions = [] ∧ t.regs = s.regs ∧
       (s.on domLMP = true → bitOf (t.core 1024).ipend 8 = true)) ∧
     (sl.state = 4 → exec (.releaseDone g) s =
       .next (s.setSlot g.val { gen := sl.gen + 1, lastExpired := sl.lastExpired })) ∧
     (∀ v : Word, s.live domSPN = true → r.spec = none → 100 ≤ v.toNat → s.gltLimit < 100 ∨ v.toNat ≤ s.gltLimit →
       exec (.gltDeadlineWrite r v) s = .next { s with glint := { s.glint with deadline := v } })) ∧
  (∀ (die : Die) (g : Gid) (s : State) (sl : GlintSlot) (d : Nat), sl = s.slot g.val → d = die.val →
     (∀ (l : Nat) (t0 : List Word), bitOf sl.postDue d = true → s.live (domFCA d) = true → s.rb .schTmplCtrl [d] 0 = true →
       l = s.rf .schTmplCtrl [d] 1 6 → t0 = s.template .schGltTmpl d →
       ∃ t desc, exec (.glintItemPost die g) s = .next t ∧ t.readyList d l = s.readyList d l ++ [desc] ∧ desc.length = 16 ∧
         (dword desc 5).toNat = (dword t0 5).toNat / 2 ^ 17 * 2 ^ 17 + 2 ^ 16 + (s.handleOf g.val).toNat ∧
         (dword desc 1).toNat + 2 ^ 32 * ((dword desc 2).toNat % 2 ^ 16) = itemBase + g.val * 0x1000000 ∧
         (∀ i, i ∉ [1, 2, 5] → dword desc i = dword t0 i) ∧ (t.slot g.val).postDue = setBit sl.postDue d false ∧
         (t.slot g.val).itemsOut = sl.itemsOut + 1 ∧ t.regs = s.regs ∧ ∀ j, j ≠ g.val → t.slot j = s.slot j) ∧
     (∀ (e : Nat × HitRec) (a rg : Nat) (bs : List Byte), sl.state = 1 ∨ sl.state = 2 → s.hitSeg d = some rg →
       a = (s.regionAt rg).lo + e.1 % (s.regionAt rg).dataBytes → e ∈ (s.rings d).hitLog → s.poolSeal = none →
       (∀ d', d' < 4 → (∀ b ∈ (s.rings d').blocks, sl.wantsRaw d' b = false) ∧
         ∀ e' ∈ (s.rings d').hitLog, (s.wantsHit sl d' e' = true ↔ d' = d ∧ e' = e)) →
       s.itemChunks + (sl.copied + 16 + 65535) / 65536 ≤ sl.chunks → sl.chunks ≤ 32768 →
       (∀ u : State, u = { s with glint := u.glint } → (∀ j, u.slot j = s.slot j) →
         u.readPiece (some g) a 16 [] = (bs.map .ok, u)) →
       ∃ t, exec (.glintCopy g []) s = .next t ∧ t = { s with glint := t.glint } ∧ (∀ j, j ≠ g.val → t.slot j = s.slot j) ∧
         t.slot g.val = { sl with hits := insertAt (d, e.1, e.2) sl.hits, deg := sl.deg || e.2.deg, waiting := false }) ∧
     (sl.state = 2 → s.copyComplete g.val = true → sl.itemsOut = 0 → sl.postDue = 0 →
       (∀ k, k < 64 → (s.slot k).state = 2 ∨ (s.slot k).state = 3 → (s.slot k).ring = sl.ring → sl.order ≤ (s.slot k).order) →
       exec (.publishStart g) s = .next (s.setSlot g.val { sl with state := 3 })))

/-- EVENT_PUBLISH (R127, R157, R158, R550–R554): where the ring is enabled, the part may master the bus and there is room, the
event, header and payload, is written from where prod stands, in memory writes of the maximum payload at most, none across a 4
KiB boundary; prod moves past it, the event is held under the next sequence number, and the slot is FREE. The pool is not
sealed here. ACCEPT_OUTPUT and ACCEPT_FRAME_SEND (R40, R130–R133, R578): the first waiting output that is due leaves on the
accept pins, one in a tick; a queued frame leaves on L0 of its bundle, or is counted where the bundle cannot send. -/
def Obligations.AcceptsLeave : Prop :=
  (∀ (g : Gid) (s : State) (sl : GlintSlot) (r n : Nat), sl = s.slot g.val → sl.state = 3 → r = sl.ring →
     s.rb .ringCtrl [r] 0 = true → s.canMaster = true → n = s.eventLen sl → n ≤ 2 ^ s.rf .ringCtrl [r] 1 6 →
     ((s.ring r).prod - (s.ring r).cons).toNat + n ≤ 2 ^ s.rf .ringCtrl [r] 1 6 →
     12 ≤ s.rf .ringCtrl [r] 1 6 → Plain s → sl.completions = [] → s.poolSeal = none →
     ∃ t writes rest, exec (.eventPublish g) s = .next t ∧ t.outbox = s.outbox ++ writes ++ rest ∧
       Written (s.rd64 .ringBase [r]) (2 ^ s.rf .ringCtrl [r] 1 6) s.maxPayload (s.ring r).prod.toNat writes
         (s.eventHeader g.val false n ++ s.eventPayload sl) ∧
       (t.ring r).prod = (s.ring r).prod + BitVec.ofNat 64 n ∧ (t.slot g.val).state = 0 ∧
       (t.slot g.val).gen = sl.gen + 1 ∧ t.dbm.nextSeq = s.dbm.nextSeq + 1 ∧
       t.dbm.events = s.dbm.events ++ [{ seq := s.dbm.nextSeq, chunks := sl.chunks }] ∧ t.mem = s.mem ∧ t.regs = s.regs ∧
       ∀ j, j ≠ g.val → t.slot j = s.slot j) ∧
  (∀ (s : State) (die : Die) (b : Bundle) (a : AcceptOut) (f : List Byte) (q : List (List Byte)) (u : State), Plain s →
     (s.glint.accepts = [a] → 0 ≤ (s.tb.tick - a.due).toInt → s.glint.lastAccept ≠ some s.tb.tick → a.pin = true →
       a.tx = false → s.live domGPI = true → s.rails.vioGa = true → s.rb .gpiCtrl [] 0 = true →
       ∃ t, exec .acceptOutput s = .next t ∧ t = { s with glint := t.glint, outbox := t.outbox, cnt := t.cnt } ∧
         t.outbox = s.outbox ++ [.acceptPins (a.wid.setWidth 12 ++ a.type ++ a.code.setWidth 2)] ∧
         t.glint = { s.glint with accepts := [], lastAccept := some s.tb.tick }) ∧
     (Tbl.get [] s.glint.frames (16 * die.val + b.val) = f :: q →
       u = { s with glint := { s.glint with frames := Tbl.set [] s.glint.frames (16 * die.val + b.val) q } } →
       ∃ t, exec (.acceptFrameSend die b) s = .next t ∧
         (if s.live (domLG die.val b.val) && s.bridgeUp die.val && s.rb .laneBctrl [die.val, b.val] 12 &&
             !s.rb .laneBctrl [die.val, b.val] 13
           then t = { u with lanes := t.lanes, outbox := t.outbox } ∧ ∃ pre, t.outbox = s.outbox ++ pre ++ [.acceptFrame die b f] ∧
             (pre = [] ∨ pre = [.laneComma die b 0])
           else t = u.countRaw (cn 3 11) hub 0 1)))
-- the deep buffer

/-- RAW_RING_WRITE and HIT_RING_WRITE (R149, R151–R153, R160): the block that waits in an active ring's elastic buffer, with
the rate and its room allowing it, is written behind the ring's last block, or the 16-byte hit record behind the last record;
its bytes stand in memory, no other byte changes, and it can be found there. Stated where the block fits its page and
overwrites no block that is still listed. DBM_RAW_WRITE, DBM_REGION_WRITE, EVT_RELEASE and SIDEBAND_CLEAR_DONE (R146, R151,
R158, R162, R305, R306): a rate or a region entry that the bandwidth budget and R146's tests allow takes its value and asks
for a flip; a read-only entry ignores the write; events whose sequence numbers are at or below the value, modulo 2^32, are
released and counted; a stack's clear leaves none of its pages written and its bytes 0. -/
def Obligations.DeepBufferWritesComplete : Prop :=
  (∀ (die : Die) (s : State) (d allowance : Nat) (q : DieRings), d = die.val → q = s.rings d → Plain s →
     (∀ (b : RawBlock) (span k o p n r a : Nat), q.hold = [] → q.elastic = [(b, span)] → s.ringActive d = true →
       b.bytes.length ≤ allowance → b.bytes.length ≤ q.rawRoom → 0 < b.bytes.length → k = (s.segs d).length → p = q.rawPos.toNat →
       0 < k * s.segBytes d → o = p % (k * s.segBytes d) → o % 2048 + b.bytes.length ≤ 2048 →
       (s.segs d)[o / 2048 % k]? = some (n, r) → s.live (domNBC n) = true →
       a = (s.regionAt r).lo + o / 2048 / k * 2048 + o % 2048 → p + b.bytes.length < 2 ^ 64 →
       (∀ x ∈ q.blocks, p + b.bytes.length ≤ x.pos + k * s.segBytes d) →
       ∃ t, exec (.rawRingWrite die allowance) s = .next t ∧ t.mem = Memory.putAll s.mem a b.bytes ∧
         (t.rings d).elastic = [] ∧ (t.rings d).rawPos.toNat = p + b.bytes.length ∧ (t.rings d).rawRoom = q.rawRoom - b.bytes.length ∧ (t.rings d).hitPos = q.hitPos ∧
         (t.rings d).hitLog = q.hitLog ∧ (∀ x, x ∈ (t.rings d).blocks ↔ x ∈ q.blocks ∨ x = {
           pos := p, len := b.bytes.length, parts := [(a, b.bytes.length)], lane := b.lane, ts := b.ts, span := span,
           deg := bitOf (b.bytes.getD 13 0) 6 }) ∧
         Counted s t (cn 4 0) hub d b.bytes.length ∧ t.regs = s.regs ∧ ∀ e, e ≠ d → t.rings e = s.rings e) ∧
     (∀ (h : HitRec) (r p a : Nat), q.hitHold = [] → q.hitElastic = [h] → s.hitSeg d = some r → s.hitActive d = true →
       16 ≤ allowance → 16 ≤ q.hitRoom → p = q.hitPos.toNat → a = (s.regionAt r).lo + p % (s.regionAt r).dataBytes → p + 16 < 2 ^ 64 →
       ∃ t, exec (.hitRingWrite die allowance) s = .next t ∧ t.mem = Memory.putAll s.mem a h.bytes ∧
         (t.rings d).hitElastic = [] ∧ (t.rings d).hitPos.toNat = p + 16 ∧ (t.rings d).hitRoom = q.hitRoom - 16 ∧ (t.rings d).rawPos = q.rawPos ∧
         (t.rings d).blocks = q.blocks ∧ (∀ x, x ∈ (t.rings d).hitLog ↔
           (x ∈ q.hitLog ∧ p + 16 ≤ x.1 + (s.regionAt r).dataBytes) ∨ x = (p, h)) ∧
         t.cnt = s.cnt ∧ t.regs = s.regs ∧ ∀ e, e ≠ d → t.rings e = s.rings e)) ∧
  (∀ (r : Req) (s : State), r.spec = none → s.reaches r = true → s.live domSPN = true → Plain s →
     (∀ (die : Die) (hit : Bool) (v : Word) (u : State) (tab : SlotTable), u = s.setRate die.val hit v →
       (u.resOk = false → exec (.dbmRawWrite r die hit v) s = .next (s.vio 63)) ∧
       (u.resOk = true → u.shade u.spineNow = some tab → s.oldPackets = 0 → s.noc.flipPending = false →
         ∃ t, exec (.dbmRawWrite r die hit v) s = .next t ∧ t.mem = s.mem ∧ t.regs = s.regs ∧
           t.rings die.val = (if hit then { s.rings die.val with hitRate := v.setWidth 16 }
             else { s.rings die.val with rawRate := v }) ∧ (∀ e, e ≠ die.val → t.rings e = s.rings e) ∧
           t.noc.flipPending = true ∧ (if s.noc.active then t.noc.res0 else t.noc.res1) = tab)) ∧
     (∀ (entry : Fin 32) (word : Fin 4) (v : Word) (old new : Region) (u : State) (tab : SlotTable), old = s.region entry.val →
       new = old.withWord word.val v → u = s.setRegion entry.val new →
       (entry.val < 2 ∨ word.val = 3 → exec (.dbmRegionWrite r entry word v) s = .next s) ∧
       (2 ≤ entry.val → word.val < 3 → s.regionInUse old = false → new.type ∈ [0, 3, 4, 5, 6] → new.tcode.toNat ≤ 5 →
         (new.type = 3 ∨ new.type = 4 → s.anyLaneEn new.die.toNat = false) →
         (new.valid = true → s.regionValidOk entry.val new = true) → (s.sealsRegion entry.val = false ∨ new.valid = false ∨ new.type = 5 ∨ new.type = 6) → u.resOk = true →
         u.shade u.spineNow = some tab → s.oldPackets = 0 → s.noc.flipPending = false →
         ∃ t, exec (.dbmRegionWrite r entry word v) s = .next t ∧ t.mem = s.mem ∧ t.regs = s.regs ∧ t.region entry.val = new ∧
           (∀ k, k ≠ entry.val → t.region k = s.region k) ∧ t.dbm.rings = s.dbm.rings)) ∧
     (∀ v : Word, ∃ t, exec (.evtRelease r v) s = .next t ∧ t = { s with dbm := { s.dbm with events := t.dbm.events }, cnt := t.cnt } ∧
       t.dbm.events = s.dbm.events.filter (fun e => decide (2 ^ 31 ≤ (v - e.seq).toNat)) ∧
       Counted s t (cn 4 11) hub 0 (s.dbm.events.length - t.dbm.events.length)) ∧
     (∀ (stack : Stack) (n : Nat), n = stack.val → s.on (domNBC n) = true → bitOf s.dbm.cleared n = false → s.flt.aon = [] →
       ∃ t, exec (.sidebandClearDone stack) s = .next t ∧ t = { s with mem := t.mem, sre := t.sre, dbm := t.dbm, flt := t.flt } ∧
         t.flt = { s.flt with logOk := s.flt.logOk || n == 3 } ∧ (∀ k, k < 4 → bitOf t.dbm.cleared k = (bitOf s.dbm.cleared k || k == n)) ∧
         (∀ a, t.mem.byte a = if n * stackBytes ≤ a ∧ a < (n + 1) * stackBytes then 0 else s.mem.byte a) ∧
         ∀ p, Tbl.get {} t.dbm.pages p =
           if n * stackBytes ≤ p * 2048 ∧ p * 2048 < (n + 1) * stackBytes then {} else Tbl.get {} s.dbm.pages p))

/-- BUFFER_READ and BUFFER_WRITE (R143, R145, R160, R164, R500): of the near buffer's clean, unsealed page, a read answers the
bytes that stand there and changes nothing, and a write stores its bytes, marks the page written and changes no other byte; a
far access whose words read or store without error answers likewise; an unmapped address answers an error, as violation 62. A
write's answer waits for the invalidations that it causes (R230). FILL, SCRUB_RANGE and REPAIR (R166–R169, R545): taken by the
port, a fill of an unsealed data region and a scrub start their pass; with no cap on the rate, at the command's end the
pattern stands over the whole range and nothing else has changed, or the scrub of near pages without error has counted them
and found nothing; a repair adds its row to the stack's list, for the next start of the stack. -/
def Obligations.BufferAccessesComplete : Prop :=
  (∀ (r : Req) (addr : Addr) (s : State) (a : Nat), a = addr.toNat → s.live domSPN = true → Plain s → s.reaches r = true →
     (r.cls = .host → r = { cls := .host, rnum := 1 }) →
     (∀ len st k : Nat, 0 < len → s.place a = .near st k → s.sealOf k = none → s.live (domNBC st) = true →
       a % 2048 + len ≤ 2048 → a < nearEnd → CleanPage s (a / 2048) →
       exec (.bufferRead r addr len []) s = .next (s.answer r (.data ((Memory.bytes s.mem a len).map some)))) ∧
     (∀ (bs : List Byte) (st k : Nat), 0 < bs.length → s.place a = .near st k → s.sealOf k = none → s.live (domNBC st) = true →
       r.spec = none → a % 2048 + bs.length ≤ 2048 → a < nearEnd → CleanPage s (a / 2048) →
       ∃ t, exec (.bufferWrite r addr bs []) s = .next t ∧
         t = { s with mem := t.mem, dbm := t.dbm, sre := t.sre, noc := t.noc, cores := t.cores, outbox := t.outbox } ∧
         t.mem = Memory.putAll s.mem a bs ∧
         (∀ due, due = t.noc.snoops.filter (fun x => a / 64 ≤ x.2 && x.2 < (a + bs.length + 63) / 64) →
           t.outbox = (if r.cls = .host ∨ due ≠ [] then s.outbox else s.outbox ++ [.reply r .ok]) ∧
           t.noc.held = (if r.cls = .host ∨ due = [] then s.noc.held else s.noc.held ++ [(due, .reply r .ok)])) ∧
         (∀ p, Tbl.get {} t.dbm.pages p = Tbl.get {} s.dbm.pages p) ∧ t.dbm.regions = s.dbm.regions ∧
         t.sre.entries = s.sre.entries) ∧
     (∀ (len h k : Nat) (bs : List Byte), 0 < len → s.place a = .far h k → s.sealOf k = none → s.live (domFBC h) = true →
       a % 64 + len ≤ 64 → (∀ u : State, u = { s with holdFor := u.holdFor } → u.readWords r.spec [] (wordsOf a len) = (bs, true, u)) →
       exec (.bufferRead r addr len []) s = .next (s.answer r (.data (bs.map some)))) ∧
     (∀ len : Nat, 0 < len → s.place a = .unmapped → a % 64 + len ≤ 64 → a + len ≤ regBase → r.cls ≠ .dma →
       (r.cls ≠ .host → r.spec = none → exec (.bufferRead r addr len []) s = .next ((s.vio 62).answer r .error)) ∧
       (r.cls = .host → ∃ t, exec (.bufferRead r addr len []) s = .next t ∧ t.mem = s.mem ∧
         t.outbox = s.outbox ++ [.reply r (.data (List.replicate len none))]))) ∧
  (∀ (lamp : Bool) (base : Addr) (s : State) (b : Nat), b = base.toNat → PortFree lamp s → Plain s →
     (∀ (len : BitVec 64) (pat : Word) (n : Nat) (u : State), n = len.toNat → s.rangeCode b n = none → s.fillCode b n = none →
       u = begun lamp 6 (portArgs 0 0 base len pat) s →
       ∃ t, exec (.fill lamp base len pat) s = .next t ∧ t = ending 0 { u with dbm := { u.dbm with
           pass := some { fill := some pat, next := b, stop := b + n, errs := [] }, cmdDone := 0 } } ∧
         (s.rf .dbmMaintRate [] 0 16 = 0 → s.rangeSeal b = none →
           ∃ v, exec .commandEnd t = .next v ∧ v.hif.busy = false ∧ v.hif.status = 0 ∧ v.dbm.cmdDone = len ∧ v.dbm.pass = none ∧
             (∀ a, v.mem.byte a =
               if b ≤ a ∧ a < b + n then BitVec.ofNat 8 (pat.toNat / 2 ^ (8 * (a % 4))) else s.mem.byte a) ∧
             v.regs = s.regs ∧ v.dbm.regions = s.dbm.regions)) ∧
     (∀ (len : BitVec 64) (n : Nat) (u : State), n = len.toNat → s.rangeCode b n = none →
       u = begun lamp 5 (portArgs 0 0 base len 0) s →
       ∃ t, exec (.scrubRange lamp base len []) s = .next t ∧ t = ending 0 { u with dbm := { u.dbm with
           pass := some { fill := none, next := b, stop := b + n, errs := [] }, scrub := {}, cmdDone := 0 } } ∧
         (s.rf .dbmMaintRate [] 0 16 = 0 → b < nearEnd → (∀ i, i < n / 2048 → CleanPage s (b / 2048 + i)) →
           ∃ v, exec .commandEnd t = .next v ∧ v.hif.busy = false ∧ v.hif.status = 0 ∧ v.dbm.cmdDone = len ∧
             v.dbm.scrub = { units := n / 2048 } ∧ v.mem = s.mem)) ∧
     (∀ (k : Nat) (u : State), s.repairCode b = none → k = b / stackBytes → u = begun lamp 7 (portArgs 0 0 base 0 0) s →
       ∃ t, exec (.repair lamp base) s = .next t ∧ t = { ending 0 u with dbm := { u.dbm with repairs := t.dbm.repairs } } ∧
         Tbl.get {} t.dbm.repairs k = { Tbl.get {} s.dbm.repairs k with
           rows := (Tbl.get {} s.dbm.repairs k).rows ++ [b / 8192] } ∧
         ∀ j, j ≠ k → Tbl.get {} t.dbm.repairs j = Tbl.get {} s.dbm.repairs j))
-- sealed regions

/-- SEALED_READ, FULL_BLOCK_WRITE and PARTIAL_WRITE (R181, R182, R185, R189–R191, R193, R194, R230) on a block of a sealed
near region whose slot is LOADED and whose record, in the cache, passes: a requester with the right reads the plaintext and is
counted; where storage has been changed so that the tag fails, the read is poisoned and raises the alarm, which names the
block; a full write stores the block, and a partial one its bytes alone, encrypted under the slot's next count, with a record
of that count and the tag; CT and NONE do not write. -/
def Obligations.SealedAccessesComplete : Prop :=
  ∀ (r : Req) (block : Addr) (s : State) (a k st rg e b ra : Nat) (rec cipher plain : List Byte) (slot : KeySlot)
    (ks : List (List Byte)) (p : TagPage), a = block.toNat → a % 256 = 0 → b = a / 256 →
    s.live domSPN = true → s.reaches r = true → (r.cls = .host → r = { cls := .host, rnum := 1 }) → r.spec = none → Plain s →
    a < nearEnd → s.place a = .near st rg → s.live (domNBC st) = true → CleanPage s (a / 2048) → s.sealOf rg = some e →
    a - (s.regionAt rg).lo < sealedBytes (s.regionAt rg) e → k = (s.sealEntry e).key.toNat → slot = s.keySlot k →
    slot.state = 1 → slot.fenced = false → ks = s.sealKeys k → ra = s.recordAddr e b → s.tagPage ra = some p →
    rec = Tbl.get [] p.recs (recordSlot ra) → rec.length = 16 → cacheSize s.sre.cache ≤ 2097152 →
    cipher = Memory.bytes s.mem a 256 → sealTag ks e k b (wordOfBytes (rec.take 8)) cipher = rec.drop 8 →
    plain = sealCrypt ks b (wordOfBytes (rec.take 8)) cipher →
    (2 ≤ s.right r.cls e →
      exec (.sealedRead r block [] []) s = .next ((s.countRaw (cn 5 3) hub e 1).answer r (.data (plain.map some))) ∧
      ∀ (changed : List (Nat × Byte)) (u : State), u = s.tamper changed → r.cls ≠ .dma → s.sre.fails.length < 64 →
        sealTag ks e k b (wordOfBytes (rec.take 8)) (Memory.bytes u.mem a 256) ≠ rec.drop 8 →
        ∃ t out, exec (.sealedRead r block [] changed) s = .next t ∧ LogOnly u t ∧
          t.sre.alarm = true ∧ (∃ f ∈ t.sre.fails, f.addr.toNat = a) ∧ t.sre.keys = s.sre.keys ∧
          t.outbox = out ++ [.reply r (if r.cls = .host then .data (List.replicate 256 none) else .poisoned)]) ∧
    (s.right r.cls e = 3 → s.condemned e b = false →
      ∀ (bs new : List Byte) (i : Instr) (o n : Nat) (c : List Byte),
        (i = .fullBlockWrite r block bs ∧ bs.length = 256 ∧ new = bs ∧ o = 0 ∨
          i = .partialWrite r (block + BitVec.ofNat 48 o) bs [] [] ∧ 0 < bs.length ∧ o + bs.length ≤ 256 ∧ bs.length < 256 ∧
            new = plain.take o ++ bs ++ plain.drop (o + bs.length)) →
        n = (slot.count + 1).toNat → c = sealCrypt ks b n new →
        ∃ t q, exec i s = .next t ∧ t.mem = Memory.putAll s.mem a c ∧
          (∀ due, due = t.noc.snoops.filter (fun x => (a + o) / 64 ≤ x.2 && x.2 < (a + o + bs.length + 63) / 64) →
            t.outbox = if r.cls = .host ∨ due ≠ [] then s.outbox else s.outbox ++ [.reply r .ok]) ∧
          t.keySlot k = { slot with count := slot.count + 1, dirty := true, again := true } ∧
          (∀ j, j ≠ k → t.keySlot j = s.keySlot j) ∧ t.tagPage ra = some q ∧
          Tbl.get [] q.recs (recordSlot ra) = bytesOf n 8 ++ sealTag ks e k b n c ∧ q.held = p.held ∧
          (∀ j, j ≠ recordSlot ra → Tbl.get [] q.recs j = Tbl.get [] p.recs j) ∧
          t.sre.entries = s.sre.entries ∧ t.regs = s.regs) ∧
    (s.right r.cls e < 3 → ∀ bs : List Byte, bs.length = 256 →
      ∃ t, exec (.fullBlockWrite r block bs) s = .next t ∧ t.mem = s.mem ∧ t.sre = s.sre)

/-- RECORD_WRITEBACK, FLUSH_DONE, FLUSH, GENERATE and KEY_RETIRE (R183, R196–R199): a cached page's updated records are
written back and the page stays; a flush names its IDs and, when it is done, their dirty bits show the writes since; GENERATE
loads an EMPTY slot with a fresh key and count 0; a clean LOADED slot retires, and is EMPTY at once where no valid entry names
it. SEAL_ENTRY_WRITE, RIGHTS_WRITE and ALARM_CLEAR (R178, R179, R187, R195): an entry takes a legal value while no region in
effect stands under it or comes under it; entry 15 ignores the write; rights that rise nowhere are lowered, and a write that
raises one is refused whole, as violation 67; the clear ends the alarm and empties the condemned set. -/
def Obligations.KeysAndRecordsComplete : Prop :=
  (∀ (s : State), Plain s →
     (∀ (p : TagPage) (bs : List Byte), s.sre.cache = [p] → p.recs ≠ [] → p.addr < nearEnd → p.held = some bs →
       (∃ t, exec .recordWriteback s = .next t ∧ t.mem = Memory.putAll s.mem p.addr (overlay bs p.recs) ∧ t.regs = s.regs ∧
         t.sre = { s.sre with cache := [{ p with held := some (overlay bs p.recs), recs := [] }] }) ∧
       ∃ t, exec .flushDone s = .next t ∧ t.regs = s.regs ∧ t.sre.flushing = 0 ∧
         (if bitOf s.sre.flushing (s.keyOfTags p)
           then t.mem = Memory.putAll s.mem p.addr (overlay bs p.recs) ∧
             t.sre.cache = [{ p with held := some (overlay bs p.recs), recs := [] }]
           else t.mem = s.mem ∧ t.sre.cache = s.sre.cache) ∧
         ∀ k, t.keySlot k = if k < 15 ∧ bitOf s.sre.flushing k = true
           then { s.keySlot k with dirty := (s.keySlot k).again, again := false } else s.keySlot k) ∧
     (∀ r : Req, s.live domSEC = true → r.spec = none → s.reaches r = true → r.cls = .host ∨ r.cls = .lamp →
       (∀ mask : BitVec 16, ∃ t, exec (.flush r mask) s = .next t ∧
         t = { s with sre := { s.sre with keys := t.sre.keys, flushing := s.sre.flushing ||| (mask &&& 0x7FFF) } } ∧
         ∀ k, t.keySlot k = if k < 15 ∧ bitOf mask k = true then { s.keySlot k with again := false } else s.keySlot k) ∧
       ∀ key : Fin 16, key.val ≠ 15 → (s.keySlot key.val).state = 0 →
         ∃ t fresh, exec (.generate r key) s = .next t ∧
           t = { s with sre := { s.sre with keys := t.sre.keys }, freeCtr := t.freeCtr } ∧
           t.keySlot key.val = { state := 1, key := fresh } ∧ ∀ k, k ≠ key.val → t.keySlot k = s.keySlot k) ∧
     (∀ (lamp : Bool) (keyId : Word) (k : Nat) (u : State), PortFree lamp s → k = keyId.toNat → k < 15 → (s.keySlot k).state = 1 →
       (s.keySlot k).dirty = false → u = ending 0 (begun lamp 8 (portArgs keyId 0 0 0 0) s) →
       ∃ t, exec (.keyRetire lamp keyId) s = .next t ∧ t = { u with sre := { u.sre with keys := t.sre.keys } } ∧
         ((∃ e, e < 15 ∧ (s.sealEntry e).valid = true ∧ (s.sealEntry e).key.toNat = k) →
           t.keySlot k = { s.keySlot k with state := 2, key := 0 }) ∧
         ((∀ e, e < 15 → (s.sealEntry e).valid = true → (s.sealEntry e).key.toNat ≠ k) → t.keySlot k = {}) ∧
         ∀ j, j ≠ k → (s.keySlot j).state ≠ 2 → t.keySlot j = s.keySlot j)) ∧
  (∀ (r : Req) (entry : Fin 16) (v : Word) (s : State) (e : Nat) (old : SealEntry), e = entry.val → old = s.sealEntry e →
     s.live domSEC = true → r.spec = none → s.reaches r = true → r.cls = .host ∨ r.cls = .lamp →
     (e = 15 → exec (.sealEntryWrite r entry v) s = .next s ∧ exec (.rightsWrite r entry v) s = .next s) ∧
     (∀ rg key : Nat, e ≠ 15 → rg = fld v 0 5 → key = fld v 5 4 →
       (2 ≤ old.region.toNat → (s.regionAt old.region.toNat).valid = false) → (s.regionAt rg).valid = false → 2 ≤ rg → key ≠ 15 →
       (bitOf v 9 = true → (s.keySlot key).state ≠ 2) →
       (∀ j, j < 15 → j ≠ e → (s.sealEntry j).valid = true → (s.sealEntry j).region.toNat ≠ rg) →
       (∀ p ∈ s.sre.cache, s.entryOfTag p.addr ≠ some e) →
       ∃ t, exec (.sealEntryWrite r entry v) s = .next t ∧
         t = { s with sre := { s.sre with entries := t.sre.entries, keys := t.sre.keys } } ∧
         t.sealEntry e = { old with region := BitVec.ofNat 5 rg, key := BitVec.ofNat 4 key, valid := bitOf v 9 } ∧
         (∀ j, j ≠ e → t.sealEntry j = s.sealEntry j) ∧ ∀ k, (s.keySlot k).state ≠ 2 → t.keySlot k = s.keySlot k) ∧
     (e ≠ 15 → (∀ i, i < 7 → fld v (2 * i) 2 ≤ fld old.rights (2 * i) 2) →
       exec (.rightsWrite r entry v) s = .next (s.setSealEntry e { old with rights := BitVec.ofNat 14 (fld v 0 14) })) ∧
     (e ≠ 15 → (∃ i, i < 7 ∧ fld old.rights (2 * i) 2 < fld v (2 * i) 2) → exec (.rightsWrite r entry v) s = .next (s.vio 67)) ∧
     exec (.alarmClear r) s = .next
       { s with sre := { s.sre with alarm := false, ovf := false, regionMask := 0, fails := [] } })
-- the fabric's shell

/-- CLK_FPLL_WRITE, PLL_LOCK, CLK_GC_SEL_WRITE and CLK_PORT_SEL_WRITE (R307, R308, R319, R332–R334, R402): a legal PLL word is
stored, and a new multiplier, divider or a stop unlocks the PLL; word 2 is read-only; a refused word is a violation and
changes nothing else; a running PLL locks; a global clock takes a locked source and its mux switches; a port group changes
clock while detached. -/
def Obligations.FabricClockWritesComplete : Prop :=
  ∀ (r : Req) (die : Die) (s : State) (v : Word) (d : Nat), d = die.val → r.spec = none → s.reaches r = true →
    s.live (domBRG d) = true →
    (∀ (pll : Fin 4) (word : Fin 3),
      (word.val = 2 → exec (.clkFpllWrite r die pll word v) s = .next s) ∧
      (word.val < 2 → s.fpllHeld d pll.val word.val v = true ∨ s.fpllOk d pll.val word.val v = false →
        exec (.clkFpllWrite r die pll word v) s = .next (s.vio (52 + d))) ∧
      (word.val < 2 → s.fpllHeld d pll.val word.val v = false → s.fpllOk d pll.val word.val v = true →
        ∃ t, exec (.clkFpllWrite r die pll word v) s = .next t ∧
          t = { s with regs := (s.store .fpll [d, pll.val, word.val] v).regs, fabs := t.fabs } ∧
          t.pll d pll.val = (if word.val = 0 ∧ (fld v 0 12 ≠ s.rf .fpll [d, pll.val, 0] 0 12 ∨ bitOf v 12 = false)
            then { s.pll d pll.val with locked := false, overBits := 0 } else s.pll d pll.val) ∧
          ∀ k, k ≠ pll.val → t.pll d k = s.pll d k)) ∧
    (∀ pll : Fin 4, s.on (domDie d pll.val) = true → s.rb .fpll [d, pll.val, 0] 12 = true → s.clk.holding = false →
      ∃ t, exec (.pllLock die pll) s = .next t ∧ t = { s with fabs := t.fabs } ∧
        t.pll d pll.val = { s.pll d pll.val with locked := true } ∧ ∀ k, k ≠ pll.val → t.pll d k = s.pll d k) ∧
    (∀ (gc : Fin 30) (src : Nat), src = fld v 0 4 →
      ((s.pll d (src / 4)).locked = false → exec (.clkGcSelWrite r die gc v) s = .next (s.vio (52 + d))) ∧
      ((s.pll d (src / 4)).locked = true → bitOf (s.fab d).gcPending gc.val = false →
        ∃ t, exec (.clkGcSelWrite r die gc v) s = .next t ∧
          t = { s with regs := (s.store .gcSel [d, gc.val] v).regs, fabs := t.fabs } ∧
          ∀ g, g < 30 → bitOf (t.fab d).gcPending g = (bitOf (s.fab d).gcPending g ||
            (g == gc.val && s.gcEn d g && bitOf v 4 && src != s.gcSrc d g)))) ∧
    (∀ (group : Fin 6) (src : Nat), src = fld v 0 5 →
      (30 ≤ src ∨ src ≠ s.rf .portSel [d, group.val] 0 5 ∧ s.groupDetached d group.val = false →
        exec (.clkPortSelWrite r die group v) s = .next (s.vio (52 + d))) ∧
      (src < 30 → src = s.rf .portSel [d, group.val] 0 5 ∨ s.groupDetached d group.val = true →
        ∃ t, exec (.clkPortSelWrite r die group v) s = .next t ∧ t = { s with
          regs := (s.store .portSel [d, group.val] (BitVec.ofNat 32 (src + 32 * b2n (bitOf v 5 &&
            (groupQuads group.val).any fun q => s.on (domDie d q))))).regs,
          fabs := t.fabs }))

/-- LTX_FRAME, REGP_ACCESS and REGP_TIMEOUT (R35, R40, R59, R62, R320, R323, R324): a frame that the lane's empty FIFO takes
leaves on its data lane where the bundle transmits and no loopback is set, is discarded where it does not transmit or sends
PRBS-31, and waits in a near-end loopback; a frame is a violation of the port where it is too long or starts inside another; a
user-space access goes to user logic, which answers it or keeps it waiting in arrival order until its timeout answers an
error. NETP_REQUEST, PANE_READ and PANE_WRITE (R310–R312, R325): a request of an attached port that has room for the response
reads or writes the device space and is answered with its tag; a Pane RAM word without error reads as stored at either port,
and with one bit in error it reads the same with ce; a read that meets the other port's write gives the old data; a write
stores the bytes of its mask, and in RAW mode all 39 bits; of two writes of one word in a cycle port B's is the one. -/
def Obligations.ShellPortsComplete : Prop :=
  (∀ (die : Die) (s : State) (d : Nat), d = die.val →
     (∀ (b : Bundle) (lane : DLane) (bs : List Byte) (k : Nat) (x : LaneSt), k = d * 112 + b.val * 7 + lane.val → x = s.lane k →
       s.portAttached d (if b.val < 8 then 3 else 4) (if b.val < 8 then 2 else 3) = true →
       (bs.length ≤ 1021 → x.ltx = [] → ∃ t, exec (.ltxFrame die b lane bs false) s = .next t ∧
         t = { s with lanes := t.lanes, outbox := t.outbox } ∧ (∀ j, j ≠ k → t.lane j = s.lane j) ∧
         (s.on (domLG d b.val) = false ∨ s.rb .laneBctrl [d, b.val] 12 = false ∨ s.rb .laneBctrl [d, b.val] 13 = true →
           t.lane k = x ∧ t.outbox = s.outbox) ∧
         (s.on (domLG d b.val) = true → s.rb .laneBctrl [d, b.val] 12 = true → s.rb .laneBctrl [d, b.val] 13 = false →
           (s.rf .laneBctrl [d, b.val] 8 2 = 0 → t.lane k = { x with sinceComma := (t.lane k).sinceComma } ∧
             ∃ pre, t.outbox = s.outbox ++ pre ++ [.laneFrame die b (Fin.ofNat 7 lane.val) bs] ∧
               (pre = [] ∨ pre = [.laneComma die b (Fin.ofNat 7 lane.val)])) ∧
           (2 ≤ s.rf .laneBctrl [d, b.val] 8 2 → x.looping = true →
             t.lane k = { x with ltx := [bs] } ∧ t.outbox = s.outbox))) ∧
       (1021 < bs.length → exec (.ltxFrame die b lane bs false) s = .next (s.vioSink d (10 + b.val))) ∧
       exec (.ltxFrame die b lane bs true) s = .next (s.vioSink d (10 + b.val))) ∧
     (∀ (r : Req) (addr : BitVec 23) (write : Bool) (v : Word), r.spec = none → s.reaches r = true →
       (s.live (domBRG d) = false → exec (.regpAccess r die addr write v none) s = .next (s.darkTo r (domBRG d))) ∧
       (s.live (domBRG d) = true → s.bridgeUp d = true → s.live (domDie d 0) = true →
         (s.portAttached d 5 0 = false → exec (.regpAccess r die addr write v none) s = .next (s.answer r .error)) ∧
         (s.portAttached d 5 0 = true →
           ((s.fab d).regp = [] → ∀ (w : Word) (err : Bool), ∃ t, exec (.regpAccess r die addr write v (some (w, err))) s = .next t ∧
             t = { s with
               outbox := s.outbox ++ [.regp die addr write v r.cls r.rnum,
                 .reply r (if err then .error else if write then .ok else .word w)],
               fabs := t.fabs,
               cnt := t.cnt } ∧ (t.fab d).regp = [] ∧ (r.cls ≠ .host ∨ err = false → t.cnt = s.cnt)) ∧
           ((s.fab d).regp = [] → ∃ t, exec (.regpAccess r die addr write v none) s = .next t ∧
             t = { s with outbox := s.outbox ++ [.regp die addr write v r.cls r.rnum], fabs := t.fabs } ∧
             t.fab d = { s.fab d with
               regp := [{ r := r, addr := addr, write := write, data := v, answer := none }], regpWait := 0 }) ∧
           ((s.fab d).regp ≠ [] → ∃ t, exec (.regpAccess r die addr write v none) s = .next t ∧ t = { s with fabs := t.fabs } ∧
             t.fab d = { s.fab d with
               regp := (s.fab d).regp ++ [{ r := r, addr := addr, write := write, data := v, answer := none }] })))) ∧
     (∀ q : RegpReq, (s.fab d).regp = [q] → Plain s → q.r.spec = none → q.drop = false → ∃ t, exec (.regpTimeout die) s = .next t ∧
       t = { s with outbox := s.outbox ++ [.reply q.r .error], fabs := t.fabs, cnt := t.cnt } ∧ (t.fab d).regp = [] ∧
       Rose s t vioName hub (48 + d) 1 ∧ (q.r.cls ≠ .host → Counted s t vioName hub (48 + d) 1))) ∧
  (∀ (die : Die) (s : State) (d : Nat), d = die.val → Plain s →
     (∀ (port : Fin 4) (addr : Addr) (len : Nat) (tag : BitVec 6) (bs : List Byte) (mask : BitVec 64) (a st k : Nat),
       s.portAttached d 2 port.val = true → s.live (domBRG d) = true → s.bridgeUp d = true → 1 ≤ len → len ≤ 64 →
       (s.portResp d (6 + port.val)).length < 64 → a = addr.toNat → a < nearEnd → s.live domSPN = true →
       s.place a = .near st k → s.sealOf k = none → s.live (domNBC st) = true → a % 2048 + len ≤ 2048 → CleanPage s (a / 2048) →
       (∃ t, exec (.netpRequest die port false addr len tag bs mask []) s = .next t ∧ t = { s with fabs := t.fabs } ∧
         t.portResp d (6 + port.val) = s.portResp d (6 + port.val) ++
           [.netp die port.val tag 0 ((Memory.bytes s.mem a len).map some)] ∧ ∀ e, e ≠ d → t.fab e = s.fab e) ∧
       (bs.length = len → (∀ i, i < len → mask.getLsbD i = true) →
         ∃ t, exec (.netpRequest die port true addr len tag bs mask []) s = .next t ∧
           t.mem = Memory.putAll s.mem a bs ∧ t.outbox = s.outbox ∧ t.regs = s.regs ∧
           ((∀ x ∈ t.noc.snoops, x.2 < a / 64 ∨ (a + len + 63) / 64 ≤ x.2) →
             t.portResp d (6 + port.val) = s.portResp d (6 + port.val) ++ [.netp die port.val tag 0 []]))) ∧
     (∀ (block : Fin 1920) (word : Fin 2048) (port : Bool) (w : BitVec 39), s.on (domDie d (paneQuad block.val)) = true →
       w = s.paneWord d block.val word.val →
       (∀ (n : Nat) (mode : PaneMode) (ce : Bool) (shown : BitVec 39),
         (mode = .raw ∧ ce = false ∧ shown = w ∨
           mode = .checked ∧ Tbl.get 0 (s.fab d).paneErr (paneKey block.val word.val) = 0 ∧
             (n = 0 ∧ ce = false ∨ n = 1 ∧ ce = true) ∧ shown = (w.setWidth 32).setWidth 39) →
         ∃ t out, exec (.paneRead die block word ⟨port, n, mode⟩ .none) s = .next t ∧ LogOnly s t ∧ t.regs = s.regs ∧
           t.outbox = out ++ [.pane die block.val port shown ce false] ∧ t.paneWord d block.val word.val = w ∧
           (ce = false → t = { s with fabs := t.fabs, outbox := s.outbox ++ [.pane die block.val port shown false false] })) ∧
       (∀ data : BitVec 39, Tbl.get 0 (s.fab d).paneErr (paneKey block.val word.val) = 0 →
         ∃ t, exec (.paneRead die block word ⟨port, 0, .checked⟩ (.other 0xF data)) s = .next t ∧
           t = { s with
             fabs := t.fabs,
             outbox := s.outbox ++ [.pane die block.val port ((w.setWidth 32).setWidth 39) false false] } ∧
           t.paneWord d block.val word.val = (data.setWidth 32).setWidth 39) ∧
       (∀ (mask mb : BitVec 4) (data db : BitVec 39), exec (.paneWrite die block word mask data ⟨port, 0, .checked⟩ (.oneClock mb db)) s =
         exec (.paneWrite die block word mb db ⟨true, 0, .checked⟩ .none) s) ∧
       ∀ (mask : BitVec 4) (data new : BitVec 39) (mode : PaneMode),
         (mode = .raw ∧ new = data ∨
           mode = .checked ∧ Tbl.get 0 (s.fab d).paneErr (paneKey block.val word.val) = 0 ∧ new.toNat < 2 ^ 32 ∧
             ∀ i, i < 4 → fld new (8 * i) 8 = fld (if bitOf mask i then data else w) (8 * i) 8) →
         ∃ t, exec (.paneWrite die block word mask data ⟨port, 0, mode⟩ .none) s = .next t ∧ t = { s with fabs := t.fabs } ∧
           t.paneWord d block.val word.val = new ∧
           (∀ b k, b < 1920 → k < 2048 → (b, k) ≠ (block.val, word.val) → t.paneWord d b k = s.paneWord d b k) ∧
           ∀ e, e ≠ d → t.fab e = s.fab e))
-- the die bridges

/-- BRIDGE_TRAINING, BRIDGE_SWEEP_DONE and TRAINING_STATE_EXIT (R337–R342, R351, R352): a powered bridge with both clocks
leaves DOWN; its clocks pass and it sweeps, counting the try; the swept wires take their delays; ASSIGN, DESKEW, EXCHANGE and
VERIFY follow one another, and a failed DESKEW, EXCHANGE or VERIFY sweeps again up to three times; verified, it is UP, and
outside a return the die runs. FLIT_RECEIVE, RETRAIN_TRIGGER, REQ_RETRAIN, RETRAIN_DONE and SUSPECT_EXPIRY (R344–R350, R356):
a corrected flit marks its wire and counts; an uncorrectable one is replayed and counts; a bridge that is UP is held for a
retrain of the bundle that is named, by its own finding, once the threshold is reached within 1,024 cycles, or by command; the
retrain ends UP with its length and bundle shown, or DOWN; a suspect mark expires. The wire delays after DESKEW are free
values (log entry 1). -/
def Obligations.BridgesComplete : Prop :=
  (∀ (die : Die) (s : State) (d : Nat) (b : Bridge), d = die.val → b = s.bridge d →
     (b.state = 0 → s.on (domBRG d) = true → s.on domSPN = true → bitOf s.clk.locked d = true → bitOf s.clk.locked 4 = true →
       exec (.bridgeTraining die) s = .next (s.setBridge d { b with state := 1, tries := 0 })) ∧
     (∀ sweep : BridgeSweep, b.state = 2 →
       exec (.bridgeSweepDone die sweep) s = .next (s.setBridge d { b.sweepAll sweep with state := 3 })) ∧
     (∀ u w : Bool, b.state = 1 → ∃ t, exec (.trainingStateExit die (.clocked u w)) s = .next t ∧ t = { s with brg := t.brg } ∧
       t.bridge d = { b with upCks := u, downCks := w, state := 2, tries := b.tries + 1 }) ∧
     (∀ b1 b2 : Bridge, b.state = 3 → s.assignDir d b false = some b1 → s.assignDir d b1 true = some b2 →
       exec (.trainingStateExit die .assigned) s = .next (s.setBridge d { b2 with state := 4 })) ∧
     (b.state = 4 → ∃ t n, exec (.trainingStateExit die (.deskewed none)) s = .next t ∧
       t = { s with brg := t.brg, freeCtr := t.freeCtr } ∧ t.bridge d = { b with state := 5, shiftFrom := some n }) ∧
     (∀ (w : Word) (dir : Bool), b.state = 5 → (s.brg.level = 0 ∨ b.firstWord = some w) →
       exec (.trainingStateExit die (.exchanged (some w) dir)) s = .next (s.setBridge d
         { b with capWord := some w, reported := true, state := 6, firstWord := some w })) ∧
     (b.state = 6 → (bitOf s.su.ended 3 = true ∨ ∃ e, e < 4 ∧ e ≠ d ∧ (s.bridge e).state ≠ 7 ∧ (s.bridge e).state ≠ 9) →
       ∃ t, exec (.trainingStateExit die (.verified none)) s = .next t ∧ t.bridge d = { b with state := 7 } ∧
         bitOf t.noc.dieEpoch d = s.noc.active ∧ t.dieState d = (if s.dieState d = 1 then 1 else 2) ∧
         t.mem = s.mem) ∧
     (∀ (i : Nat) (ev : TrainEvent) (dir : Bool), b.state.toNat = i → b.tries.toNat < 3 →
       i = 4 ∧ ev = .deskewed (some dir) ∨ i = 5 ∧ ev = .exchanged none dir ∨ i = 6 ∧ ev = .verified (some dir) →
       exec (.trainingStateExit die ev) s = .next (s.setBridge d { b with state := 2, tries := b.tries + 1 }))) ∧
  (∀ (die : Die) (dir : Bool) (s : State) (d : Nat) (b : Bridge), d = die.val → b = s.bridge d → Plain s →
     (s.on (domBRG d) = true → b.state = 7 →
       exec (.flitReceive die dir .clean) s = .next s ∧
       (∀ (spare : Bool) (bundle : Fin 32) (wire : Fin 128) (k : Nat), k = wireAt dir spare bundle.val wire.val →
         ∃ t, exec (.flitReceive die dir (.corrected spare bundle wire)) s = .next t ∧ (t.bridge d).state = 7 ∧
           ((t.bridge d).wire k).suspect = true ∧ ((t.bridge d).wire k).errors.toNat = min ((b.wire k).errors.toNat + 1) 0x7FFF ∧
           (∀ j, j ≠ k → (t.bridge d).wire j = b.wire j) ∧ Rose s t (cn 9 0) hub (2 * d + b2n dir) 1 ∧ LogOnly s t ∧
           t.regs = s.regs) ∧
       (∀ bundle : Fin 32, ∃ t, exec (.flitReceive die dir (.uncorrectable bundle)) s = .next t ∧
         t.bridge d = { b with ues := s.within1024 b.ues (32 * b2n dir + bundle.val) } ∧
         Rose s t (cn 9 1) hub (2 * d + b2n dir) 1 ∧ Rose s t (cn 9 2) hub (2 * d + b2n dir) 1 ∧ LogOnly s t ∧
         t.regs = s.regs) ∧
       (∀ (cause : RetrainCause) (bundle : Nat) (clock : Bool) (wire : Option Nat), s.rb .brgCtrl [d] 8 = true →
         ((∃ (spare : Bool) (u : Fin 32) (w : Fin 128), cause = .wireErrors spare u w ∧
             b.inUse dir spare u.val w.val = true ∧
             s.brgThr d 0 ≤ s.recent b.ces (wireAt dir spare u.val w.val) ∧
             bundle = b.bundleOf dir spare u.val w.val ∧ clock = false ∧ wire = some (wireAt dir spare u.val w.val % 8192)) ∨
           (∃ u : Fin 32, cause = .ueErrors u ∧ s.brgThr d 4 ≤ s.recent b.ues (32 * b2n dir + u.val) ∧ bundle = u.val ∧ clock = false ∧ wire = none) ∨
           (cause = .clockMissed ∧ (if dir then b.downCks else b.upCks) = false ∧ bundle = 0 ∧ clock = true ∧ wire = none)) →
         ∃ t, exec (.retrainTrigger die dir cause) s = .next t ∧
           t.bridge d = { b with
             state := 8, rtBundle := BitVec.ofNat 5 bundle, rtDir := dir, rtClock := clock, rtWire := wire,
             ces := [], ues := [] } ∧ t.mem = s.mem ∧
           t.regs = s.regs ∧ t.noc = s.noc)) ∧
     (∀ (r : Req) (v : Word), s.live (domBRG d) = true → r.spec = none → s.reaches r = true →
       (hostOrLamp r = false → exec (.reqRetrain r die v) s = .next (s.vio (56 + d))) ∧
       (hostOrLamp r = true → b.state = 7 → ∃ t, exec (.reqRetrain r die v) s = .next t ∧
         t.bridge d = { b with
           state := 8, rtBundle := BitVec.ofNat 5 (fld v 10 5), rtDir := bitOf v 15, rtClock := false, rtWire := none,
           ces := [], ues := [] } ∧
         t.regs = (s.store .brgCtrl [d] (setBit v 9 true)).regs ∧ t.mem = s.mem ∧ t.noc = s.noc)) ∧
     (∀ (ok : Bool) (sweep : BridgeSweep) (ns : Nat), b.state = 8 →
       ∃ t, exec (.retrainDone die ok sweep ns) s = .next t ∧
         (ok = false → (t.bridge d).state = 9 ∧ (t.bridge d).lastOk = false) ∧
         (ok = true → (t.bridge d).state = 9 ∨ (t.bridge d).state = 7 ∧ (t.bridge d).lastOk = true ∧
           (t.bridge d).lastDur.toNat = min ns 65535 ∧ (t.bridge d).lastBundle = b.rtBundle ∧ (t.bridge d).lastDir = b.rtDir ∧
           (t.bridge d).lastClock = b.rtClock)) ∧
     (∀ (bundle : Fin 32) (wire : Fin 128), ∃ t, exec (.suspectExpiry die dir bundle wire) s = .next t ∧
       t = { s with brg := t.brg } ∧ ((t.bridge d).wire (dataKey dir bundle.val wire.val)).suspect = false ∧
       ∀ k, ((t.bridge d).wire k).bad = (b.wire k).bad ∧ ((t.bridge d).wire k).errors = (b.wire k).errors ∧
         (((t.bridge d).wire k).suspect = true → (b.wire k).suspect = true)))
-- the network

/-- FLIT_FORWARD, FENCED_REQUEST, RSP_TIMEOUT and SNOOP_RESEND (R31, R230, R359, R362, R363, R376, R378, R381): a router that
is on takes the flit that its endpoint injects where a buffer of its virtual channel is free, in the epoch that the endpoint
injects in, and counts by port what it corrects and what it cannot, also in the flit that waits longest at one of its places;
a flit whose control word is lost is discarded; a request to a domain that is off or fenced is counted as dark; a response
that does not come and an invalidation sent again are counted. NOC_FLIP, SHADE_COMPUTED, EPOCH_MARK and OLD_EPOCH_DRAINED
(R374–R377): a flip that the shade tables allow is pending, and one that they do not, or that meets another or the packets of
an older one, is refused; when the shade is computed the other copy rules and each die's mark is due; a die's mark moves it to
the ruling copy; the last old packets' leaving ends the flip. -/
def Obligations.TrafficComplete : Prop :=
  (∀ (s : State), Plain s →
     (∀ (rp : RouterPort) (f g : Flit) (place : Nat), s.routerOn rp = true → s.mayInject rp f = true →
       g = { f with src := BitVec.ofNat 12 (rpEnd rp), epoch := s.injects (rpEnd rp), leg := false } →
       exec (.flitForward rp (some f) place .none) s = .next (s.putFlit g (rpPlace rp) 0 1) ∧
       (∀ (err : FlitError) (n : Nat) (h : Flit), err = .oneBit ∧ n = cn 10 0 ∧ h = g ∨
           err = .rspData ∧ n = cn 10 1 ∧ h = { g with op := 2 } ∨ err = .datData ∧ n = cn 10 1 ∧ h = { g with poison := true } →
         exec (.flitForward rp (some f) place err) s =
           .next ((s.countRaw n (rpLoc rp).1 (rpLoc rp).2 1).putFlit h (rpPlace rp) 0 1)) ∧
       ∃ t, exec (.flitForward rp (some f) place .fatalWord) s = .next t ∧ Rose s t (cn 10 1) (rpLoc rp).1 (rpLoc rp).2 1 ∧
         t.noc = s.noc ∧ LogOnly s t ∧ t.regs = s.regs) ∧
     (∀ (rp : RouterPort) (place : Nat) (x : NetFlit), s.routerOn rp = true → s.waitingAt place = some x →
       exec (.flitForward rp none place .none) s = .next s ∧
       ∃ t, exec (.flitForward rp none place .fatalWord) s = .next t ∧
         Rose s t (cn 10 1) (rpLoc rp).1 (rpLoc rp).2 1 ∧ t.noc = { s.noc with flits := s.noc.flits.erase x } ∧
         LogOnly s t ∧ t.regs = s.regs) ∧
     (∀ (dom : Dom) (posted : Bool), s.live dom.val = false → s.on domSPN = true →
       exec (.fencedRequest dom posted) s = .next (s.countRaw (if posted then cn 10 5 else cn 10 4) hub dom.val 1)) ∧
     (∀ (at_ : Option Die) (addr : Addr) (loc : Nat), (at_ = none ∧ s.on domSPN = true ∧ loc = hub ∨
         ∃ d, at_ = some d ∧ s.on (domBRG d.val) = true ∧ loc = d.val) →
       ∃ t, exec (.rspTimeout at_ addr) s = .next t ∧ Rose s t (cn 10 7) loc 0 1 ∧ LogOnly s t ∧ t.regs = s.regs ∧
         t.noc = s.noc) ∧
     (∀ (cl : Cluster) (line : Addr), s.on domSPN = true → s.noc.snoops.contains (cl.val, line.toNat / 64) = true →
       exec (.snoopResend cl line) s = .next (s.countRaw (cn 10 2) hub 0 1))) ∧
  (∀ (s : State),
     (∀ r : Req, s.live domSPN = true → r.spec = none → s.reaches r = true →
       (∀ tab : SlotTable, s.shade s.spineNow = some tab → s.oldPackets = 0 → s.noc.flipPending = false →
         exec (.nocFlip r) s = .next { s with noc := { s.noc with
           flipPending := true, lastRefused := false, res0 := if s.noc.active then tab else s.noc.res0,
           res1 := if s.noc.active then s.noc.res1 else tab } }) ∧
       (s.shade s.spineNow = none ∨ s.oldPackets ≠ 0 ∨ s.noc.flipPending = true →
         exec (.nocFlip r) s = .next ({ s with noc := { s.noc with lastRefused := true } }.vio 73))) ∧
     (s.on domSPN = true → s.noc.flipPending = true → ∃ t, exec .shadeComputed s = .next t ∧
       t = { s with noc := t.noc } ∧ t.noc.flits = s.noc.flits ∧ t.noc.active = !s.noc.active ∧ t.noc.flipPending = false ∧
       t.noc.res0 = s.noc.res0 ∧ t.noc.res1 = s.noc.res1 ∧ t.noc.dieEpoch = s.noc.dieEpoch ∧ t.noc.snoops = s.noc.snoops ∧
       ∀ d, d < 4 → bitOf t.noc.marksDue d = s.live (domBRG d)) ∧
     (∀ die : Die, bitOf s.noc.marksDue die.val = true → s.live (domBRG die.val) = true →
       exec (.epochMark die) s = .next { s with noc := { s.noc with
         marksDue := setBit s.noc.marksDue die.val false, dieEpoch := setBit s.noc.dieEpoch die.val s.noc.active } }) ∧
     (s.on domSPN = true → (∀ d, d < 4 → bitOf s.noc.marksDue d = true → s.live (domBRG d) = false) →
       ∃ t, exec .oldEpochDrained s = .next t ∧ t.oldPackets = 0 ∧ t.regs = s.regs ∧ t.mem = s.mem ∧
         t.noc = { s.noc with flits := s.noc.flits.filter fun x => x.flit.epoch == s.noc.active }))
-- power and heat

/-- AVS_STEP, PROFILE_SET, PMG_LIMIT_WRITE and SHED_CHECK (R411–R420, R432): a domain's voltage follows its monitor within the
limits of the curve point that carries its frequency, 2.5 mV a step, and stays where no point does; a profile that the part
can run is chosen and, outside the last shed step, runs, and the power limit is capped by its budget; a limit of at least 100
is taken up to the budget; the shedding takes and gives back one step at a time, back once power has stayed below 90 % of the
limit for ten of the 1 ms checks. SENSOR_SAMPLE and OVERCURRENT (R421–R427): a reading in range is the sensor's temperature;
from 84 °C the warning stands, and from 92 °C the part shuts down; a reading out of range, or a second one missed, fails the
sensor; too much current shuts the part down on the domains that it cannot do without, and starts the Eclipse of any other
domain or die. -/
def Obligations.PowerAndHeatComplete : Prop :=
  (∀ (s : State), Plain s →
     (∀ (dom : Dom) (slack : Int) (f g v : Nat), s.on dom.val = true →
       g = (spineDomMHz dom.val s.spineNow).getD f → v = Tbl.get 0 s.pw.voltage dom.val →
       exec (.avsStep dom slack f) s = .next (match curvePoint dom.val g with
         | none => s
         | some j => s.setVolt dom.val (if s.rb .pmgCtrl [] 3 = false then 2 * curveMax dom.val j
           else max (2 * curveMin dom.val j) (min (if slack < 15 then v + 5 else if 30 < slack then v - 5 else v)
             (2 * curveMax dom.val j))))) ∧
     (∀ (lamp : Bool) (profile : Word) (p : Nat), PortFree lamp s → p = profile.toNat → p < 256 →
       (∀ c, s.profileCode p = some c → ∃ t, exec (.profileSet lamp profile) s = .next t ∧ t.hif.busy = false ∧
         t.hif.status = BitVec.ofNat 8 c ∧ t.pw.chosen = s.pw.chosen ∧ t.pw.running = s.pw.running ∧ t.regs = s.regs) ∧
       (2 < p → s.profileCode p = some 0x38) ∧
       (s.profileCode p = none → ∃ t, exec (.profileSet lamp profile) s = .next t ∧ t.hif.busy = true ∧ t.hif.endCode = some 0 ∧
         t.pw.chosen.toNat = p ∧ t.pw.changing = true ∧ (s.pw.step = 6 → t.pw.running = s.pw.running) ∧
         (s.pw.step ≠ 6 → t.pw.running.toNat = p) ∧ t.pw.on = s.pw.on ∧
         t.rf .pmgLimit [] 0 16 = min (s.rf .pmgLimit [] 0 16) (budget p))) ∧
     (∀ (r : Req) (v : Word), s.live domSPN = true → r.spec = none → s.reaches r = true → hostOrLamp r = true →
       (fld v 0 16 < 100 → exec (.pmgLimitWrite r v) s = .next (s.vio 78)) ∧
       (100 ≤ fld v 0 16 → ∃ t, exec (.pmgLimitWrite r v) s = .next t ∧ t = { s with regs := t.regs } ∧
         t.rf .pmgLimit [] 0 16 = min (fld v 0 16) (budget s.pw.chosen.toNat) ∧
         ∀ k, k ≠ RegName.off .pmgLimit [] → Tbl.get 0 t.regs k = Tbl.get 0 s.regs k)) ∧
     (∀ (vin vaux mw limit : Nat) (settled : Bool), mw = vin + vaux → s.su.thermalOff = false → s.su.dark = false → s.on domSPN = true →
       s.rb .pmgCtrl [] 0 = true → limit = s.rf .pmgLimit [] 0 16 * 1000 → mw < 2 ^ 20 →
       (limit < mw → exec (.shedCheck vin vaux false) s =
         .next { s with pw := { s.pw with power := BitVec.ofNat 20 mw, lowChecks := none } }) ∧
       (∀ n, limit < mw → s.nextStep = some n → ∃ t, exec (.shedCheck vin vaux true) s = .next t ∧
         t.pw.step.toNat = n ∧ t.pw.power.toNat = mw ∧ t.pw.lowChecks = none ∧ t.pw.chosen = s.pw.chosen ∧ t.pw.on = s.pw.on) ∧
       (mw ≤ limit → s.pw.warn = false →
         (limit * 9 ≤ mw * 10 → exec (.shedCheck vin vaux settled) s =
           .next { s with pw := { s.pw with power := BitVec.ofNat 20 mw, overLimit := false, lowChecks := none } }) ∧
         (∀ k, mw * 10 < limit * 9 → s.pw.lowChecks = none ∧ k = 0 ∨ (∃ j, s.pw.lowChecks = some j ∧ j < 9 ∧ k = j + 1) →
           exec (.shedCheck vin vaux settled) s =
             .next { s with pw := { s.pw with power := BitVec.ofNat 20 mw, overLimit := false, lowChecks := some k } }) ∧
         (∀ j, mw * 10 < limit * 9 → s.pw.lowChecks = some j → 9 ≤ j → 0 < s.pw.step.toNat →
           ∃ t, exec (.shedCheck vin vaux settled) s = .next t ∧ t.pw.overLimit = false ∧ t.pw.power.toNat = mw ∧
             t.pw.lowChecks = some 0 ∧
             t.pw.step.toNat = (if s.pw.step.toNat = 6 ∧ s.anyShedOk = false then 4 else s.pw.step.toNat - 1))))) ∧
  (∀ (s : State), Plain s →
     (∀ (sensor : Fin 96) (k : Nat) (x : Sensor), k = sensor.val → x = s.sensor k → s.rails.vaux = true →
       s.su.thermalOff = false →
       (x.failed = true → ∀ v, exec (.sensorSample sensor v) s = .next s) ∧
       (x.failed = false →
         (∀ v : Int, -440 ≤ v → v < 840 → ∃ t, exec (.sensorSample sensor (some v)) s = .next t ∧
           t.sensor k = { x with temp := BitVec.ofInt 12 v, missed := 0 } ∧ (∀ j, j ≠ k → t.sensor j = s.sensor j) ∧
           t.pw.on = s.pw.on ∧ t.pw.fenced = s.pw.fenced ∧ (t.pw.warn = true → s.pw.warn = true) ∧ t.mem = s.mem ∧
           t.regs = s.regs) ∧
         (∀ v : Int, 840 ≤ v → v < 880 → ∃ t, exec (.sensorSample sensor (some v)) s = .next t ∧ t.pw.warn = true ∧
           t.sensor k = { x with temp := BitVec.ofInt 12 v, missed := 0 } ∧ t.pw.on = s.pw.on ∧ t.regs = s.regs) ∧
         (∀ v : Int, 920 ≤ v → v ≤ 1200 → ∃ t, exec (.sensorSample sensor (some v)) s = .next t ∧ t.su.thermalOff = true ∧
           t.flt.nmeThermal = true ∧ t.hif.up = false ∧ t.su.dieState = 0) ∧
         (∀ v : Option Int, v = none ∧ 1 ≤ x.missed ∨ (∃ w, v = some w ∧ (w < -440 ∨ 1200 < w)) →
           ∃ t, exec (.sensorSample sensor v) s = .next t ∧ (t.sensor k).failed = true ∧ Rose s t (cn 12 4) hub k 1 ∧
             t.pw.on = s.pw.on ∧ t.regs = s.regs) ∧
         (x.missed = 0 → exec (.sensorSample sensor none) s = .next (s.setSensor k { x with missed := 1 })))) ∧
     (∀ (dom : Dom) (n : Nat), n = dom.val → s.on n = true →
       (n = 36 ∨ 44 ≤ n ∧ n ≤ 46 → ∃ t, exec (.overcurrent dom) s = .next t ∧ t.su.thermalOff = true ∧ t.flt.nmeThermal = true) ∧
       (n < 36 ∧ n % 9 ≠ 8 ∨ 37 ≤ n ∧ n ≤ 43 ∨ n = 47 → s.live n = true → ∃ t, exec (.overcurrent dom) s = .next t ∧
         t.live n = false ∧ t.on n = true ∧ Rose s t (cn 12 3) hub n 1 ∧
         Tbl.get none t.pw.ecl n = some { whole := false, cause := 6 }) ∧
       (n < 36 → n % 9 = 8 → s.dieState (n / 9) ≠ 3 → ∃ t, exec (.overcurrent dom) s = .next t ∧
         t.dieState (n / 9) = 3 ∧ Rose s t (cn 12 3) hub n 1 ∧ Tbl.get none t.pw.ecl n = some { whole := true, cause := 6 })))
-- domains and dies

/-- ECLIPSE_FENCE, DRAIN_END and ECLIPSE_POWER_OFF (R378, R379, R424–R426, R433): an Eclipse whose cause holds fences its
domain, or the whole die; its drain ends with its length and whether it was forced, as it is where something is still owed,
after 16 µs, or where the die has lost its clock, and isolates; the power-off takes the supply, keeps PMG_ECL_LAST and counts,
and a die that is gone is OUT; a domain reset keeps its supply. -/
def Obligations.EclipsesComplete : Prop :=
  ∀ (dom : Dom) (s : State) (n : Nat), n = dom.val → Plain s →
    (∀ (whole : Bool) (cause : BitVec 3),
      (n < 36 → whole = true ∨ n % 9 = 8 → s.dieState (n / 9) = 2 → s.on (domBRG (n / 9)) = true →
        s.dieCause (n / 9) cause.toNat = true →
        ∃ t, exec (.eclipseFence dom whole cause) s = .next t ∧ t.dieState (n / 9) = 3 ∧ t.pw.on = s.pw.on ∧
          Tbl.get none t.pw.ecl (domBRG (n / 9)) = some { whole := true, cause := cause } ∧
          ∀ i, i < 9 → t.live (domDie (n / 9) i) = false) ∧
      (n < 36 ∧ whole = false ∧ n % 9 ≠ 8 ∨ 37 ≤ n ∧ n ≤ 43 ∨ n = 47 → s.live n = true →
        cause = 0 ∧ s.domCode n true = 0 ∨ cause = 6 →
        ∃ t, exec (.eclipseFence dom whole cause) s = .next t ∧ t.live n = false ∧ t.pw.on = s.pw.on ∧
          Tbl.get none t.pw.ecl n = some { whole := false, cause := cause }) ∧
      (n = 36 ∨ 44 ≤ n ∧ n ≤ 46 → exec (.eclipseFence dom whole cause) s = .next s)) ∧
    (∀ (k owed ns left len : Nat) (q : EclSeq) (forced f : Bool), s.seqOf n = some (k, q) → bitOf s.pw.isolated k = false →
      left = owed + (if k < 36 ∧ (q.whole = true ∨ k % 9 = 0) then (s.fab (k / 9)).regp.length else 0) →
      f = (forced || decide (0 < left) || decide (4000 ≤ ns) || (q.whole && q.cause == 3)) →
      len = (if f then max ns 4000 else ns) →
      ∃ t, exec (.drainEnd dom owed forced ns) s = .next t ∧ bitOf t.pw.isolated k = true ∧ t.pw.on = s.pw.on ∧
        t.pw.fenced = s.pw.fenced ∧
        Tbl.get none t.pw.ecl k = some { q with forced := f, drain := BitVec.ofNat 11 (min (len / 4) 2047) } ∧
        (f = true → Rose s t (cn 10 6) hub k left)) ∧
    (∀ (k : Nat) (q : EclSeq), s.seqOf n = some (k, q) → bitOf s.pw.isolated k = true →
      (q.whole = false → q.back = false → s.on k = true →
        ∃ t, exec (.eclipsePowerOff dom) s = .next t ∧ t.on k = false ∧ Tbl.get 0 t.pw.voltage k = 0 ∧
          Tbl.get none t.pw.ecl k = none ∧ t.pw.eclDom.toNat = k ∧ t.pw.eclDie = false ∧ t.pw.eclCause = q.cause ∧
          t.pw.eclForced = q.forced ∧ t.pw.eclDrain = q.drain ∧ (∀ i, i < 48 → i ≠ k → t.on i = s.on i) ∧
          Rose s t (cn 12 5) hub k 1) ∧
      (q.whole = true → ¬(s.su.dieBusy = true ∧ q.cause = 2) →
        ∃ t, exec (.eclipsePowerOff dom) s = .next t ∧ t.dieState (k / 9) = 0 ∧ t.pw.eclDie = true ∧ t.pw.eclCause = q.cause ∧
          (∀ i, i < 9 → t.on (domDie (k / 9) i) = false) ∧ ∀ i, i < 48 → i / 9 ≠ k / 9 → t.on i = s.on i) ∧
      (q.whole = false → q.back = true →
        ∃ t, exec (.eclipsePowerOff dom) s = .next t ∧ t.pw.on = s.pw.on ∧ Tbl.get none t.pw.ecl k = none))

/-- DOMAIN_POWER_OFF, DOMAIN_POWER_ON, DOMAIN_POWER_ON_DONE and DOMAIN_RESET (R426, R428, R429, R433, R444, R452, R454): a
request that R428's table refuses shows the code; a power-off or a reset of a running domain fences it; a power-on gives it
its supply, fenced and isolated, and its end lifts both and ends the request; a requester without the right is a violation.
The contents after a power-on are free values (log entry 1). -/
def Obligations.DomainRequestsComplete : Prop :=
  ∀ (r : Req) (dom : BitVec 6) (s : State) (n : Nat), n = dom.toNat →
    (s.live domSPN = true → r.spec = none → s.reaches r = true →
      (hostOrLamp r = false → exec (.domainPowerOff r dom) s = .next (s.vio 78) ∧
        exec (.domainPowerOn r dom) s = .next (s.vio 78)) ∧
      (hostOrLamp r = true →
        (∀ on : Bool, s.domCode n (!on) ≠ 0 → exec (if on then .domainPowerOn r dom else .domainPowerOff r dom) s = .next
          ({ s with pw := { s.pw with
            reqDom := dom, reqOn := on, reqResult := BitVec.ofNat 8 (s.domCode n (!on)) } }.vio 77)) ∧
        (s.domCode n true = 0 → s.on n = false → exec (.domainPowerOff r dom) s = .next
          { s with pw := { s.pw with reqDom := dom, reqOn := false, reqResult := 0 } }) ∧
        (s.domCode n true = 0 → s.on n = true → ∃ t, exec (.domainPowerOff r dom) s = .next t ∧ t.live n = false ∧
          t.pw.on = s.pw.on ∧ t.pw.reqRuns = s.pw.reqRuns ++ [n] ∧ t.pw.reqDom = dom ∧ t.pw.reqOn = false ∧
          Tbl.get none t.pw.ecl n = some { whole := false, cause := 0 }) ∧
        (s.domCode n false = 0 → s.on n = false → ∃ t, exec (.domainPowerOn r dom) s = .next t ∧
          t = { s with pw := t.pw, freeCtr := t.freeCtr } ∧ t.on n = true ∧ bitOf t.pw.fenced n = true ∧
          bitOf t.pw.isolated n = true ∧ t.pw.reqRuns = s.pw.reqRuns ++ [n] ∧ t.pw.reqDom = dom ∧ t.pw.reqOn = true)) ∧
      (s.rstWriter r = false → exec (.domainReset r dom) s = .next (s.vio 79)) ∧
      (s.rstWriter r = true → s.su.domBusy = true → exec (.domainReset r dom) s = .next (s.vio 79)) ∧
      (s.rstWriter r = true → s.su.domBusy = false →
        (s.domCode n true ≠ 0 → ∃ t, exec (.domainReset r dom) s = .next t ∧
          t = { s with regs := (s.store .rstDomReq [] (BitVec.ofNat 32 n)).regs, su := t.su } ∧
          t.su = { s.su with domResult := BitVec.ofNat 8 (s.domCode n true) }) ∧
        (s.domCode n true = 0 → (n < 36 → s.dieOut (n / 9) = false) → s.on n = true →
          ∃ t, exec (.domainReset r dom) s = .next t ∧ t.live n = false ∧ t.pw.on = s.pw.on ∧ t.su.domBusy = true ∧
            Tbl.get none t.pw.ecl n = some { whole := false, cause := 0, back := true }))) ∧
    (∀ m : Dom, m.val = n → s.on n = true → bitOf s.pw.fenced n = true → s.seqOf n = none →
      36 ≤ n ∨ n % 9 ≠ 8 ∧ s.dieState (n / 9) = 2 → s.clk.holding = false →
      ∃ t, exec (.domainPowerOnDone m) s = .next t ∧ t.live n = true ∧ bitOf t.pw.isolated n = false ∧ t.pw.on = s.pw.on ∧
        (n ∈ s.pw.reqRuns → t.pw.reqRuns = s.pw.reqRuns.filter (fun k => k != n) ∧ (s.pw.reqDom = dom → t.pw.reqResult = 0)))

/-- DIE_RESET, CORE_RESET and SPINE_LOCK_LOSS (R396, R445, R446, R452, R454): a running die that can be restored starts its
Eclipse, and otherwise shows the code; a Facet's registers clear and its memories and prefetched item stay, and the Lamp
starts over; a core that does not exist or is out shows the code; a die whose spine clock is lost is fenced. DIE_ECLIPSE,
DIE_RESTORE and RESTORE_COMPLETE (R446–R450): a running die is fenced by command and the port stays busy until it is gone; a
die that is OUT gets its bridge's supply and trains; its copy read whole, every domain of it is live and it runs, and
otherwise it is fenced again; a command that cannot start ends with its code. -/
def Obligations.DieResetsAndCommandsComplete : Prop :=
  (∀ (r : Req) (s : State), Plain s →
     (∀ (die : Die) (d : Nat), d = die.val → s.live domSPN = true → r.spec = none → s.reaches r = true →
       (s.rstWriter r = false ∨ s.su.dieBusy = true → exec (.dieReset r die) s = .next (s.vio 79)) ∧
       (∀ code : Nat, s.rstWriter r = true → s.su.dieBusy = false → code = (if s.dieState d = 2 then s.restoreCode d else 0x3C) →
         (code ≠ 0 → exec (.dieReset r die) s = .next
           { s with
             regs := (s.store .rstDieReq [] (BitVec.ofNat 32 d)).regs,
             su := { s.su with dieResult := BitVec.ofNat 8 code } }) ∧
         (code = 0 → s.on (domBRG d) = true → ∃ t, exec (.dieReset r die) s = .next t ∧ t.dieState d = 3 ∧ t.su.dieBusy = true ∧
           Tbl.get none t.pw.ecl (domBRG d) = some { whole := true, cause := 2 } ∧ t.pw.on = s.pw.on))) ∧
     (∀ (core : BitVec 11) (c : Nat), c = core.toNat → s.live domSPN = true → r.spec = none → s.reaches r = true →
       s.rstWriter r = true →
       (1024 < c → exec (.coreReset r core) s = .next
         { s with regs := (s.store .rstCoreReq [] (BitVec.ofNat 32 c)).regs, su := { s.su with coreResult := 0x30 } }) ∧
       (c < 1024 → s.dieOut (coreDie c) = true ∨ s.live (domFCA (coreDie c)) = false → exec (.coreReset r core) s = .next
         { s with regs := (s.store .rstCoreReq [] (BitVec.ofNat 32 c)).regs, su := { s.su with coreResult := 0x34 } }) ∧
       (c < 1024 → s.dieOut (coreDie c) = false → s.live (domFCA (coreDie c)) = true → Plain s →
         ∃ t, exec (.coreReset r core) s = .next t ∧ t.su.coreResult = 0 ∧ (t.core c).pc = 0 ∧ (t.core c).x = ({} : CoreSt).x ∧
           (t.core c).a = ({} : CoreSt).a ∧ (t.core c).item = none ∧ (t.core c).dmem = (s.core c).dmem ∧
           (t.core c).imem = (s.core c).imem ∧ (t.core c).prefetch = (s.core c).prefetch ∧ (t.core c).stores = (s.core c).stores ∧
           (t.core c).dbg.halted = false ∧ ((s.core c).item = none → ∀ i, i ≠ c → t.core i = s.core i) ∧
           Rose s t (cn 13 4) (coreDie c) (coreCluster c % 16) 1) ∧
       (c = 1024 → s.live domLMP = true → ∃ t, exec (.coreReset r core) s = .next t ∧ t.su.coreResult = 0 ∧ t.su.cLamp = true ∧
         (t.core c).pc = 0 ∧ (t.core c).x = ({} : CoreSt).x ∧ (t.core c).dmem = (s.core c).dmem ∧ (t.core c).imask = 0 ∧
         (t.core c).dbg.halted = false ∧ ∀ i, i ≠ c → t.core i = s.core i)) ∧
     (∀ (die : Die) (d : Nat), d = die.val → s.on (domBRG d) = true → s.dieState d = 2 → bitOf s.su.ended 3 = true →
       ∃ t, exec (.spineLockLoss die) s = .next t ∧ bitOf t.clk.locked d = false ∧ t.dieState d = 3 ∧
         Tbl.get none t.pw.ecl (domBRG d) = some { whole := true, cause := 3 } ∧ t.pw.on = s.pw.on)) ∧
  (∀ (lamp : Bool) (arg : Word) (s : State) (d : Nat), d = arg.toNat → Plain s →
     (PortFree lamp s → d < 256 →
       (∀ (i : Instr) (code : Nat),
         (i = .dieEclipse lamp arg ∧ (3 < d ∧ code = 0x3B ∨ d ≤ 3 ∧ (s.dieState d = 0 ∨ s.dieState d = 3) ∧ code = 0x3C ∨
             d ≤ 3 ∧ s.dieState d ≠ 0 ∧ s.dieState d ≠ 3 ∧ (s.cfg.staged.isSome = true ∨ s.cfg.tpActive = true) ∧ code = 0x3F) ∨
           i = .dieRestore lamp arg ∧ (3 < d ∧ code = 0x3B ∨ d ≤ 3 ∧ s.dieState d ≠ 0 ∧ code = 0x3C)) →
         ∃ t, exec i s = .next t ∧ t.hif.busy = false ∧ t.hif.status.toNat = code ∧ t.pw.on = s.pw.on ∧
           t.pw.fenced = s.pw.fenced ∧ t.su = s.su ∧ t.regs = s.regs) ∧
       (d ≤ 3 → s.dieState d = 2 → s.on (domBRG d) = true → s.cfg.staged = none → s.cfg.tpActive = false →
         (∀ e, e < 4 → e ≠ d → s.dieState e ≠ 1) →
         ∃ t, exec (.dieEclipse lamp arg) s = .next t ∧ t.hif.busy = true ∧ t.hif.endCode = none ∧ t.dieState d = 3 ∧
           Tbl.get none t.pw.ecl (domBRG d) = some { whole := true, cause := 1 } ∧ ∀ i, i < 9 → t.live (domDie d i) = false) ∧
       (d ≤ 3 → s.dieState d = 0 → s.dieHot d = false → s.su.restoreOk = true → s.loadBusy = false →
         ∃ t, exec (.dieRestore lamp arg) s = .next t ∧ t.hif.busy = true ∧ t.hif.endCode = none ∧ t.dieState d = 1 ∧
           t.on (domBRG d) = true ∧ bitOf t.clk.locked d = true ∧ (t.bridge d).state = 0 ∧ t.regs = s.regs)) ∧
     (∀ die : Die, die.val = d → s.dieState d = 1 → (s.bridge d).state = 7 → s.clk.holding = false →
       (∃ t, exec (.restoreComplete die true) s = .next t ∧ t.dieState d = 2 ∧ (∀ i, i < 8 → t.live (domDie d i) = true) ∧
         Rose s t (cn 13 0) hub d 1 ∧
         (s.su.dieBusy = true → s.rf .rstDieReq [] 0 2 = d → s.dieSettings d = [] →
           t.su.dieBusy = false ∧ t.su.dieResult = 0)) ∧
       (s.on (domBRG d) = true → ∃ t, exec (.restoreComplete die false) s = .next t ∧ t.dieState d = 3 ∧
         Rose s t (cn 13 1) hub d 1 ∧ (s.su.dieBusy = true → s.rf .rstDieReq [] 0 2 = d →
           t.su.dieBusy = false ∧ t.su.dieResult = 0x46))))
-- supplies, start-up and resets

/-- VAUX_POWER_GOOD, VIN_MAIN_POWER_GOOD, GLOW_TRUSTED, HUB_PLL_LOCK, HUB_PHASE_END, FAR_TRAINING_DONE and FIRMWARE_LOADED
(R45, R163, R388, R435–R437, R464): VAUX starts everything but the NV contents, fuses and repairs anew with the straps that
stand at its pins; the phases AON, CLOCKS, HUB and FIRMWARE end with their work done; a half's population is taken. The losses
and returns of the supplies (R395, R565–R569): VAUX takes everything but what R441 keeps; VIN_MAIN and so every switched
domain; VIO_DDR the far halves, by Eclipse; VIO_GPIO a bank of pins; VBAT the battery-backed key. The phase times of RST_MARK
are free values (log entry 1). -/
def Obligations.StartUpComplete : Prop :=
  (∀ (s : State), Plain s →
     (∀ (strap : BitVec 4) (refsel : BitVec 2) (fL : Nat), s.rails.vaux = false ∨ s.su.ended = 0 →
       ∃ t, exec (.vauxPowerGood strap refsel fL) s = .next t ∧ t.regs = [] ∧ t.mem = [] ∧ t.cores = [] ∧ t.pw = {} ∧ t.su = {} ∧
         t.tb = {} ∧ t.rails = { s.rails with vaux := true } ∧ t.board = { strap := strap } ∧
         t.clk = { refsel := refsel, fused := fL, fL := fL } ∧ t.nv = s.nv ∧ t.brg.fuses = s.brg.fuses ∧ t.outbox = s.outbox ∧
         t.cfg.fuseKf = s.cfg.fuseKf ∧ t.cfg.fuseKa = s.cfg.fuseKa ∧ (s.rails.vbat = true → t.cfg.bbKey = s.cfg.bbKey)) ∧
     (bitOf s.su.ended 0 = true → bitOf s.su.ended 1 = false → s.clk.refOk = true ∨ s.clk.onLantern = true →
       ∃ t, exec .vinMainPowerGood s = .next t ∧ t = { s with rails := { s.rails with vinMain := true }, su := t.su, freeCtr := t.freeCtr } ∧
         bitOf t.su.ended 1 = true) ∧
     (bitOf s.su.ended 0 = false ∨ s.clk.refOk = false ∧ s.clk.onLantern = false →
       exec .vinMainPowerGood s = .next { s with rails := { s.rails with vinMain := true } }) ∧
     (s.rails.vaux = true → bitOf s.su.ended 0 = false → ∃ t, exec .glowTrusted s = .next t ∧ bitOf t.su.ended 0 = true ∧
       t.clk = { s.clk with glowOk := true, lanternOn := true, qualifying := true, checkPass := 0 } ∧ t.regs = s.regs ∧
       t.mem = s.mem ∧ t.pw = s.pw) ∧
     (bitOf s.su.ended 1 = true → bitOf s.su.ended 2 = false → s.on domSPN = false → s.rails.resetN = true → s.rails.vinMain = true →
       s.su.thermalOff = false → s.su.dark = false → s.su.vinOff = false →
       ∃ t, exec .hubPllLock s = .next t ∧ t.clk = { s.clk with locked := BitVec.allOnes 5 } ∧ t.regs = s.regs ∧ t.mem = s.mem ∧
         (∀ n, n < 48 → 36 ≤ n ∨ n % 9 = 8 → t.on n = true ∧ bitOf t.pw.fenced n = true ∧ bitOf t.pw.isolated n = true) ∧
         ∀ n, n < 36 → n % 9 ≠ 8 → t.on n = s.on n) ∧
     (∀ (bs boot : List Byte), bitOf s.su.ended 1 = true → bitOf s.su.ended 2 = false → bitOf s.dbm.cleared 3 = true →
       (∀ n, 36 ≤ n → n < 48 → s.live n = true) → s.capture = none → bs = s.nvBytes (0x1D0000000 + s.board.strap.toNat * 0x1000) 0x1000 →
       boot = s.nvBytes 0x1D0010000 0x1000 →
       ∃ t, exec (.hubPhaseEnd true true) s = .next t ∧ bitOf t.su.ended 2 = true ∧
         t.board.valid = boardOk s.board.strap.toNat bs ∧ t.board.strap = s.board.strap ∧
         (∀ i, i < 512 → Tbl.get 0 t.board.entries i =
           if boardOk s.board.strap.toNat bs then BitVec.ofNat 32 (numAt bs (0x40 + 4 * i) 4) else 0) ∧
         t.su.bootImg = (if bootOk boot then slotPair (numAt boot 6 1) (numAt boot 7 1) else [0, 1]) ∧
         t.su.bootFw = (if bootOk boot then slotPair (numAt boot 8 1) (numAt boot 9 1) else [0, 1]) ∧
         t.rails = { s.rails with vioDdr := true } ∧ t.regs = s.regs ∧ LogOnly s t) ∧
     (∀ (half : Half) (dimms size : BitVec 2), s.live (domFBC half.val) = true → s.rails.vioDdr = true → s.dbg.extest = false →
       (s.half half.val).trained = false → (s.half half.val).dimms = 0 → dimms ≠ 3 → size ≠ 3 →
       ∃ t, exec (.farTrainingDone half dimms size false) s = .next t ∧ t = { s with dbm := t.dbm } ∧
         t.half half.val = { dimms := dimms, size := size, trained := dimms != 0 } ∧
         t.half (1 - half.val) = s.half (1 - half.val)) ∧
     (∀ (nv : Bool) (slot : Nat) (rest : List Nat), bitOf s.su.ended 2 = true → bitOf s.su.ended 4 = false →
       s.on domLMP = true → s.su.bootFw = slot :: rest →
       ∃ t, exec (.firmwareLoaded nv) s = .next t ∧ bitOf t.su.ended 4 = true ∧
         ((s.stage 2 0 slot 0 nv).1 = none → t.su.fwOk = true ∧ t.wdg.lampReset = false) ∧
         ((s.stage 2 0 slot 0 nv).1 ≠ none → rest = [] → t.su.fwOk = s.su.fwOk ∧ t.wdg.lampReset = s.wdg.lampReset ∧
           bitOf t.su.boot 6 = true))) ∧
  (∀ (s : State),
     (∃ t, exec .vauxLoss s = .next t ∧ t.rails = { s.rails with vaux := false } ∧ t.regs = [] ∧ t.mem = [] ∧ t.cores = [] ∧
       t.pw = {} ∧ t.su = {} ∧ t.clk = {} ∧ t.nv = s.nv ∧ t.outbox = s.outbox) ∧
     (s.on domSPN = true → ∃ t, exec .vinMainLoss s = .next t ∧ t.rails = { s.rails with vinMain := false } ∧
       t.su.vinOff = true ∧ (∀ n, n < 48 → t.on n = false) ∧ t.hif.up = false ∧ t.nv = s.nv) ∧
     (s.on domSPN = false → exec .vinMainLoss s = .next { s with rails := { s.rails with vinMain := false } }) ∧
     (∃ t, exec .vioDdrLoss s = .next t ∧ t.rails = { s.rails with vioDdr := false } ∧ t.live (domFBC 0) = false ∧
       t.live (domFBC 1) = false ∧ t.pw.on = s.pw.on ∧ t.mem = s.mem ∧ t.regs = s.regs ∧
       ∀ h, h < 2 → s.live (domFBC h) = true → Tbl.get none t.pw.ecl (domFBC h) = some { whole := false, cause := 6 }) ∧
     (∀ bank : Fin 2,
       exec (.vioGpioLoss bank) s = .next { s with rails := { s.rails with
         vioGa := s.rails.vioGa && bank.val != 0, vioGb := s.rails.vioGb && bank.val == 0 } } ∧
       exec (.vioGpioReturn bank) s = .next { s with rails := { s.rails with
         vioGa := s.rails.vioGa || bank.val == 0, vioGb := s.rails.vioGb || bank.val != 0 } }) ∧
     exec .vbatLoss s = .next { s with rails := { s.rails with vbat := false }, cfg := { s.cfg with bbWritten := [], bbKey := none } })

/-- RESET_N, RESET_N_RELEASE, PERST_N, PERST_N_DEASSERT, FLR, D3HOT_ENTRY, D0_RETURN and LINK_UP (R395, R422, R440–R443, R535,
R541, R565): what each reset reaches and what it keeps, and what the host reads and sets in configuration space as its link
comes up or, on a link that is up, again (log entry 172). -/
def Obligations.ResetsComplete : Prop :=
  ∀ (s : State), Plain s →
    (s.rails.vaux = true → s.resetRefused = false → ∃ t, exec .resetN s = .next t ∧ t.rails = { s.rails with resetN := false } ∧
      t.su.start = (if s.su.dark then 3 else if s.su.thermalOff then 2 else 1) ∧ t.su.ended = s.su.ended &&& 1 ∧
      t.su.dark = false ∧ t.su.thermalOff = false ∧ t.regs = [] ∧ t.mem = [] ∧ t.cores = [] ∧ t.pw = {} ∧ t.tb = {} ∧ t.hif = {} ∧
      t.sre.keys = [] ∧ t.nv = s.nv ∧ t.flt.aon = s.flt.aon ∧ t.cfg.bbKey = s.cfg.bbKey ∧ t.brg.fuses = s.brg.fuses ∧
      t.clk.glowOk = s.clk.glowOk ∧ t.clk.refOk = false ∧ t.outbox = s.outbox) ∧
    (s.rails.vaux = false ∨ s.resetRefused = true → exec .resetN s = .next { s with rails := { s.rails with resetN := false } }) ∧
    (∀ (strap : BitVec 4) (refsel : BitVec 2), (s.rails.resetN = true → exec (.resetNRelease strap refsel) s = .next s) ∧
      (s.rails.resetN = false → s.su.thermalOff = false → s.su.vinOff = false →
        exec (.resetNRelease strap refsel) s = .next (if bitOf s.su.ended 2 then { s with rails := { s.rails with resetN := true } }
          else { s with
            rails := { s.rails with resetN := true },
            board := { s.board with strap := strap },
            clk := { s.clk with refsel := refsel } }))) ∧
    (∀ (i : Instr) (n : Nat), (i = .perstN ∧ n = 2 ∧ s.rails.perstN = true ∧ s.su.dark = false ∧ s.on domPCI = true ∨
        i = .flr ∧ n = 3 ∧ s.live domPCI = true ∧ s.hif.up = true) →
      ∃ t, exec i s = .next t ∧ t.hif.up = (n == 3) ∧ t.hif.width = (if n = 3 then s.hif.width else 0) ∧ t.hif.bme = false ∧
        t.hif.d3hot = false ∧ t.hif.vecMask = BitVec.allOnes 64 ∧ t.hif.vecPend = 0 ∧ t.hif.argLamp = s.hif.argLamp ∧
        t.hif.busy = s.hif.busy ∧ t.hif.rings = s.hif.rings ∧ t.su.cPerst = (s.su.cPerst || n == 2) ∧
        t.su.cFlr = (s.su.cFlr || n == 3) ∧ (∀ r, r < 16 → t.rb .ringCtrl [r] 0 = false ∧
          ∀ j, 0 < j → j < 32 → t.rb .ringCtrl [r] j = s.rb .ringCtrl [r] j) ∧
        (∀ k, k < 256 → (t.lock k).owner ≠ 1) ∧ Rose s t (cn 13 n) hub 0 1 ∧
        t.rails = { s.rails with perstN := s.rails.perstN && n != 2 } ∧ t.mem = s.mem ∧ t.cores = s.cores ∧ t.pw = s.pw) ∧
    (s.su.dark = false ∨ s.su.darkPerst = false → exec .perstNDeassert s = .next { s with rails := { s.rails with perstN := true } }) ∧
    (s.su.dark = true → s.su.darkPerst = true → ∃ t, exec .perstNDeassert s = .next t ∧ t.su.start = 4 ∧ t.su.dark = false ∧
      t.su.cPerst = true ∧ t.regs = [] ∧ t.mem = [] ∧ t.pw = {} ∧ t.nv = s.nv ∧ t.rails = { s.rails with perstN := true }) ∧
    (s.live domPCI = true → s.hif.up = true → exec .d3hotEntry s = .next { s with hif := { s.hif with d3hot := true } } ∧
      (s.hif.d3hot = true → ∃ t, exec .d0Return s = .next t ∧ t.hif.d3hot = false ∧ t.hif.up = true ∧
        t.hif.bme = s.hif.bme ∧ t.regs = s.regs ∧ t.mem = s.mem ∧
        ∀ v, v < 64 → bitOf t.hif.vecPend v = (bitOf s.hif.vecPend v && !(s.on domPCI && s.hif.bme && !s.vecMasked v)))) ∧
    (∀ (width : BitVec 4) (speed : BitVec 3) (sets : LinkConf), s.live domPCI = true →
      (s.rails.perstN = true → s.hif.up = false → s.dbg.extest = false → width ∈ [1, 2, 4, 8] → 1 ≤ speed.toNat →
        speed.toNat ≤ 5 →
        ∃ t, exec (.linkUp width speed sets) s = .next t ∧ t.hif.up = true ∧ t.hif.width = width ∧ t.hif.speed = speed ∧
          t.hif.bme = sets.bme ∧ t.hif.conf = sets.toHostConf ∧ t.hif.d3hot = s.hif.d3hot ∧ t.regs = s.regs ∧ t.mem = s.mem) ∧
      (s.hif.up = true → ∃ t x, exec (.linkUp width speed sets) s = .next t ∧ t.hif.up = true ∧
        t.hif.width = s.hif.width ∧ t.hif.speed = s.hif.speed ∧ t.hif.bme = sets.bme ∧ t.hif.conf = sets.toHostConf ∧ t.regs = s.regs ∧
        t.mem = s.mem ∧ Output.config x ∈ t.outbox ∧ x.vendor = 0x1F5C ∧ x.device = 0x4512 ∧
        x.revision.toNat = s.idcodeWord / 0x10000000 % 256 ∧ x.classCode = 0x118000))
-- timebase and clocks

/-- SYNC_EDGE, SYNC_LOAD, ARM, TIMEBASE_CANCEL, CLK_TB_WRITE and TIMEBASE_START (R18–R21, R396–R400): an armed timebase takes
edge s, and at edge s + 4 every copy loads; an edge that starts no load is counted, and one during a hold waits for its end;
arming is refused while a lane is LIT and the timebase is not degraded; a legal ratio stops the timebase until it starts again
from 0 with every anchor dropped. CHECK_WINDOW, LANTERN_CHECK_TIMEOUT, MONITOR_WINDOW, DECISION_WINDOW, COARSE_CHECK and
PLL_HOLDOVER (R387–R393): LANTERN qualifies with two windows in range and is lost where GLOW and the monitor say so; the
serving REFCLK goes on while it passes, freezes what it feeds and asks for a decision where it drifts, and trips where it is
lost; REFCLK qualifies by consecutive passes; a trip holds the group on LANTERN and marks the timebase degraded, and with no
LANTERN there is no fallback. -/
def Obligations.TimebaseAndMonitorComplete : Prop :=
  (∀ (s : State), Plain s →
     (s.tb.counting = true → s.clk.holding = true → exec .syncEdge s = .next { s with tb := { s.tb with syncDue := true } }) ∧
     (s.tb.counting = true → s.clk.holding = false →
       (s.tb.armed = true → s.tb.edgeS = false → exec .syncEdge s = .next { s with tb := { s.tb with edgeS := true } }) ∧
       (s.tb.armed = false ∨ s.tb.edgeS = true → exec .syncEdge s = .next (s.countRaw (cn 11 6) hub 0 1)) ∧
       (s.tb.edgeS = true → ∃ t, exec .syncLoad s = .next t ∧ t.tb = { s.tb with
           tick := BitVec.ofNat 58 (s.rd64 .clkTbLoad []), armed := false, edgeS := false, loaded := true,
           degraded := s.tb.degraded && s.clk.onLantern } ∧
         (s.rb .mrgCtrl [] 0 = false → t.regs = s.regs ∧ t.mem = s.mem ∧ t.clk = s.clk ∧ t.wsus = s.wsus))) ∧
     (∀ r : Req, s.live domSPN = true → r.spec = none → s.reaches r = true →
       (s.rstWriter r = false → ∀ i, i = .arm r ∨ i = .timebaseCancel r ∨ (∃ v, i = .clkTbWrite r v) →
         exec i s = .next (s.vio 75)) ∧
       (s.rstWriter r = true →
         exec (.arm r) s = .next (if s.anyLit && !s.tb.degraded then s.vio 76 else { s with tb := { s.tb with armed := true } }) ∧
         exec (.timebaseCancel r) s = .next { s with tb := { s.tb with armed := s.tb.armed && s.tb.edgeS } } ∧
         ∀ (v : Word) (m d f : Nat), m = fld v 0 8 → d = fld v 8 8 → f = refHz s.clk.refsel.toNat * m →
           (1 ≤ m ∧ m ≤ 64 ∧ 1 ≤ d ∧ d ≤ 16 ∧ 200000000 * d ≤ f ∧ f ≤ 800000000 * d ∧ s.rb .mrgCtrl [] 0 = false ∧
               s.anyLit = false ∧ s.clk.onLantern = false ∧ s.tb.armed = false →
             exec (.clkTbWrite r v) s = .next
               { s with
                 regs := (s.store .clkTb [] v).regs,
                 tb := { s.tb with counting := false, started := false },
                 clk := { s.clk with relocking := true } }) ∧
           (m = 0 ∨ 64 < m ∨ d = 0 ∨ 16 < d ∨ f < 200000000 * d ∨ 800000000 * d < f ∨ s.rb .mrgCtrl [] 0 = true ∨
               s.anyLit = true ∨ s.clk.onLantern = true ∨ s.tb.armed = true →
             exec (.clkTbWrite r v) s = .next (s.vio 75)))) ∧
     (s.on domSPN = true → bitOf s.clk.locked 4 = true → s.tb.counting = false → s.clk.holding = false →
       ∃ t, exec .timebaseStart s = .next t ∧ t = { s with tb := t.tb, clk := t.clk, cfeLanes := t.cfeLanes } ∧
         t.tb = { s.tb with tick := 0, counting := true, started := true, loaded := false, edge := 0 } ∧
         t.clk = { s.clk with relocking := false } ∧ ∀ k, (t.cfeLane k).anchor = none)) ∧
  (∀ (s : State), Plain s → s.rails.vaux = true → s.su.dark = false →
     (∀ n : Nat, s.clk.lanternOn = true → s.clk.glowLost = false → n < 2 ^ 16 →
       (205 ≤ n → n ≤ 307 → s.clk.qualifying = false ∨ s.clk.checkPass = 0 → ∀ m, exec (.checkWindow n m) s = .next
         { s with clk := { s.clk with glowCount := BitVec.ofNat 16 n, checkPass := s.clk.checkPass + 1 } }) ∧
       (205 ≤ n → n ≤ 307 → s.clk.qualifying = true → 1 ≤ s.clk.checkPass → ∀ m, ∃ t, exec (.checkWindow n m) s = .next t ∧
         t.clk.lanternOk = true ∧ t.clk.lanternLost = false ∧ t.clk.qualifying = false ∧ t.clk.mclkSub = false ∧
         t.clk.refOk = (s.clk.refOk && !s.clk.mclkSub) ∧ t.regs = s.regs ∧ t.mem = s.mem ∧ t.pw = s.pw) ∧
       (1 ≤ n → n < 205 ∨ 307 < n → s.clk.lanternOk = false ∨ s.clk.refOk = true → exec (.checkWindow n false) s = .next
         { s with clk := { s.clk with glowCount := BitVec.ofNat 16 n, checkPass := 0 } }) ∧
       (1 ≤ n → n < 205 ∨ 307 < n → s.clk.lanternOk = true → s.clk.refOk = false → s.clk.onLantern = false →
         ∃ t, exec (.checkWindow n false) s = .next t ∧ t.clk.lanternOk = false ∧ t.clk.lanternLost = true ∧
           t.clk.lanternOn = false ∧ t.clk.mclkSub = true ∧ t.clk.cause = 3 ∧ Rose s t (cn 11 2) hub 0 1 ∧ t.pw = s.pw)) ∧
     (s.clk.lanternOk = true → s.clk.glowLost = false →
       (s.clk.onLantern = false → ∃ t, exec .lanternCheckTimeout s = .next t ∧ t.clk.lanternOk = false ∧ t.clk.lanternLost = true ∧
         t.clk.mclkSub = true ∧ t.clk.cause = 3 ∧ Rose s t (cn 11 2) hub 0 1 ∧ t.pw = s.pw) ∧
       (s.clk.onLantern = true → ∃ t, exec .lanternCheckTimeout s = .next t ∧ t.clk.noFallback = true ∧ t.clk.holding = true ∧
         t.clk.cause = 5 ∧ t.tb.counting = false ∧ ∀ n, n < 48 → t.on n = false)) ∧
     (∀ n ref mean : Nat, s.clk.lanternOk = true → s.clk.mclkSub = false → s.clk.noFallback = false → n < 2 ^ 16 →
       (s.clk.refOk = true → s.clk.onLantern = false →
         (s.monLost n = true → ∃ t, exec (.monitorWindow n ref mean) s = .next t ∧ t.clk.onLantern = true ∧ t.clk.refOk = false ∧
           t.clk.holding = true ∧ t.clk.cause = 1 ∧ t.tb.degraded = true ∧ t.tb.tick = s.tb.tick ∧ t.flt.nmeRef = true ∧
           Rose s t (cn 11 0) hub 0 1 ∧ t.pw = s.pw) ∧
         (s.monLost n = false → s.monPasses n = true → ∃ t, exec (.monitorWindow n ref mean) s = .next t ∧ t.clk.frozen = false ∧
           t.clk.monFail = 0 ∧ t.clk.refCount.toNat = n ∧ (ref ≠ 0 → t.clk.fL = s.fSel * 1048576 / ref) ∧ t.tb = s.tb ∧
           t.regs = s.regs ∧ t.mem = s.mem) ∧
         (s.monLost n = false → s.monPasses n = false → ∃ t, exec (.monitorWindow n ref mean) s = .next t ∧ t.clk.frozen = true ∧
           t.clk.deciding = true ∧ t.clk.monFail = s.clk.monFail + 1 ∧ Rose s t (cn 11 1) hub 0 1 ∧ t.tb = s.tb)) ∧
       (s.clk.refOk = false ∨ s.clk.onLantern = true →
         ∃ t, exec (.monitorWindow n ref mean) s = .next t ∧ t.clk.refCount.toNat = n ∧
           t.clk.monPass = (if s.monPasses n then s.clk.monPass + 1 else 0) ∧
           t.clk.refOk = (s.monPasses n && (s.clk.refOk ||
             decide ((if s.clk.onLantern then 64 else 4) ≤ s.clk.monPass + 1))) ∧ t.clk.onLantern = s.clk.onLantern ∧
           t.tb = s.tb ∧ t.regs = s.regs ∧ t.mem = s.mem)) ∧
     (∀ n g : Nat, s.clk.deciding = true → 2 ≤ s.clk.monFail → g = s.clk.g.toNat →
       (98 * g ≤ 100 * n → 100 * n ≤ 102 * g → ∃ t, exec (.decisionWindow n) s = .next t ∧ t.clk.onLantern = true ∧
         t.clk.holding = true ∧ t.clk.cause = 2 ∧ t.tb.degraded = true ∧ Rose s t (cn 11 0) hub 0 1) ∧
       (100 * n < 98 * g ∨ 102 * g < 100 * n → s.clk.onLantern = false → ∃ t, exec (.decisionWindow n) s = .next t ∧
         t.clk.lanternOk = false ∧ t.clk.mclkSub = true ∧ t.clk.cause = 3)) ∧
     (∀ n : Nat, s.clk.refOk = true → s.clk.onLantern = false →
       (40 * s.fSel * 64 ≤ 100 * n * 25000000 → exec (.coarseCheck n) s = .next s) ∧
       (100 * n * 25000000 < 40 * s.fSel * 64 → ∃ t, exec (.coarseCheck n) s = .next t ∧ t.clk.holding = true ∧
         t.clk.onLantern = s.clk.lanternOk ∧ t.clk.noFallback = (s.clk.noFallback || !s.clk.lanternOk) ∧
         t.clk.cause = (if s.clk.lanternOk then 1 else 5))) ∧
     (s.on domSPN = true → s.clk.holdover = false → ∃ t, exec .pllHoldover s = .next t ∧
       t.clk = { s.clk with holdover := true, frozen := true } ∧ t.tb = s.tb ∧ t.regs = s.regs ∧ t.mem = s.mem ∧ t.pw = s.pw))

/-- FAILOVER_RESTART, REVERT, LANTERN_REARM, HELD_RESTART and DARK_ENTRY (R391, R392, R394, R395): the held group runs on; a
revert holds it on its way back to a qualified REFCLK; a lost LANTERN is started anew; a part without a fallback starts again
on LANTERN, or goes dark with every domain off. MUX_SWITCH_REQUEST, MUX_SWITCH_DONE, CLK_MUX_FORCE and CLK_OUT_WRITE
(R402–R406, R410): a request to a global clock's mux or to CLKOUT takes a source that runs and is slow enough, and waits for
the switch; a second request meanwhile is refused; the switch ends, once the clocks of both its inputs run; the forced path,
to an input that runs, ends it at once and counts. -/
def Obligations.FailoversAndMuxesComplete : Prop :=
  (∀ (s : State),
     (s.clk.holding = true → s.clk.noFallback = false → ∃ t, exec .failoverRestart s = .next t ∧
       t.clk = { s.clk with holding := false, holdover := false, frozen := false, reverting := false } ∧
       (s.tb.syncDue = false → t.tb = s.tb) ∧
       (s.tb.syncDue = true → s.tb.armed = true → t.tb = { s.tb with syncDue := false, edgeS := true }) ∧
       t.regs = s.regs ∧ t.pw = s.pw) ∧
     (∀ r : Req, s.live domSPN = true → r.spec = none → s.reaches r = true →
       (s.rstWriter r = false → exec (.revert r) s = .next (s.vio 75) ∧ exec (.lanternRearm r) s = .next (s.vio 75)) ∧
       (s.rstWriter r = true →
         (s.clk.onLantern = true → s.clk.refOk = true → s.clk.holding = false → ∃ t, exec (.revert r) s = .next t ∧
           t.clk = { s.clk with
             cause := 6, lastTrip := s.now, onLantern := false, holding := true, reverting := true, frozen := true,
             holdover := true, monPass := 0, monFail := 0 } ∧ t.tb = s.tb ∧ t.regs = s.regs ∧ t.mem = s.mem) ∧
         (s.clk.onLantern = false ∨ s.clk.refOk = false ∨ s.clk.holding = true → exec (.revert r) s = .next (s.vio 75)) ∧
         (s.clk.lanternLost = true → s.clk.onLantern = false → exec (.lanternRearm r) s = .next { s with clk := { s.clk with
           lanternOn := true, qualifying := true, checkPass := 0, fL := s.clk.fused } }) ∧
         (s.clk.lanternLost = false ∨ s.clk.onLantern = true → exec (.lanternRearm r) s = .next (s.vio 75)))) ∧
     (s.clk.noFallback = true → s.clk.lanternOk = true → ∃ t, exec .heldRestart s = .next t ∧ t.su.start = 5 ∧ t.regs = [] ∧
       t.mem = [] ∧ t.pw = {} ∧ t.tb.degraded = true ∧ t.clk.onLantern = true ∧ t.clk.holding = false ∧ t.clk.noFallback = false ∧
       t.nv = s.nv ∧ t.rails = s.rails) ∧
     (s.clk.noFallback = true → s.clk.lanternOk = false → ∃ t, exec .darkEntry s = .next t ∧ t.su.dark = true ∧
       t.su.darkPerst = false ∧ t.clk.noFallback = false ∧ t.clk.holding = false ∧ t.clk.lanternOn = false ∧
       ∀ n, n < 48 → t.on n = false)) ∧
  (∀ (r : Req) (s : State), Plain s →
     (∀ (target src : BitVec 8) (d g k : Nat), gcTarget target.toNat = some (d, g) → s.live (domBRG d) = true → k = src.toNat % 16 →
       r.spec = none → s.reaches r = true →
       ((s.pll d (k / 4)).locked = false ∨ bitOf (s.fab d).gcPending g = true ∧ k ≠ s.gcSrc d g →
         exec (.muxSwitchRequest r target src) s = .next (s.vio (52 + d))) ∧
       ((s.pll d (k / 4)).locked = true → bitOf (s.fab d).gcPending g = false →
         ∃ t, exec (.muxSwitchRequest r target src) s = .next t ∧ t = { s with regs := t.regs, fabs := t.fabs } ∧
           t.regs = (s.store .gcSel [d, g] (BitVec.ofNat 32 (16 * b2n (s.gcEn d g) + k))).regs ∧
           bitOf (t.fab d).gcPending g = (s.gcEn d g && k != s.gcSrc d g))) ∧
     (∀ (target : BitVec 8) (d g : Nat), gcTarget target.toNat = some (d, g) →
       (s.on (domBRG d) = true → s.clk.holding = false → bitOf (s.fab d).gcPending g = true →
         s.srcRuns d (Tbl.get 0 (s.fab d).gcOld g) = true → s.srcRuns d (s.gcSrc d g) = true → ∃ t, exec (.muxSwitchDone target) s = .next t ∧
         t = { s with fabs := t.fabs } ∧ bitOf (t.fab d).gcPending g = false ∧
         ∀ j, j < 30 → j ≠ g → bitOf (t.fab d).gcPending j = bitOf (s.fab d).gcPending j) ∧
       (s.live domSPN = true → r.spec = none → s.reaches r = true → s.rstWriter r = true →
         (s.live (domBRG d) = true → s.srcRuns d (s.gcSrc d g) = true → ∃ t, exec (.clkMuxForce r target) s = .next t ∧
           bitOf (t.fab d).gcPending g = false ∧ Rose s t (cn 11 5) hub 0 1 ∧ t.clk = s.clk ∧ t.pw.on = s.pw.on) ∧
         (s.live (domBRG d) = false ∨ s.srcRuns d (s.gcSrc d g) = false → exec (.clkMuxForce r target) s = .next (s.vio 75)))) ∧
     (s.clk.holding = false → s.outRuns s.clk.outOld.toNat = true → s.outRuns (s.rf .clkOut [] 0 8) = true →
       exec (.muxSwitchDone 0) s = .next { s with clk := { s.clk with outPending := false, outOld := 0 } }) ∧
     (s.live domSPN = true → r.spec = none → s.reaches r = true → s.rstWriter r = true →
       (exec (.clkMuxForce r 0) s = .next (if s.outRuns (s.rf .clkOut [] 0 8) then
         { s with cnt := (s.countRaw (cn 11 5) hub 0 1).cnt, clk := { s.clk with outPending := false, outOld := 0 } } else s.vio 75)) ∧
       exec (.clkMuxForce r 1) s = .next (if s.outRuns 3 then
         { s with cnt := (s.countRaw (cn 11 5) hub 0 1).cnt, clk := { s.clk with deciding := false, monFail := 0 } }
         else s.vio 75) ∧
       exec (.clkMuxForce r 2) s = .next (if s.outRuns (if s.clk.aonBackup then 2 else 1) then s.countRaw (cn 11 5) hub 0 1
         else s.vio 75) ∧
       (∀ target : BitVec 8, 3 ≤ target.toNat → gcTarget target.toNat = none →
         exec (.clkMuxForce r target) s = .next (s.vio 75)) ∧
       ∀ (i : Instr) (v : Word) (sel : Nat), sel = fld v 0 8 →
         (i = .clkOutWrite r v ∨ ∃ src : BitVec 8, i = .muxSwitchRequest r 0 src ∧
           v = (s.rd .clkOut [] &&& 0xFFFFFF00) ||| src.setWidth 32) →
         (∀ hz, s.outSource sel = some hz → hz ≤ 800000000 * (fld v 16 16 + 1) →
           s.clk.outPending = false ∨ sel = s.rf .clkOut [] 0 8 →
           ∃ t, exec i s = .next t ∧ t = { s with regs := (s.store .clkOut [] v).regs, clk := t.clk } ∧
             t.clk.outPending = (s.clk.outPending || sel != s.rf .clkOut [] 0 8)) ∧
         (s.outSource sel = none ∨ (∃ hz, s.outSource sel = some hz ∧ 800000000 * (fld v 16 16 + 1) < hz) ∨
             s.clk.outPending = true ∧ sel ≠ s.rf .clkOut [] 0 8 →
           exec i s = .next (s.vio 75))))
-- configuration

/-- LOAD_IMAGE, LOAD_PARTIAL, IMAGE_APPLY and PARTIAL_APPLY (R470–R475): a load that cannot start or whose stream fails a
check ends with the check's code and is counted; one that passes stands staged, the port still busy; an applied image is the
restore copy with its ID, and the part has an image; an applied partial image puts its frames and is the region's latest in
the partial store. -/
def Obligations.LoadsComplete : Prop :=
  ∀ (s : State), Plain s →
    (∀ (lamp nv : Bool) (slot region : Word) (i : Instr) (u : State) (type code : Nat) (check : Option Nat × State), PortFree lamp s →
      slot.toNat < 256 → region.toNat < 256 →
      (i = .loadImage lamp slot nv ∧ type = 0 ∧ u = begun lamp 1 (portArgs slot 0 0 0 0) s ∧ check = u.stage 0 1 slot.toNat 0 nv ∧
          code = (if s.loadBusy then 0x3F else if 3 < slot.toNat then 0x10 else if s.quiet = false then 0x25 else check.1.getD 0) ∨
        i = .loadPartial lamp slot region nv ∧ type = 1 ∧ u = begun lamp 2 (portArgs slot region 0 0 0) s ∧
          check = u.stage 1 1 slot.toNat region.toNat nv ∧
          code = (if s.loadBusy then 0x3F else if 63 < slot.toNat ∨ region.toNat = 0 ∨ 32 < region.toNat then 0x10
            else if bitOf (s.pregWord region.toNat) 2 = false then 0x20 else if s.regionDark region.toNat then 0x26
            else check.1.getD 0)) →
      ∃ t, exec i s = .next t ∧
        (code = 0 → check.1 = none → t = check.2 ∧ t.cfg.staged.isSome = true ∧ t.hif.busy = true ∧ t.cfg.frames = s.cfg.frames) ∧
        (code ≠ 0 → code < 256 → t.hif.busy = false ∧ t.hif.status.toNat = code ∧
          Rose s t (cn 14 1) hub 1 1 ∧ t.cfg.frames = s.cfg.frames ∧ t.regs = s.regs ∧ t.nv = s.nv ∧
          (s.loadBusy = false → t.cfg.lastCode.toNat = code ∧ t.cfg.lastType.toNat = type ∧ t.cfg.staged = none))) ∧
    (∀ x : Staged, s.cfg.staged = some x →
      (x.type = 0 → ∃ t, exec .imageApply s = .next t ∧ t.cfg.staged = none ∧ t.cfg.copy = x.image ∧ t.cfg.parts = [] ∧
        t.cfg.imgId = x.image.imgId ∧ t.su.imgOk = true ∧ t.su.restoreOk = true ∧ t.cfg.lastCode = 0 ∧
        (x.src ≠ 1 → bitOf t.su.ended 5 = true)) ∧
      (∀ p : PartImage, x.part = some p → x.type = 1 → ∃ t, exec .partialApply s = .next t ∧ t.cfg.staged = none ∧
        t.cfg.frames = putFrames s.cfg.frames p.frames ∧
        t.cfg.parts = (s.cfg.parts.filter fun y => y.region != p.region) ++ [p] ∧ t.cfg.copy = s.cfg.copy ∧
        Rose s t (cn 14 0) hub 1 1 ∧ t.mem = s.mem ∧ t.su = s.su ∧
        (x.src = 1 → s.hif.busy = true → s.hif.opcode = 2 → t.hif.endCode = some 0)))

/-- NV_PROGRAM and NV_ERASE (R469, R547, R548): an erased target takes the source's bytes and loses its erased mark; an erase
returns its bytes to FFH, restores the mark and counts; a target that is out of range or used, and a bad length, end with
their codes. CFG_STREAM, STREAM_TIMEOUT, MIRROR_PASS, BBRAM_COMMIT, BBRAM_ZEROISE and CFG_FW_DATA_READ (R477, R480–R483): at
FULL a first word starts a test-port load and the next ones follow it, and below FULL the instruction is refused; a stream
that stops is refused and counted; a pass of the mirror is timed and counted, with the frames whose one changed bit, of the
payload or of the code, it corrects; the battery- backed key is committed whole or cleared; the resource port reads a word and
moves on. -/
def Obligations.ConfigurationPortsComplete : Prop :=
  (∀ (lamp : Bool) (target : Word) (s : State) (u : State), PortFree lamp s → target.toNat < 4096 → Plain s →
     (∀ (src : Addr) (len : Word), u = begun lamp 3 (portArgs target 0 src (len.setWidth 64) 0) s →
       (nvTarget (target.toNat % 16) (target.toNat / 16) = none →
         ∃ t, exec (.nvProgram lamp target src len [] .good) s = .next t ∧ t.hif.busy = false ∧ t.hif.status = 0x2D ∧ t.nv = s.nv) ∧
       (∀ key off size : Nat, nvTarget (target.toNat % 16) (target.toNat / 16) = some (off, size) →
         key = target.toNat % 16 * 64 + target.toNat / 16 → key / 64 ≠ 5 → s.fwTarget key = false →
         (Tbl.get false s.nv.used key = true → ∃ t, exec (.nvProgram lamp target src len [] .good) s = .next t ∧
           t.hif.busy = false ∧ t.hif.status = 0x2E ∧ t.nv = s.nv) ∧
         (Tbl.get false s.nv.used key = false → len = 0 ∨ size < len.toNat ∨ len.toNat % 4 ≠ 0 ∨ src.toNat % 4 ≠ 0 →
           ∃ t, exec (.nvProgram lamp target src len [] .good) s = .next t ∧ t.hif.busy = false ∧ t.hif.status = 0x2F ∧
             t.nv = s.nv) ∧
         (∀ bs : List Byte, Tbl.get false s.nv.used key = false → 0 < len.toNat → len.toNat ≤ size → len.toNat % 4 = 0 →
           src.toNat % 4 = 0 → u.memRead cfgReq src.toNat len.toNat [] = (bs.map .ok, u) →
           ∃ t, exec (.nvProgram lamp target src len [] .good) s = .next t ∧ t = { ending 0 u with nv := t.nv } ∧
             t.nv.mem = nvPut s.nv.mem off bs ∧ Tbl.get false t.nv.used key = true ∧
             (∀ k, k ≠ key → Tbl.get false t.nv.used k = Tbl.get false s.nv.used k) ∧ t.nv.erases = s.nv.erases))) ∧
     (∀ key off size : Nat, u = begun lamp 4 (portArgs target 0 0 0 0) s →
       nvTarget (target.toNat % 16) (target.toNat / 16) = some (off, size) → key = target.toNat % 16 * 64 + target.toNat / 16 →
       s.fwTarget key = false →
       ∃ t, exec (.nvErase lamp target .good) s = .next t ∧
         t = { ending 0 u with nv := t.nv, dbg := { s.dbg with drSeq := if key / 64 = 5 then 0 else s.dbg.drSeq } } ∧
         (∀ a, Tbl.get 0xFF t.nv.mem a = if off ≤ a ∧ a < off + size then 0xFF else Tbl.get 0xFF s.nv.mem a) ∧
         Tbl.get false t.nv.used key = false ∧ Tbl.get 0 t.nv.erases key = Tbl.get 0 s.nv.erases key + 1)) ∧
  (∀ (s : State), Plain s →
     (∀ w : Word, bitOf s.su.ended 0 = true →
       (s.dbg.level ≠ 2 → ∃ t, exec (.cfgStream w) s = .next t ∧ t.dbg.tapIr = 0xFF ∧ t.cfg = s.cfg ∧
         t.cnt = (s.countRaw vioName hub 91 1).cnt) ∧
       (s.dbg.level = 2 → s.on domCFG = true → s.on domSPN = true →
         (s.cfg.tpActive = false → s.loadBusy = false → ∃ t, exec (.cfgStream w) s = .next t ∧ t.dbg.tapIr = 0x12 ∧
           t.cfg = { s.cfg with tpActive := true, tp := true, type := 1, state := 1, stream := [w], tpCode := 0 }) ∧
         (s.cfg.tpActive = true → s.cfg.staged = none → s.cfg.stream.length < 63 → ∃ t, exec (.cfgStream w) s = .next t ∧
           t.dbg.tapIr = 0x12 ∧ t.cfg = { s.cfg with stream := s.cfg.stream ++ [w] }))) ∧
     (s.cfg.tpActive = true → s.cfg.staged = none → ∃ t, exec .streamTimeout s = .next t ∧ t.cfg.tpActive = false ∧
       t.cfg.tpCode = 0x24 ∧ t.cfg.lastCode = 0x24 ∧ t.cfg.stream = [] ∧ t.cfg.frames = s.cfg.frames ∧
       t.cnt = (s.countRaw (cn 14 1) hub 2 1).cnt) ∧
     (∀ us : Nat, s.on domCFG = true → s.on domSPN = true → s.rb .mirCtrl [] 0 = true →
       s.cfg.codeErr = [] →
       (∃ t, exec (.mirrorPass [] us) s = .next t ∧ t.cnt = (s.countRaw (cn 14 2) hub 0 1).cnt ∧ t.cfg = { s.cfg with
         mirPassUs := BitVec.ofNat 32 (min us (2 ^ 32 - 1)), mirDie := 3, mirActive := false,
         mirSkipping := s.cfg.staged.isSome }) ∧
       ∀ (u : FrameUpset) (bit : Fin 8208), s.mirrorReads u.die.val u.index = true → u.index < 344064 → u.bits = [bit] →
         s.on (domDie u.die.val (frameQuad (u.die.val * 344064 + u.index))) = true →
         isSettings (u.die.val * 344064 + u.index) = false → s.cfg.staged = none →
         ∃ t, exec (.mirrorPass [u] us) s = .next t ∧ Rose s t (cn 14 2) hub 0 1 ∧ Rose s t (cn 14 3) hub u.die.val 1 ∧
           (∀ k, Tbl.get (0, false) t.cfg.frames k = Tbl.get (0, false) s.cfg.frames k ∧ Tbl.get 0 t.cfg.codeErr k = 0) ∧
           t.pw = s.pw ∧ LogOnly s t) ∧
     (∀ r : Req, s.on domCFG = true → r.spec = none → s.reaches r = true →
       (hostOrLamp r = false → exec (.bbramCommit r) s = .next (s.vio 80) ∧ exec (.bbramZeroise r) s = .next (s.vio 80)) ∧
       (hostOrLamp r = true →
         (∀ ks : List Word, ks.length = 8 → (∀ i, i < 8 → Tbl.get none s.cfg.bbWritten i = ks[i]?) →
           exec (.bbramCommit r) s = .next { s with cfg := { s.cfg with bbKey := some ks, bbWritten := [] } }) ∧
         (∀ i, i < 8 → Tbl.get none s.cfg.bbWritten i = none → exec (.bbramCommit r) s = .next s) ∧
         exec (.bbramZeroise r) s = .next { s with cfg := { s.cfg with bbKey := none, bbWritten := [] } })) ∧
     (∀ (r : Req) (quiet : Bool), s.on domCFG = true → s.reaches r = true → exec (.cfgFwDataRead r quiet) s = .next
       { s with
         cfg := { s.cfg with fwOfs := if quiet then s.cfg.fwOfs else s.cfg.fwOfs + 4 },
         outbox := s.outbox ++ [.reply r (.word (BitVec.ofNat 32 (numAt s.cfg.fwRes s.cfg.fwOfs.toNat 4)))] }))
-- faults and counters

/-- FAULT_QUEUE_DRAIN, FLT_LOG_CONS_WRITE, NME_CLEAR and TLP_ERROR (R493, R495, R497, R556): the queue's oldest record is
written where prod stands in the log and prod moves on; a full log stops, or in WRAP gives up its oldest record and counts; a
write of cons within the log's length is taken; the events named are cleared; a link error is logged in AER, reported and
recorded. INJECT_ONE_SHOT, INJECT_CONTINUOUS, COUNTER_CLEAR and INEXACT_CLEAR (R499, R500, R502, R505, R506, R512): an
injection that nothing refuses starts in its mode with no fires, and a refused one is a violation and leaves mode 0; a leaf is
cleared out of its ancestors, by a write of 0 alone; a node is formed again from its children; the wrapped flag is cleared. -/
def Obligations.FaultsAndCountersComplete : Prop :=
  (∀ (s : State), Plain s →
     (∀ (x : FaultRec) (rest : List FaultRec), s.on domSPN = true → s.flt.logOk = true → s.flt.queue = x :: rest →
       (s.flt.prod - s.flt.cons = 131072 → s.rb .fltCtrl [] 0 = false →
         exec .faultQueueDrain s = .next { s with flt := { s.flt with stopped := true } }) ∧
       (s.flt.prod - s.flt.cons ≠ 131072 ∨ s.rb .fltCtrl [] 0 = true → ∃ t, exec .faultQueueDrain s = .next t ∧
         t.mem = Memory.putAll s.mem (logBase + s.flt.prod.toNat % 131072 * 32) (bytesOf x.bits.toNat 32) ∧
         t.flt.queue = rest ∧ t.flt.logged = some x ∧ t.flt.prod = s.flt.prod + 1 ∧ t.flt.stopped = false ∧ t.flt.seq = s.flt.seq ∧
         t.flt.cons = (if s.flt.prod - s.flt.cons = 131072 then s.flt.cons + 1 else s.flt.cons) ∧
         (s.flt.prod - s.flt.cons = 131072 → Rose s t (cn 15 3) hub 0 1) ∧ t.regs = s.regs)) ∧
     (∀ (r : Req) (v : Word), s.live domSPN = true → r.spec = none → s.reaches r = true →
       (s.rstWriter r = false → exec (.fltLogConsWrite r v) s = .next (s.vio 81) ∧ exec (.nmeClear r v) s = .next (s.vio 81)) ∧
       (s.rstWriter r = true →
         (131072 < (s.flt.prod - v).toNat → exec (.fltLogConsWrite r v) s = .next (s.vio 81)) ∧
         ((s.flt.prod - v).toNat ≤ 131072 → exec (.fltLogConsWrite r v) s = .next { s with flt := { s.flt with
           cons := v, stopped := s.flt.stopped && decide (s.flt.prod - v = 131072) } }) ∧
         exec (.nmeClear r v) s = .next { s with flt := { s.flt with
           nmeRef := s.flt.nmeRef && !bitOf v 0, nmeFatal := s.flt.nmeFatal && !bitOf v 2 } })) ∧
     (∀ (bit : BitVec 8) (corrected : Bool), s.live domPCI = true → s.hif.up = true →
       ∃ t, exec (.tlpError bit corrected) s = .next t ∧ (∃ rest, t.outbox = s.outbox ++ .aer bit.toNat corrected :: rest) ∧
         Rose s t (cn 16 (if corrected then 5 else 6)) hub 0 1 ∧
         t.hif.aerCe = (if corrected then setBit s.hif.aerCe bit.toNat true else s.hif.aerCe) ∧
         t.hif.aerUe = (if corrected then s.hif.aerUe else setBit s.hif.aerUe bit.toNat true) ∧ LogOnly s t ∧ t.regs = s.regs)) ∧
  (∀ (r : Req) (s : State), r.spec = none → s.reaches r = true →
     (∀ (i : Instr) (mode : BitVec 2), s.live domSPN = true → i = .injectOneShot r ∧ mode = 1 ∨ i = .injectContinuous r ∧ mode = 2 →
       (s.injRefused r = false → exec i s = .next { s with flt := { s.flt with injMode := mode, injFires := 0 } }) ∧
       (s.injRefused r = true → exec i s = .next ({ s with flt := { s.flt with injMode := 0 } }.vio 82))) ∧
     (∀ (off : BitVec 26) (n : RegName) (ix : List Nat) (c : CntAt) (v : Word), regAt (off.toNat / 16 * 16) = some (n, ix) →
       cntAt n ix = (c, 0) → c ≠ .none → s.cntOn c = true →
       (s.rstWriter r = false ∨ v ≠ 0 → exec (.counterClear r off v) s = .next (s.vio 83)) ∧
       (∀ name loc inst : Nat, s.rstWriter r = true → c = .leaf name loc inst → name ≠ vioName ∨ inst < 44 ∨ 48 ≤ inst →
         ∃ t, exec (.counterClear r off 0) s = .next t ∧ t = { s with cnt := t.cnt } ∧
           Tbl.get {} t.cnt.leaves (leafKey name loc inst) = {} ∧
           (∀ k, k ≠ leafKey name loc inst → Tbl.get {} t.cnt.leaves k = Tbl.get {} s.cnt.leaves k) ∧
           Tbl.get ({} : CNode) t.cnt.pkgNodes name = { Tbl.get ({} : CNode) s.cnt.pkgNodes name with
             value := (Tbl.get ({} : CNode) s.cnt.pkgNodes name).value - (Tbl.get ({} : Leaf) s.cnt.leaves (leafKey name loc inst)).value } ∧
           (loc < 4 → Tbl.get ({} : CNode) t.cnt.dieNodes (name * 8 + loc) = { Tbl.get ({} : CNode) s.cnt.dieNodes (name * 8 + loc) with
             value := (Tbl.get ({} : CNode) s.cnt.dieNodes (name * 8 + loc)).value -
               (Tbl.get ({} : Leaf) s.cnt.leaves (leafKey name loc inst)).value }))) ∧
     (∀ (off : BitVec 26) (n : RegName) (ix : List Nat) (c : CntAt) (v : Word), regAt (off.toNat / 16 * 16 + 4) = some (n, ix) →
       cntAt n ix = (c, 1) → s.cntOn c = true → s.rstWriter r = true →
       (∀ name d : Nat, c = .dieNode name d → bitOf v 17 = true → ∃ t, exec (.inexactClear r off v) s = .next t ∧
         t = { s with cnt := { s.cnt with dieNodes := t.cnt.dieNodes } } ∧
         Tbl.get {} t.cnt.dieNodes (name * 8 + d) = { value := s.cnt.leafSum name d }) ∧
       (∀ name : Nat, c = .pkgNode name → bitOf v 17 = true → ∃ t, exec (.inexactClear r off v) s = .next t ∧
         t = { s with cnt := { s.cnt with pkgNodes := t.cnt.pkgNodes } } ∧
         (Tbl.get ({} : CNode) t.cnt.pkgNodes name).inexact = false ∧
         (Tbl.get ({} : CNode) t.cnt.pkgNodes name).value = s.cnt.leafSum name hub +
           (Tbl.get ({} : CNode) s.cnt.dieNodes (name * 8)).value + (Tbl.get ({} : CNode) s.cnt.dieNodes (name * 8 + 1)).value +
           (Tbl.get ({} : CNode) s.cnt.dieNodes (name * 8 + 2)).value + (Tbl.get ({} : CNode) s.cnt.dieNodes (name * 8 + 3)).value) ∧
       (∀ name loc inst : Nat, c = .leaf name loc inst → bitOf v 18 = true → ∃ t, exec (.inexactClear r off v) s = .next t ∧
         t = { s with cnt := { s.cnt with leaves := t.cnt.leaves } } ∧
         Tbl.get ({} : Leaf) t.cnt.leaves (leafKey name loc inst) =
           { Tbl.get ({} : Leaf) s.cnt.leaves (leafKey name loc inst) with wrapped := false })))
-- debug, test and return

/-- DBG_LEVEL_LOWER, UNLOCK_REQ, UNLOCK_CHECK, CHALLENGE_EXPIRY, LOCKOUT_EXPIRY, FUSE_PROG, PRIVATE_MODE and DBG_LCK_FORCE
(R514–R517, R523, R525, R530, R534): the level is lowered at any time and raised only by a response that matches its
challenge; leaving FULL resumes every core; a fuse group is programmed once; private mode voids the keys and erases the NV die
but for the Dark Records; at FULL a held lock is released. The challenge is a free value (log entry 1); who may ask is
dbgMayUse (log entry 130); a group takes its value at once, and the time until another may follow is a free value (log entry
131). -/
def Obligations.DebugLevelsComplete : Prop :=
  ∀ (s : State), Plain s →
    (∀ r : Req, s.live domSPN = true → r.spec = none → s.reaches r = true →
      (dbgMayUse r = false → ∀ v target, exec (.dbgLevelLower r v) s = .next (s.vio 90) ∧
        exec (.unlockReq r target) s = .next (s.vio 91) ∧ exec (.unlockCheck r) s = .next (s.vio 91)) ∧
      (dbgMayUse r = true →
        (∀ v : Word, (s.dbg.level.toNat < v.toNat % 4 → exec (.dbgLevelLower r v) s = .next (s.vio 90)) ∧
          (v.toNat % 4 ≤ s.dbg.level.toNat → s.dbg.level ≠ 2 ∨ v.toNat % 4 = 2 → exec (.dbgLevelLower r v) s = .next
            { s with dbg := { s.dbg with level := v.setWidth 2 } }) ∧
          (v.toNat % 4 < 2 → s.dbg.level = 2 → ∃ t, exec (.dbgLevelLower r v) s = .next t ∧ t.dbg.level = v.setWidth 2 ∧
            t.dbg.extest = false ∧ (∀ c, (t.core c).dbg.halted = false ∧ (t.core c).dbg.bkHalt = false) ∧
            (s.cfg.tpActive = true → s.cfg.tp = true → t.cfg.tpActive = false ∧ t.cfg.tpCode = 0x23) ∧ t.regs = s.regs ∧
            t.mem = s.mem)) ∧
        (∀ target : BitVec 2, (s.dbg.lockout = true ∨ target = 0 ∨ target = 3 → exec (.unlockReq r target) s = .next (s.vio 89)) ∧
          (s.dbg.lockout = false → target = 1 ∨ target = 2 → ∃ t, exec (.unlockReq r target) s = .next t ∧
            t = { s with regs := t.regs, dbg := t.dbg, freeCtr := t.freeCtr } ∧ t.dbg.chalValid = true ∧ t.dbg.chalLeft = 1000000 ∧ t.dbg.level = s.dbg.level ∧
            t.unlockTarget = target ∧ t.dbg.lockout = false)) ∧
        (s.dbg.chalValid = true → s.responseOk = true → s.dbg.level ≠ 2 ∨ s.unlockTarget = 2 → exec (.unlockCheck r) s = .next
          { s with
            cnt := (s.countRaw (cn 17 0) hub 0 1).cnt,
            dbg := { s.dbg with chalValid := false, chalLeft := 0, chal := [], lastOk := true, level := s.unlockTarget } }) ∧
        (s.dbg.chalValid = false ∨ s.responseOk = false → exec (.unlockCheck r) s = .next
          ({ s with dbg := { s.dbg with
            chalValid := false, chalLeft := 0, chal := [], lastOk := false, lockout := true, lockLeft := 1000000 } }.vio 89)) ∧
        (∀ n : BitVec 8, s.dbg.level ≠ 2 ∨ (s.lock n.toNat).owner = 0 → exec (.dbgLckForce r n) s = .next (s.vio 91)) ∧
        (∀ n : BitVec 8, s.dbg.level = 2 → (s.lock n.toNat).owner ≠ 0 → ∃ t, exec (.dbgLckForce r n) s = .next t ∧
          t = { s with locks := t.locks, cnt := (s.countRaw (cn 7 8) hub 0 1).cnt } ∧ (t.lock n.toNat).owner = 0 ∧
          (t.lock n.toNat).waiters = (s.lock n.toNat).waiters ∧ (t.lock n.toNat).grace = ((s.lock n.toNat).waiters != []) ∧
          ∀ k, k ≠ n.toNat → t.lock k = s.lock k))) ∧
    (exec .challengeExpiry s = .next { s with dbg := { s.dbg with chalValid := false, chalLeft := 0, chal := [] } } ∧
      exec .lockoutExpiry s = .next { s with dbg := { s.dbg with lockout := false, lockLeft := 0 } }) ∧
    (∀ (dr : BitVec 392) (g : Nat), g = fld dr 0 4 → bitOf s.su.ended 0 = true →
      (s.dbg.level ≠ 2 → ∃ t, exec (.fuseProg dr) s = .next t ∧ t.cfg = s.cfg ∧ t.dbg.fuseProg = s.dbg.fuseProg ∧
        t.dbg.tapIr = 0xFF ∧ t.cnt = (s.countRaw vioName hub 91 1).cnt) ∧
      (s.dbg.level = 2 → g < 4 → bitOf s.dbg.fuseProg g = true → ∃ t, exec (.fuseProg dr) s = .next t ∧ t.cfg = s.cfg ∧
        t.cnt = (s.countRaw vioName hub 91 1).cnt) ∧
      (s.dbg.level = 2 → g < 4 → s.dbg.fuseLeft ≠ 0 → ∃ t, exec (.fuseProg dr) s = .next t ∧ t.cfg = s.cfg ∧
        t.cnt = (s.countRaw vioName hub 91 1).cnt) ∧
      (s.dbg.level = 2 → g < 4 → bitOf s.dbg.fuseProg g = false → s.dbg.fuseLeft = 0 → ∃ t, exec (.fuseProg dr) s = .next t ∧
        1 ≤ t.dbg.fuseLeft ∧ t.dbg.fuseLeft ≤ 20000 ∧
        t.dbg.fuseProg = setBit s.dbg.fuseProg g true ∧ t.cfg = { s.cfg with
          fuseKf := if g = 0 then some (dr.extractLsb' 4 256) else s.cfg.fuseKf,
          fuseKa := if g = 1 then some (dr.extractLsb' 4 384) else s.cfg.fuseKa,
          fuseHd := if g = 2 then some (dr.extractLsb' 4 384) else s.cfg.fuseHd,
          fuseNoObserve := if g = 3 then bitOf dr 4 else s.cfg.fuseNoObserve })) ∧
    (bitOf s.su.ended 0 = true → ∃ t, exec .privateMode s = .next t ∧
      t = { s with dbg := { s.dbg with keysVoid := true, tapIr := 0x7F, extest := false }, nv := t.nv } ∧
      (∀ a, Tbl.get 0xFF t.nv.mem a = if 0x1D1000000 ≤ a ∧ a < 0x1D2000000 then Tbl.get 0xFF s.nv.mem a else 0xFF) ∧
      ∀ k, Tbl.get false t.nv.used k = (Tbl.get false s.nv.used k && decide (k / 64 = 5)))

/-- CORE_HALT, CORE_RESUME, CORE_STEP, GROUP_HALT, GROUP_RESUME, REG_ACCESS and MEM_ACCESS (R520–R523): at FULL a live core
halts, at once or when its access is back, and loses its reservation; it resumes, the Lamp with the watchdog's grace at least
(R246); a step lets one instruction issue; a group does the same to its members; a halted core's registers and a core's memory
are read and written; below FULL each is a violation. Who may ask is dbgMayUse (log entry 130). -/
def Obligations.RunControlComplete : Prop :=
  ∀ (r : Req) (core : Core) (s : State) (c : Nat) (q : CoreSt), c = core.val → q = s.core c → Plain s →
    s.live domSPN = true → r.spec = none → s.reaches r = true →
    (dbgMayUse r = false ∨ s.dbg.level ≠ 2 ∨ s.coreLive c = false → ∀ i, i = .coreHalt r core ∨ i = .coreResume r core ∨
      i = .coreStep r core → exec i s = .next (s.vio 92)) ∧
    (dbgMayUse r = false ∨ s.dbg.level ≠ 2 → ∀ g v, exec (.groupHalt r g) s = .next (s.vio 92) ∧
      exec (.groupResume r g) s = .next (s.vio 92) ∧ exec (.regAccess r core v) s = .next (s.vio 91) ∧
      exec (.memAccess r core (some v)) s = .next (s.vio 91)) ∧
    (dbgMayUse r = true → s.dbg.level = 2 → s.coreLive c = true →
      (∀ (i : Instr) (k : BitVec 3), (i = .coreHalt r core ∧ k = 1 ∨ ∃ g : Fin 16, i = .groupHalt r g ∧ s.groupMembers g.val = [c] ∧ k = 2) →
        (q.dbg.halted = true → ∃ t, exec i s = .next t ∧ Becomes c s t q) ∧
        (q.dbg.halted = false → q.wait ≠ none → ∃ t, exec i s = .next t ∧
          Becomes c s t { q with dbg := { q.dbg with stopping := true, cause := k } }) ∧
        (q.dbg.halted = false → q.wait = none → ∃ t, exec i s = .next t ∧
          t = { s with cores := t.cores, cnt := (s.countRaw (cn 17 1) hub 0 1).cnt } ∧
          CoreBecomes c s t { q with
            resv := none, dbg := { q.dbg with halted := true, stopping := false, stepping := false, cause := k } })) ∧
      (∀ i : Instr, (i = .coreResume r core ∨ ∃ g : Fin 16, i = .groupResume r g ∧ s.groupMembers g.val = [c]) → q.dbg.halted = true →
        q.dbg.cause ≠ 3 → ∃ t, exec i s = .next t ∧ t = { s with cores := t.cores, wdg := released c s } ∧
          CoreBecomes c s t { q with dbg := { q.dbg with halted := false, stepping := false, cause := 0 } }) ∧
      (q.dbg.halted = false → exec (.coreStep r core) s = .next (s.vio 92)) ∧
      (q.dbg.halted = true → q.dbg.cause ≠ 3 → ∃ t, exec (.coreStep r core) s = .next t ∧
        t = { s with cores := t.cores, wdg := released c s } ∧ CoreBecomes c s t { q with dbg := { q.dbg with halted := false, stepping := true, cause := 0 } }) ∧
      (∀ (v : Word) (n : Nat) (d : CoreDbg), n = v.toNat % 256 → bitOf v 8 = true → d = { q.dbg with reg := v.setWidth 8, wr := bitOf v 9 } →
        (q.dbg.halted = false → ∃ t, exec (.regAccess r core v) s = .next t ∧ Becomes c s t { q with dbg := { d with ok := false } }) ∧
        (q.dbg.halted = true → bitOf v 9 = false →
          (∀ x : Fin 16, n = x.val → ∃ t, exec (.regAccess r core v) s = .next t ∧
            Becomes c s t { q with dbg := { d with ok := true, d0 := q.getX x, d1 := 0, d2 := 0 } }) ∧
          (∀ a : Fin 4, n = 0x10 + a.val → ∃ t, exec (.regAccess r core v) s = .next t ∧ Becomes c s t { q with dbg := { d with
            ok := true, d0 := (q.getA a).extractLsb' 0 32, d1 := (q.getA a).extractLsb' 32 32,
            d2 := ((q.getA a).extractLsb' 64 16).setWidth 32 } }) ∧
          (∀ p : Fin 8, n = 0x18 + p.val → ∃ t, exec (.regAccess r core v) s = .next t ∧
            Becomes c s t { q with dbg := { d with ok := true, d0 := q.getP p, d1 := 0, d2 := 0 } }) ∧
          (∀ m : Fin 8, n = 0x20 + m.val → ∃ t, exec (.regAccess r core v) s = .next t ∧
            Becomes c s t { q with dbg := { d with ok := true, d0 := q.getM m, d1 := 0, d2 := 0 } }) ∧
          (n = 0x28 → ∃ t, exec (.regAccess r core v) s = .next t ∧
            Becomes c s t { q with dbg := { d with ok := true, d0 := q.pc, d1 := 0, d2 := 0 } })) ∧
        (q.dbg.halted = true → bitOf v 9 = true →
          (∀ x : Fin 16, n = x.val → ∃ t, exec (.regAccess r core v) s = .next t ∧
            Becomes c s t { q.setX x q.dbg.d0 with dbg := { d with ok := true } }) ∧
          (∀ a : Fin 4, n = 0x10 + a.val → ∃ t, exec (.regAccess r core v) s = .next t ∧
            Becomes c s t { q.setA a (q.dbg.d2.setWidth 16 ++ q.dbg.d1 ++ q.dbg.d0) with dbg := { d with ok := true } }))) ∧
      (∀ (v : Word) (a : Nat), a = q.dbg.memAddr.toNat → a < (if c = 1024 then 0x400000 else 0x10000) →
        (∃ t, exec (.memAccess r core (some v)) s = .next t ∧ t = { s with cores := t.cores } ∧
          (t.core c).dbg.memAddr = q.dbg.memAddr + 4 ∧ (t.core c).pc = q.pc ∧ (t.core c).x = q.x ∧
          ∀ k, Tbl.get 0 (t.core c).dmem k = if k = a / 4 then v else Tbl.get 0 q.dmem k) ∧
        (Tbl.get 0 q.badD (a / 4) % 64 = 0 → ∃ t, exec (.memAccess r core none) s = .next t ∧
          t = { s with cores := t.cores, outbox := s.outbox ++ [.reply r (.word (Tbl.get 0 q.dmem (a / 4)))] } ∧
          (∀ j, j ≠ c → t.core j = s.core j) ∧ t.core c = { q with dbg := { q.dbg with memAddr := q.dbg.memAddr + 4 } })))

/-- VT_TX_WRITE, VT_TX_READ, VT_RX_WRITE, VT_RX_READ, DR_CAPTURE and DR_WRITE (R524, R531–R533): a byte goes one way through
each register while it is empty, and a live read takes it; a capture is held until it is written, whole, over the area's
oldest entry. DBG_WIN_READ, DBG_WIN_WRITE and DBG_ACCESS (R514, R518, R519, R527): through the window and the test port a word
of clean, unsealed near memory is read at OBSERVE and above and written at FULL, with its status; an access that the level
does not allow is refused; the test port answers each access with the one before it. Who may ask is dbgMayUse (log entry 130).
-/
def Obligations.DebugAccessesComplete : Prop :=
  (∀ (r : Req) (core : Core) (s : State) (c : Nat) (b : Byte), c = core.val → Plain s → s.live domSPN = true →
     (s.coreLive c = true →
       ((s.core c).glint = none →
         (Tbl.get none s.dbg.vtTx c = none → ∃ t, exec (.vtTxWrite core b) s = .next t ∧
           t = { s with dbg := { s.dbg with vtTx := t.dbg.vtTx } } ∧
           ∀ k, Tbl.get none t.dbg.vtTx k = if k = c then some b else Tbl.get none s.dbg.vtTx k) ∧
         (Tbl.get none s.dbg.vtTx c ≠ none → exec (.vtTxWrite core b) s = .next (s.vio 93))) ∧
       ∃ t, exec (.vtRxRead core) s = .next t ∧
         t = { s with
           dbg := { s.dbg with vtRx := t.dbg.vtRx },
           outbox := s.outbox ++ [.reply (coreReq c (s.core c).glint) (.word (match Tbl.get none s.dbg.vtRx c with
             | some x => BitVec.ofNat 32 (256 + x.toNat)
             | none => 0))] } ∧
         ∀ k, Tbl.get none t.dbg.vtRx k = if k = c then none else Tbl.get none s.dbg.vtRx k) ∧
     (dbgMayUse r = true → s.reaches r = true → s.dbg.level ≠ 0 → ∀ live : Bool, ∃ t, exec (.vtTxRead r core live) s = .next t ∧
       t = { s with
         dbg := { s.dbg with vtTx := t.dbg.vtTx },
         outbox := s.outbox ++ [.reply r (.word (match Tbl.get none s.dbg.vtTx c with
           | some x => BitVec.ofNat 32 (256 + x.toNat)
           | none => 0))] } ∧
       ∀ k, Tbl.get none t.dbg.vtTx k = if k = c ∧ live = true ∧ s.dbg.level = 2 then none else Tbl.get none s.dbg.vtTx k) ∧
     (r.spec = none → s.reaches r = true → r.cls = .host ∨ r.cls = .debug →
       (s.dbg.level ≠ 2 → exec (.vtRxWrite r core b) s = .next (s.vio 91) ∧ exec (.drCapture r) s = .next (s.vio 91)) ∧
       (s.dbg.level = 2 →
         (Tbl.get none s.dbg.vtRx c ≠ none → exec (.vtRxWrite r core b) s = .next (s.vio 93)) ∧
         (Tbl.get none s.dbg.vtRx c = none → ∃ t, exec (.vtRxWrite r core b) s = .next t ∧
           t = { s with dbg := { s.dbg with vtRx := t.dbg.vtRx } } ∧
           ∀ k, Tbl.get none t.dbg.vtRx k = if k = c then some b else Tbl.get none s.dbg.vtRx k) ∧
         (s.capture ≠ none → exec (.drCapture r) s = .next s) ∧
         (s.capture = none → ∃ t x, exec (.drCapture r) s = .next t ∧ t = { s with capture := some x } ∧ x.trig = none ∧
           x.recs = s.dbg.records ∧ x.regs = s.regs))) ∧
     (∀ (x : Capture) (a : Nat), s.capture = some x → s.on domCFG = true → a = 0x1D1000000 + s.dbg.drSeq.toNat % 256 * 0x10000 →
       ∃ t bs, exec .drWrite s = .next t ∧ t.nv.mem = nvPut (outside a (a + 0x10000) s.nv.mem) a bs ∧
         bs.take 4 = bytesOf 0x4B524144 4 ∧ (bs.drop 8).take 4 = bytesOf s.dbg.drSeq.toNat 4 ∧ t.nv.used = s.nv.used ∧
         t.dbg.drSeq = s.dbg.drSeq + 1 ∧ t.capture = none ∧ t.cnt = (s.countRaw (cn 17 2) hub 0 1).cnt ∧ t.regs = s.regs ∧
         t.mem = s.mem)) ∧
  (∀ (s : State) (a st k : Nat) (w : Word), Plain s → s.live domSPN = true → a < nearEnd → a % 4 = 0 →
     s.place a = .near st k → s.sealOf k = none → s.live (domNBC st) = true → CleanPage s (a / 2048) →
     w = BitVec.ofNat 32 (wordOfBytes (Memory.bytes s.mem a 4)) →
     (∀ r : Req, r.cls = .host ∨ r.cls = .lamp → s.winAddr = a → r.spec = none → s.reaches r = true →
       (s.dbg.level ≠ 0 → exec (.dbgWinRead r []) s =
         .next ({ s with dbg := { s.dbg with winStat := 0 } }.answer r (.word w))) ∧
       (∀ v : Word, s.dbg.level = 2 → ∃ t, exec (.dbgWinWrite r v []) s = .next t ∧
         t.mem = Memory.putAll s.mem a (bytesOf v.toNat 4) ∧ t.dbg.winStat = 0 ∧ t.regs = s.regs ∧
         t.outbox = (if r.cls = .host then s.outbox else s.outbox ++ [.reply r .ok])) ∧
       (s.dbg.level = 0 → ∃ t, exec (.dbgWinRead r []) s = .next t ∧ t.dbg.winStat = 5 ∧
         t.outbox = s.outbox ++ [.reply r .error] ∧ Rose s t vioName hub 91 1 ∧ t.mem = s.mem) ∧
       (∀ v : Word, s.dbg.level ≠ 2 → ∃ t, exec (.dbgWinWrite r v []) s = .next t ∧ t.dbg.winStat = 5 ∧
         Rose s t vioName hub 91 1 ∧ t.mem = s.mem)) ∧
     (∀ (dr : BitVec 88), fld dr 2 48 = a → bitOf s.su.ended 0 = true →
       (bitOf dr 0 = false → s.dbg.level ≠ 0 → ∃ t, exec (.dbgAccess dr []) s = .next t ∧ t.dbg.tapStat = 0 ∧
         t.dbg.tapData.toNat = w.toNat ∧ t.dbg.tapIr = 0x10 ∧ t.mem = s.mem ∧ t.regs = s.regs ∧
         t.outbox = s.outbox ++ [.tdo (s.dbg.tapStat.toNat + s.dbg.tapData.toNat * 2 ^ 50)]) ∧
       (bitOf dr 0 = true → s.dbg.level = 2 → ∃ t, exec (.dbgAccess dr []) s = .next t ∧ t.dbg.tapStat = 0 ∧
         t.mem = Memory.putAll s.mem a (bytesOf (fld dr 50 32) 4) ∧ t.regs = s.regs)))

/-- The test port's other instructions (R526–R529): Test-Logic-Reset selects IDCODE, which gives the code; BYPASS and
SAMPLE/PRELOAD; at FULL the EXTEST family takes the contacts, so that every lane is dark, the far halves rest and the link is
down; below FULL an instruction of the family selects BYPASS and is a violation. What the contacts carry is a free value (log
entry 1). -/
def Obligations.TestPortComplete : Prop :=
  ∀ (s : State), Plain s → bitOf s.su.ended 0 = true →
    (s.dbg.extest = false →
      exec .testLogicReset s = .next { s with dbg := { s.dbg with tapIr := 0x01 } } ∧
      exec .bypass s = .next { s with dbg := { s.dbg with tapIr := 0xFF } } ∧
      exec .idcode s = .next
        { s with dbg := { s.dbg with tapIr := 0x01 }, outbox := s.outbox ++ [.tdo s.idcodeWord] } ∧
      exec .samplePreload s = .next
        { s with dbg := { s.dbg with tapIr := 0x02, boundary := some s.freeCtr }, freeCtr := s.freeCtr + 1 }) ∧
    (∀ (i : Instr) (ir : Byte) (cells : Bool), i = .extest ∧ ir = 3 ∧ cells = true ∨ i = .clamp ∧ ir = 4 ∧ cells = false ∨
        i = .highz ∧ ir = 5 ∧ cells = false ∨ i = .extestPulse ∧ ir = 6 ∧ cells = true ∨ i = .extestTrain ∧ ir = 7 ∧ cells = true →
      (s.dbg.level ≠ 2 → ∃ t, exec i s = .next t ∧
        t = { s with dbg := { s.dbg with tapIr := 0xFF, extest := false }, cnt := (s.countRaw vioName hub 91 1).cnt }) ∧
      (s.dbg.level = 2 → s.dbg.extest = false → ∃ t, exec i s = .next t ∧ t.dbg.tapIr = ir ∧ t.dbg.extest = true ∧
        t.hif.up = false ∧ t.hif.width = 0 ∧ t.dbm.half0 = { s.dbm.half0 with trained := false } ∧
        t.dbm.half1 = { s.dbm.half1 with trained := false } ∧ (∀ l : LaneId, (t.lane (LaneId.ln l).key).st = 0) ∧
        (cells = true → t.dbg.boundary.isSome = true) ∧ (cells = false → t.dbg.boundary = s.dbg.boundary) ∧ t.regs = s.regs))
-- the host interface

/-- REGISTER_WRITE, HIF_WIN_BASE_WRITE, BAR2_READ and BAR2_WRITE (R8, R9, R27, R542, R544, R556): a write of HIF_FLT_IEN by
the host or the Lamp is stored, and refused of another class; a read-only register ignores a write; the low word of a 64-bit
value is held; a misaligned write answers an error, as violation 62; a window base at or below its limit is stored; a host
access through BAR2 reaches clean, unsealed near memory at base × 2^30 + offset. -/
def Obligations.RegisterAndWindowComplete : Prop :=
  ∀ (s : State), s.live domSPN = true → Plain s →
    (∀ (r : Req) (v : Word), r.spec = none → s.reaches r = true →
      (hostOrLamp r = true → exec (.registerWrite r 0x100060 v none) s = .next ((s.store .hifFltIen [] v).answerReg r .ok) ∧
        (s.store .hifFltIen [] v).rd .hifFltIen [] = v &&& 3 ∧ exec (.registerWrite r 0 v none) s = .next (s.answerReg r .ok)) ∧
      (hostOrLamp r = false → exec (.registerWrite r 0x100060 v none) s = .next ((s.vio 85).answerReg r .error)) ∧
      (∀ k : Fin 16, exec (.registerWrite r (BitVec.ofNat 26 (RegName.off .ringBase [k.val, 0])) v none) s = .next
        ({ s with heldLow := Tbl.set none s.heldLow (latchKey r (RegName.off .ringBase [k.val, 0])) (some v) }.answerReg r .ok)) ∧
      (∀ (off : BitVec 26) (hi : Option Word), r.cls ≠ .host → off.toNat % (if hi.isSome then 8 else 4) ≠ 0 →
        exec (.registerWrite r off v hi) s = .next ((s.vio 62).answer r .error)) ∧
      (hostOrLamp r = true → (0x3FBC0 < v.toNat % 2 ^ 18 → exec (.hifWinBaseWrite r v) s = .next (s.vio 87)) ∧
        (v.toNat % 2 ^ 18 ≤ 0x3FBC0 → exec (.hifWinBaseWrite r v) s = .next (s.store .hifWinBase [] v) ∧
          ∀ o, (s.store .hifWinBase [] v).bar2Addr o = v.toNat % 2 ^ 18 * 2 ^ 30 + o)) ∧
      (hostOrLamp r = false → exec (.hifWinBaseWrite r v) s = .next (s.vio 85))) ∧
    (∀ (off : BitVec 36) (a st k : Nat) (r : Req), a = s.bar2Addr off.toNat → r = { cls := .host, rnum := 1 } →
      s.hostReaches = true → s.place a = .near st k → s.sealOf k = none → s.live (domNBC st) = true → a < nearEnd →
      CleanPage s (a / 2048) →
      (∀ len : Nat, 0 < len → a % 2048 + len ≤ 2048 →
        exec (.bar2Read off len []) s = .next (s.answer r (.data ((Memory.bytes s.mem a len).map some)))) ∧
      (∀ bs : List Byte, 0 < bs.length → a % 2048 + bs.length ≤ 2048 →
        ∃ t, exec (.bar2Write off bs []) s = .next t ∧
          t = { s with mem := t.mem, dbm := t.dbm, sre := t.sre, noc := t.noc, cores := t.cores } ∧
          t.mem = Memory.putAll s.mem a bs ∧ (∀ p, Tbl.get {} t.dbm.pages p = Tbl.get {} s.dbm.pages p) ∧
          t.dbm.regions = s.dbm.regions ∧ t.sre.entries = s.sre.entries))

/-- COMMAND_END, a GO of an unknown opcode and DARK_RECORD_READ (R545, R547, R548, R555): an end writes the status, clears
busy, raises vector 1 and counts; an opcode outside 1–12 ends at once with 0x2B; a Dark Record whose magic fails ends with
0x36 and one whose destination does not suit with 0x37, both without effect; else the entry's bytes are written, and the end
will show 0, 0x4D where a part failed, or 0x4C where the CRC does not match. -/
def Obligations.CommandPortComplete : Prop :=
  ∀ (s : State), Plain s →
    (∀ (c : Byte) (op : Nat), op = s.hif.opcode.toNat → s.hif.busy = true → s.hif.endCode = some c → s.dbm.pass = none →
      ∃ t, exec .commandEnd s = .next t ∧ t.hif.busy = false ∧ t.hif.status = c ∧ t.hif.endCode = none ∧
        t.hif.opcode = s.hif.opcode ∧ Rose s t (cn 16 0) hub (if 1 ≤ op ∧ op ≤ 12 then op - 1 else 12) 1 ∧
        (s.canMaster = true → s.vecMasked 1 = false → t.outbox = s.outbox ++ [.msix 1] ∧ t.hif.vecPend = s.hif.vecPend) ∧
        (s.canMaster = false ∨ s.vecMasked 1 = true → t.outbox = s.outbox ∧ bitOf t.hif.vecPend 1 = true) ∧
        (s.on domLMP = true → bitOf (t.core lampCore).ipend 7 = true) ∧ t.regs = s.regs ∧ t.mem = s.mem) ∧
    (s.hif.busy = false ∨ s.hif.endCode = none → exec .commandEnd s = .next s) ∧
    (∀ (lamp : Bool) (op : BitVec 8), s.live domSPN = true → (lamp = true → s.live domLMP = true) → (lamp = false → s.hostReaches = true) →
      op.toNat = 0 ∨ 12 < op.toNat →
      (s.hif.busy = true → exec (.unknownOpcode lamp op) s = .next (s.vio 84)) ∧
      (s.hif.busy = false → ∃ t, exec (.unknownOpcode lamp op) s = .next t ∧ t.hif.busy = false ∧ t.hif.status = 0x2B ∧
        t.hif.opcode = op ∧ t.hif.ownerLamp = lamp ∧ Rose s t (cn 16 0) hub 12 1 ∧ t.regs = s.regs ∧ t.mem = s.mem)) ∧
    (∀ (lamp : Bool) (entry : Word) (dst : Addr) (errs : MemErrs) (u : State) (bs : List Byte), PortFree lamp s →
      entry.toNat < 256 → u = begun lamp 12 (portArgs entry 0 dst 0 0) s → bs = s.darkEntry entry.toNat →
      (numAt bs 0 4 ≠ 0x4B524144 → exec (.darkRecordRead lamp entry dst errs) s = .next (u.portEnd 0x36)) ∧
      (numAt bs 0 4 = 0x4B524144 → s.darkDstOk dst.toNat = false →
        exec (.darkRecordRead lamp entry dst errs) s = .next (u.portEnd 0x37)) ∧
      (∀ (x : List ByteRes) (w : State), numAt bs 0 4 = 0x4B524144 → s.darkDstOk dst.toNat = true →
        u.memWrite (portReq false) dst.toNat bs errs = (x, w) →
        exec (.darkRecordRead lamp entry dst errs) s = .next (ending
          (if x.any fun b => b.byte?.isNone then 0x4D
          else if crc32 (bs.take 0x48 ++ [0, 0, 0, 0] ++ bs.drop 0x4C) = BitVec.ofNat 32 (numAt bs 0x48 4) then 0 else 0x4C) w)))

/-- RING_ENABLE, RING_DISABLE, RING_CONS_WRITE, MSIX_HOLDOFF_EXPIRY and MSIX_PENDING_SEND (R550–R552, R555): a ring's control
word is stored, and en's rising edge zeroes prod and cons (an event that is being written as en falls is cut off, R551); a
size outside 20–36, or a new size of an enabled ring, is a violation; a cons within the ring's bytes is taken; the holdoff's
end sends the one message that is due; a pending vector goes once it may. -/
def Obligations.HostRingsComplete : Prop :=
  ∀ (s : State), Plain s →
    (∀ (r : Req) (ring : Fin 16) (k : Nat) (q : Ring), k = ring.val → q = s.ring k → r.spec = none → s.live domSPN = true →
      s.reaches r = true →
      (hostOrLamp r = false → ∀ v c, exec (.ringEnable r ring v) s = .next (s.vio 86) ∧
        exec (.ringDisable r ring v) s = .next (s.vio 86) ∧ exec (.ringConsWrite r ring c) s = .next (s.vio 86)) ∧
      (hostOrLamp r = true →
        (∀ (v : Word) (n : Nat), n = v.toNat / 2 % 64 →
          (n < 20 ∨ 36 < n ∨ (s.ringOn k = true ∧ 2 ^ n ≠ s.ringSize k) → exec (.ringEnable r ring v) s = .next (s.vio 86) ∧
            exec (.ringDisable r ring v) s = .next (s.vio 86)) ∧
          (20 ≤ n → n ≤ 36 → s.ringOn k = false ∨ 2 ^ n = s.ringSize k →
            (∃ t, exec (.ringEnable r ring v) s = .next t ∧ t.ringOn k = true ∧ t.ringSize k = 2 ^ n ∧
              t.ring k = (if s.ringOn k then q else { q with prod := 0, cons := 0 }) ∧ (∀ j, j ≠ k → t.ring j = s.ring j) ∧
              t.mem = s.mem ∧ t.cnt = s.cnt ∧ ∀ m jx, m ≠ .ringCtrl → RegName.off m jx ≠ RegName.off .ringCtrl [k] →
                t.rd m jx = s.rd m jx) ∧
            (∃ t, exec (.ringDisable r ring v) s = .next t ∧ t.ringOn k = false ∧ t.ringSize k = 2 ^ n ∧ t.ring k = q ∧
              (s.ringOn k = false ∨ s.ringNext k = none → t.hif = s.hif ∧ t.mem = s.mem ∧ t.cnt = s.cnt)))) ∧
        (∀ v : BitVec 64, (v.toNat < q.cons.toNat ∨ s.ringSize k < (q.prod - v).toNat →
            exec (.ringConsWrite r ring v) s = .next (s.vio 86)) ∧
          (q.cons.toNat ≤ v.toNat → (q.prod - v).toNat ≤ s.ringSize k → ∃ t, exec (.ringConsWrite r ring v) s = .next t ∧
            t = { s with hif := t.hif } ∧ t.hif = { s.hif with rings := t.hif.rings } ∧ t.ring k = { q with cons := v } ∧
            ∀ j, j ≠ k → t.ring j = s.ring j)))) ∧
    (∀ (ring : Fin 16) (k : Nat) (q : Ring), k = ring.val → q = s.ring k →
      (q.holdoff = false → exec (.msixHoldoffExpiry ring) s = .next s) ∧
      (q.holdoff = true → ∃ t, exec (.msixHoldoffExpiry ring) s = .next t ∧ t.regs = s.regs ∧ t.mem = s.mem ∧
        (∀ j, j ≠ k → t.ring j = s.ring j) ∧ (t.ring k).msgDue = false ∧ (t.ring k).prod = q.prod ∧ (t.ring k).cons = q.cons ∧
        (q.msgDue = true → (t.ring k).left = s.rf .ringCtrl [k] 16 16) ∧
        (q.msgDue = false → (t.ring k).holdoff = false ∧ t.outbox = s.outbox ∧ t.hif.vecPend = s.hif.vecPend) ∧
        (q.msgDue = true → s.canMaster = true → s.vecMasked (16 + k) = false →
          t.outbox = s.outbox ++ [.msix (16 + k)] ∧ Rose s t (cn 16 7) hub 0 1) ∧
        (q.msgDue = true → s.canMaster = false ∨ s.vecMasked (16 + k) = true →
          t.outbox = s.outbox ∧ bitOf t.hif.vecPend (16 + k) = true))) ∧
    (∀ v : Fin 64,
      (s.canMaster = true → bitOf s.hif.vecPend v.val = true → s.vecMasked v.val = false →
        ∃ t, exec (.msixPendingSend v) s = .next t ∧ t = { s with hif := t.hif, cnt := t.cnt, outbox := s.outbox ++ [.msix v.val] } ∧
          t.hif = { s.hif with vecPend := setBit s.hif.vecPend v.val false } ∧ Counted s t (cn 16 7) hub 0 1) ∧
      (s.canMaster = false ∨ bitOf s.hif.vecPend v.val = false ∨ s.vecMasked v.val = true →
        exec (.msixPendingSend v) s = .next s))
-- the general pins

/-- GPI_PIN_WRITE, GPI_CTRL.acc_en, BUSY_EDGE, GPI_EDGE.pop and MARK_PULSE (R577–R580): a pin's configuration and the control
word are stored where R580 does not refuse them; an edge of a BUSY pin is queued with the tick count, or discarded and shown
where the queue is full; a pop removes the head; a MARK pin pulses at each multiple of 2^mark_k. While the test port holds no
contacts, every contact but ALERT_N is harmless in UNPOWERED, AON_ONLY and RESET, and with VAUX good and outside RESET_N
ALERT_N is asserted just in DARK, in thermal shutdown, without VIN_MAIN, or while a bit of FLT_NME is 1 (R498, R566, R567). -/
def Obligations.PinsComplete : Prop :=
  (∀ (s : State) (c : Contact), s.dbg.extest = false →
    (s.rails.vaux = false ∨ s.rails.resetN = false ∨ bitOf s.su.ended 1 = false ∨ s.su.dark = true ∨ s.su.thermalOff = true ∨
        s.su.vinOff = true → c ≠ .alertN → s.drive c = .harmless) ∧
    (s.rails.vaux = true → s.rails.resetN = true →
      (s.drive .alertN = .level false ↔ s.nmeWord ≠ 0 ∨ s.su.dark = true ∨ s.su.thermalOff = true ∨ s.su.vinOff = true))) ∧
  ∀ (s : State), s.live domGPI = true → Plain s →
    (∀ r : Req, r.spec = none → s.reaches r = true →
      (hostOrLamp r = false → (∀ bank pin v, exec (.gpiPinWrite r bank pin v) s = .next (s.vio 95)) ∧
        (∀ v, exec (.accEnWrite r v) s = .next (s.vio 95)) ∧ exec (.edgePop r) s = .next (s.vio 95)) ∧
      (hostOrLamp r = true →
        (∀ (bank : Fin 2) (pin : Fin 24) (v : Word) (b i : Nat), b = bank.val → i = pin.val →
          (5 ≤ v.toNat % 8 ∨ i % 2 = 1 ∧ bitOf v 3 = true ∨ b = 0 ∧ s.rb .gpiCtrl [] 0 = true →
            exec (.gpiPinWrite r bank pin v) s = .next (s.vio 95)) ∧
          (v.toNat % 8 < 5 → i % 2 = 0 ∨ bitOf v 3 = false → b = 1 ∨ s.rb .gpiCtrl [] 0 = false →
            ∃ t, exec (.gpiPinWrite r bank pin v) s = .next t ∧ t = { s with regs := t.regs } ∧
              t.rd .gpiPin [b, i] = v &&& 0x7F ∧ t.pinFunc b i = v.toNat % 8 ∧
              ∀ b' i', b' < 2 → i' < 24 → ¬(b' = b ∧ i' = i) → t.rd .gpiPin [b', i'] = s.rd .gpiPin [b', i'])) ∧
        (∀ (v : Word) (k : Nat), k = v.toNat / 256 % 64 →
          (k < 8 ∨ 40 < k ∨ bitOf v 0 = true ∧ (∃ i, i < 24 ∧ s.pinFunc 0 i ≠ 0) → exec (.accEnWrite r v) s = .next (s.vio 95)) ∧
          (8 ≤ k → k ≤ 40 → bitOf v 0 = false ∨ (∀ i, i < 24 → s.pinFunc 0 i = 0) →
            ∃ t, exec (.accEnWrite r v) s = .next t ∧ t = { s with regs := t.regs } ∧ t.rb .gpiCtrl [] 0 = bitOf v 0 ∧
              t.rf .gpiCtrl [] 8 6 = k ∧ ∀ b i, b < 2 → i < 24 → t.rd .gpiPin [b, i] = s.rd .gpiPin [b, i])) ∧
        exec (.edgePop r) s = .next { s with gpio := { s.gpio with edges := s.gpio.edges.drop 1 } })) ∧
    (∀ (bank : Fin 2) (pin : Fin 24) (b i n : Nat), b = bank.val → i = pin.val → n = 24 * b + i →
      (∀ rising : Bool, (bitOf s.gpio.levels n = rising → exec (.busyEdge bank pin rising) s = .next s) ∧
        (bitOf s.gpio.levels n ≠ rising → ∃ t, exec (.busyEdge bank pin rising) s = .next t ∧ t = { s with gpio := t.gpio } ∧
          t.gpio.levels = setBit s.gpio.levels n rising ∧
          (s.bankOk b = false ∨ s.pinActs b i ≠ 3 → t.gpio.edges = s.gpio.edges ∧ t.gpio.ovf = s.gpio.ovf) ∧
          (s.bankOk b = true → s.pinActs b i = 3 → 64 ≤ s.gpio.edges.length → t.gpio.edges = s.gpio.edges ∧ t.gpio.ovf = true) ∧
          (s.bankOk b = true → s.pinActs b i = 3 → s.gpio.edges.length < 64 → t.gpio.ovf = s.gpio.ovf ∧ t.gpio.edges = s.gpio.edges ++
            [{ tick := s.tb.tick, pin := BitVec.ofNat 6 n, rising := rising != s.rb .gpiPin [b, i] 4 }]))) ∧
      (s.bankOk b = true → s.pinActs b i = 4 → s.tb.counting = true → s.tb.tick.toNat % 2 ^ s.rf .gpiCtrl [] 8 6 = 0 →
        exec (.markPulse bank pin) s = .next (s.emit (.mark bank pin))) ∧
      (s.bankOk b = false ∨ s.pinActs b i ≠ 4 ∨ s.tb.counting = false ∨ s.tb.tick.toNat % 2 ^ s.rf .gpiCtrl [] 8 6 ≠ 0 →
        exec (.markPulse bank pin) s = .next s))

/-- Distances (R211, R236, R273–R275): a core that lags behind nothing and that no earlier instruction holds issues one
instruction and then another that uses what the first produced; cyc counts the first's cycle and then the distance from it to
the second. A branch is not taken. -/
def Obligations.DistancesFollowR274 : Prop :=
  ∀ (c : Core) (s : State) (x y z : Fin 16) (p : Fin 8) (a : Fin 4) (f : LsForm) (disp : BitVec 23) (i j : Instr) (d : Nat),
    Ready 1 c.val s → lag c.val s = 0 → horizon (s.core c.val).time ≤ (s.core c.val).time.clock + 1 →
    BanksFree (s.core c.val) → f.xr = x → Near c.val (s.core c.val) f.p 4 →
    ((i, j, d) ∈ [(Instr.add c (.alu3 x y z), Instr.sub c (.alu3 y x x), 1), (.add c (.alu3 x y z), .stW c f, 2),
        (.add c (.alu3 x y z), .mtp c p x, 3), (.ldW c f, .sub c (.alu3 y x x), 1), (.ldW c f, .mtm c p x, 2),
        (.mul c (.full a y z), .mac c (.full a y z), 1), (.macl c (.full a y z), .mac c (.full a y z), 2),
        (.maxi c (.full a y 0), .maxi c (.full a y 0), 1), (.mac c (.full a y z), .extw c (.full a x 0), 2),
        (.extw c (.full a x 0), .stW c f, 2)] →
      ∃ t, exec i s = .next t ∧ (Ready 1 c.val t → Near c.val (t.core c.val) f.p 4 →
        ∃ u, exec j t = .next u ∧ (u.core c.val).cyc = (s.core c.val).cyc + BitVec.ofNat 32 (1 + d))) ∧
    ((i, j, d) ∈ [(Instr.cmp c (.alu3 0 y z), Instr.br c 1 disp, 3), (.mul c (.full a y z), .br c 9 disp, 4)] →
      ∃ t, exec i s = .next t ∧ (Ready 1 c.val t → taken (t.core c.val).fl 1 = false → taken (t.core c.val).fl 9 = false →
        ∃ u, exec j t = .next u ∧ (u.core c.val).cyc = (s.core c.val).cyc + BitVec.ofNat 32 (1 + d)))
end
end

