-- ==== Sys2Proof/Laws/Table.lean ====
section
/-! SUPPORT. Laws of the sparse tables and of the buffers' bytes: a read after a write, and that every operation keeps the
canonical form. -/

namespace Sys2Proof.Machine

variable {α : Type}

@[simp] theorem Tbl.get_nil (d : α) (k : Nat) : Tbl.get d [] k = d := rfl

theorem Tbl.get_put_same (d : α) (t : Tbl α) (k : Nat) (v : α) : Tbl.get d (Tbl.put t k v) k = v := by
  induction t with
  | nil => simp [Tbl.put, Tbl.get]
  | cons e t ih =>
    obtain ⟨j, w⟩ := e
    simp only [Tbl.put]
    split
    · simp only [Tbl.get]; rw [if_neg (by omega)]; exact ih
    · split <;> simp [Tbl.get]

theorem Tbl.get_put_ne (d : α) (t : Tbl α) (k i : Nat) (v : α) (h : i ≠ k) :
    Tbl.get d (Tbl.put t k v) i = Tbl.get d t i := by
  induction t with
  | nil => simp only [Tbl.put, Tbl.get]; rw [if_neg (fun e => h e.symm)]
  | cons e t ih =>
    obtain ⟨j, w⟩ := e
    simp only [Tbl.put]
    split
    · simp only [Tbl.get, ih]
    · split
      · next h2 =>
        subst h2
        simp only [Tbl.get]; rw [if_neg (fun e => h e.symm), if_neg (fun e => h e.symm)]
      · simp only [Tbl.get]; rw [if_neg (fun e => h e.symm)]

theorem Tbl.get_filter_same (d : α) (t : Tbl α) (k : Nat) : Tbl.get d (t.filter (fun e => e.1 != k)) k = d := by
  induction t with
  | nil => rfl
  | cons e t ih =>
    obtain ⟨j, w⟩ := e
    by_cases h : j = k
    · simpa [h] using ih
    · simp [h, Tbl.get, ih]

theorem Tbl.get_filter_ne (d : α) (t : Tbl α) (k i : Nat) (h : i ≠ k) :
    Tbl.get d (t.filter (fun e => e.1 != k)) i = Tbl.get d t i := by
  induction t with
  | nil => rfl
  | cons e t ih =>
    obtain ⟨j, w⟩ := e
    by_cases h' : j = k
    · have : ¬ k = i := fun e => h e.symm
      simp [h', Tbl.get, ih, this]
    · simp [h', Tbl.get, ih]

/-- A read at the key just written. -/
@[simp] theorem Tbl.get_set_same [DecidableEq α] (d : α) (t : Tbl α) (k : Nat) (v : α) :
    Tbl.get d (Tbl.set d t k v) k = v := by
  by_cases h : v = d
  · rw [Tbl.set, if_pos h, Tbl.get_filter_same, h]
  · rw [Tbl.set, if_neg h, Tbl.get_put_same]

/-- A read at another key, whatever the default. -/
theorem Tbl.get_set_ne [DecidableEq α] (d e : α) (t : Tbl α) (k i : Nat) (v : α) (h : i ≠ k) :
    Tbl.get e (Tbl.set d t k v) i = Tbl.get e t i := by
  by_cases hv : v = d
  · rw [Tbl.set, if_pos hv, Tbl.get_filter_ne e t k i h]
  · rw [Tbl.set, if_neg hv, Tbl.get_put_ne e t k i v h]

/-- Both at once. -/
theorem Tbl.get_set [DecidableEq α] (d : α) (t : Tbl α) (k i : Nat) (v : α) :
    Tbl.get d (Tbl.set d t k v) i = if i = k then v else Tbl.get d t i := by
  split
  · next h => rw [h, Tbl.get_set_same]
  · next h => exact Tbl.get_set_ne d d t k i v h

-- the canonical form

theorem Tbl.above_trans {t : Tbl α} {b j : Nat} (h : b ≤ j) (ha : Tbl.above j t = true) : Tbl.above b t = true := by
  cases t with
  | nil => rfl
  | cons e t =>
    simp only [Tbl.above, decide_eq_true_eq] at ha ⊢
    omega

theorem Tbl.above_put (t : Tbl α) (b k : Nat) (v : α) (hb : b < k) (h : Tbl.above b t = true) :
    Tbl.above b (Tbl.put t k v) = true := by
  cases t with
  | nil => simp [Tbl.put, Tbl.above, hb]
  | cons e t =>
    obtain ⟨j, w⟩ := e
    simp only [Tbl.above, decide_eq_true_eq] at h
    simp only [Tbl.put]
    split
    · simp [Tbl.above, h]
    · split <;> simp [Tbl.above, hb]

theorem Tbl.wf_put [DecidableEq α] (d : α) (t : Tbl α) (k : Nat) (v : α) (hv : v ≠ d) (hw : Tbl.wf d t = true) :
    Tbl.wf d (Tbl.put t k v) = true := by
  induction t with
  | nil => simp [Tbl.put, Tbl.wf, Tbl.above, hv]
  | cons e t ih =>
    obtain ⟨j, w⟩ := e
    have hw' := hw
    simp only [Tbl.wf, Bool.and_eq_true] at hw'
    simp only [Tbl.put]
    split
    · next h =>
      simp only [Tbl.wf, Bool.and_eq_true]
      exact ⟨⟨hw'.1.1, Tbl.above_put t j k v h hw'.1.2⟩, ih hw'.2⟩
    · split
      · next h2 =>
        subst h2
        simp only [Tbl.wf, Bool.and_eq_true]; exact ⟨⟨by simpa using hv, hw'.1.2⟩, hw'.2⟩
      · simp only [Tbl.wf, Bool.and_eq_true]
        refine ⟨⟨by simpa using hv, ?_⟩, hw'⟩
        simp only [Tbl.above, decide_eq_true_eq]
        omega

theorem Tbl.above_filter [DecidableEq α] (d : α) (p : Nat × α → Bool) (t : Tbl α) :
    ∀ b, Tbl.wf d t = true → Tbl.above b t = true → Tbl.above b (t.filter p) = true := by
  induction t with
  | nil => intros; rfl
  | cons e t ih =>
    obtain ⟨j, w⟩ := e
    intro b hw hb
    simp only [Tbl.wf, Bool.and_eq_true] at hw
    simp only [Tbl.above, decide_eq_true_eq] at hb
    simp only [List.filter_cons]
    split
    · simp [Tbl.above, hb]
    · exact ih b hw.2 (Tbl.above_trans (Nat.le_of_lt hb) hw.1.2)

/-- Entries taken out leave the canonical form. -/
theorem Tbl.wf_filter [DecidableEq α] (d : α) (p : Nat × α → Bool) (t : Tbl α) (hw : Tbl.wf d t = true) :
    Tbl.wf d (t.filter p) = true := by
  induction t with
  | nil => rfl
  | cons e t ih =>
    obtain ⟨j, w⟩ := e
    simp only [Tbl.wf, Bool.and_eq_true] at hw
    simp only [List.filter_cons]
    split
    · simp only [Tbl.wf, Bool.and_eq_true]
      exact ⟨⟨hw.1.1, Tbl.above_filter d p t j hw.2 hw.1.2⟩, ih hw.2⟩
    · exact ih hw.2

theorem Tbl.wf_drop [DecidableEq α] (d : α) (p : Nat → Bool) (t : Tbl α) (hw : Tbl.wf d t = true) :
    Tbl.wf d (Tbl.drop p t) = true := Tbl.wf_filter d _ t hw

/-- A write keeps the canonical form. -/
theorem Tbl.wf_set [DecidableEq α] (d : α) (t : Tbl α) (k : Nat) (v : α) (hw : Tbl.wf d t = true) :
    Tbl.wf d (Tbl.set d t k v) = true := by
  by_cases h : v = d
  · rw [Tbl.set, if_pos h]; exact Tbl.wf_filter d _ t hw
  · rw [Tbl.set, if_neg h]; exact Tbl.wf_put d t k v h hw

-- the buffers' bytes

theorem Memory.byte_put (m : Memory) (a i : Nat) (b : Byte) : (m.put a b).byte i = if i = a then b else m.byte i :=
  Tbl.get_set 0 m a i b

theorem Memory.wf_put (m : Memory) (a : Nat) (b : Byte) (h : m.wf = true) : (m.put a b).wf = true := Tbl.wf_set 0 m a b h

/-- Every multi-byte write keeps the canonical form. -/
theorem Memory.wf_putAll (bs : List Byte) : ∀ (m : Memory) (a : Nat), m.wf = true → (m.putAll a bs).wf = true := by
  induction bs with
  | nil => intro m a h; exact h
  | cons b t ih => intro m a h; exact ih _ _ (Memory.wf_put m a b h)

/-- A multi-byte write leaves every byte outside it. -/
theorem Memory.byte_putAll_outside (bs : List Byte) :
    ∀ (m : Memory) (a i : Nat), (i < a ∨ a + bs.length ≤ i) → (m.putAll a bs).byte i = m.byte i := by
  induction bs with
  | nil => intros; rfl
  | cons b t ih =>
    intro m a i h
    simp only [List.length_cons] at h
    simp only [Memory.putAll]
    rw [ih _ _ _ (by omega), Memory.byte_put, if_neg (by omega)]

/-- A multi-byte write is read back. -/
theorem Memory.byte_putAll_inside (bs : List Byte) :
    ∀ (m : Memory) (a i : Nat), a ≤ i → (h : i - a < bs.length) → (m.putAll a bs).byte i = bs[i - a] := by
  induction bs with
  | nil => intro m a i _ h; simp at h
  | cons b t ih =>
    intro m a i ha h
    simp only [Memory.putAll]
    by_cases e : i = a
    · subst e
      rw [Memory.byte_putAll_outside t _ _ _ (Or.inl (by omega)), Memory.byte_put, if_pos rfl]
      simp
    · have h2 : i - a = (i - (a + 1)) + 1 := by omega
      simp only [List.length_cons] at h
      rw [ih _ _ _ (by omega) (by omega)]
      simp only [h2, List.getElem_cons_succ]

end Sys2Proof.Machine
end

