-- ==== Sys2Proof/Laws/State.lean ====
section
/-! SUPPORT. What each named update of the state leaves and changes: one lemma per field and update, and what is read back
after it. -/

namespace Sys2Proof.Machine

variable (s : State)

-- State.setLane

@[simp] theorem State.setLane_pending (k : Nat) (v : LaneSt) : (s.setLane k v).pending = s.pending := rfl
@[simp] theorem State.setLane_freeCtr (k : Nat) (v : LaneSt) : (s.setLane k v).freeCtr = s.freeCtr := rfl
@[simp] theorem State.setLane_holdFor (k : Nat) (v : LaneSt) : (s.setLane k v).holdFor = s.holdFor := rfl
@[simp] theorem State.setLane_outbox (k : Nat) (v : LaneSt) : (s.setLane k v).outbox = s.outbox := rfl
@[simp] theorem State.setLane_regs (k : Nat) (v : LaneSt) : (s.setLane k v).regs = s.regs := rfl
@[simp] theorem State.setLane_heldLow (k : Nat) (v : LaneSt) : (s.setLane k v).heldLow = s.heldLow := rfl
@[simp] theorem State.setLane_latched (k : Nat) (v : LaneSt) : (s.setLane k v).latched = s.latched := rfl
@[simp] theorem State.setLane_mem (k : Nat) (v : LaneSt) : (s.setLane k v).mem = s.mem := rfl
@[simp] theorem State.setLane_tb (k : Nat) (v : LaneSt) : (s.setLane k v).tb = s.tb := rfl
@[simp] theorem State.setLane_clk (k : Nat) (v : LaneSt) : (s.setLane k v).clk = s.clk := rfl
@[simp] theorem State.setLane_pw (k : Nat) (v : LaneSt) : (s.setLane k v).pw = s.pw := rfl
@[simp] theorem State.setLane_rails (k : Nat) (v : LaneSt) : (s.setLane k v).rails = s.rails := rfl
@[simp] theorem State.setLane_su (k : Nat) (v : LaneSt) : (s.setLane k v).su = s.su := rfl
@[simp] theorem State.setLane_lanes (k : Nat) (v : LaneSt) : (s.setLane k v).lanes = Tbl.set {} s.lanes k v := rfl
@[simp] theorem State.setLane_bundles (k : Nat) (v : LaneSt) : (s.setLane k v).bundles = s.bundles := rfl
@[simp] theorem State.setLane_lsmActive (k : Nat) (v : LaneSt) : (s.setLane k v).lsmActive = s.lsmActive := rfl
@[simp] theorem State.setLane_board (k : Nat) (v : LaneSt) : (s.setLane k v).board = s.board := rfl
@[simp] theorem State.setLane_cfeLanes (k : Nat) (v : LaneSt) : (s.setLane k v).cfeLanes = s.cfeLanes := rfl
@[simp] theorem State.setLane_chans (k : Nat) (v : LaneSt) : (s.setLane k v).chans = s.chans := rfl
@[simp] theorem State.setLane_hitq (k : Nat) (v : LaneSt) : (s.setLane k v).hitq = s.hitq := rfl
@[simp] theorem State.setLane_wsus (k : Nat) (v : LaneSt) : (s.setLane k v).wsus = s.wsus := rfl
@[simp] theorem State.setLane_merge (k : Nat) (v : LaneSt) : (s.setLane k v).merge = s.merge := rfl
@[simp] theorem State.setLane_glint (k : Nat) (v : LaneSt) : (s.setLane k v).glint = s.glint := rfl
@[simp] theorem State.setLane_dbm (k : Nat) (v : LaneSt) : (s.setLane k v).dbm = s.dbm := rfl
@[simp] theorem State.setLane_sre (k : Nat) (v : LaneSt) : (s.setLane k v).sre = s.sre := rfl
@[simp] theorem State.setLane_cores (k : Nat) (v : LaneSt) : (s.setLane k v).cores = s.cores := rfl
@[simp] theorem State.setLane_clusters (k : Nat) (v : LaneSt) : (s.setLane k v).clusters = s.clusters := rfl
@[simp] theorem State.setLane_wdg (k : Nat) (v : LaneSt) : (s.setLane k v).wdg = s.wdg := rfl
@[simp] theorem State.setLane_scheds (k : Nat) (v : LaneSt) : (s.setLane k v).scheds = s.scheds := rfl
@[simp] theorem State.setLane_mbxs (k : Nat) (v : LaneSt) : (s.setLane k v).mbxs = s.mbxs := rfl
@[simp] theorem State.setLane_locks (k : Nat) (v : LaneSt) : (s.setLane k v).locks = s.locks := rfl
@[simp] theorem State.setLane_fabs (k : Nat) (v : LaneSt) : (s.setLane k v).fabs = s.fabs := rfl
@[simp] theorem State.setLane_brg (k : Nat) (v : LaneSt) : (s.setLane k v).brg = s.brg := rfl
@[simp] theorem State.setLane_noc (k : Nat) (v : LaneSt) : (s.setLane k v).noc = s.noc := rfl
@[simp] theorem State.setLane_cfg (k : Nat) (v : LaneSt) : (s.setLane k v).cfg = s.cfg := rfl
@[simp] theorem State.setLane_nv (k : Nat) (v : LaneSt) : (s.setLane k v).nv = s.nv := rfl
@[simp] theorem State.setLane_flt (k : Nat) (v : LaneSt) : (s.setLane k v).flt = s.flt := rfl
@[simp] theorem State.setLane_cnt (k : Nat) (v : LaneSt) : (s.setLane k v).cnt = s.cnt := rfl
@[simp] theorem State.setLane_dbg (k : Nat) (v : LaneSt) : (s.setLane k v).dbg = s.dbg := rfl
@[simp] theorem State.setLane_capture (k : Nat) (v : LaneSt) : (s.setLane k v).capture = s.capture := rfl
@[simp] theorem State.setLane_hif (k : Nat) (v : LaneSt) : (s.setLane k v).hif = s.hif := rfl
@[simp] theorem State.setLane_gpio (k : Nat) (v : LaneSt) : (s.setLane k v).gpio = s.gpio := rfl
@[simp] theorem State.setLane_on (k : Nat) (v : LaneSt) (d : Nat) : (s.setLane k v).on d = s.on d := rfl
@[simp] theorem State.setLane_live (k : Nat) (v : LaneSt) (d : Nat) : (s.setLane k v).live d = s.live d := rfl
@[simp] theorem State.setLane_rd (k : Nat) (v : LaneSt) (n : RegName) (ix : List Nat) :
    (s.setLane k v).rd n ix = s.rd n ix := rfl

-- State.setBundle

@[simp] theorem State.setBundle_pending (k : Nat) (v : BundleSt) : (s.setBundle k v).pending = s.pending := rfl
@[simp] theorem State.setBundle_freeCtr (k : Nat) (v : BundleSt) : (s.setBundle k v).freeCtr = s.freeCtr := rfl
@[simp] theorem State.setBundle_holdFor (k : Nat) (v : BundleSt) : (s.setBundle k v).holdFor = s.holdFor := rfl
@[simp] theorem State.setBundle_outbox (k : Nat) (v : BundleSt) : (s.setBundle k v).outbox = s.outbox := rfl
@[simp] theorem State.setBundle_regs (k : Nat) (v : BundleSt) : (s.setBundle k v).regs = s.regs := rfl
@[simp] theorem State.setBundle_heldLow (k : Nat) (v : BundleSt) : (s.setBundle k v).heldLow = s.heldLow := rfl
@[simp] theorem State.setBundle_latched (k : Nat) (v : BundleSt) : (s.setBundle k v).latched = s.latched := rfl
@[simp] theorem State.setBundle_mem (k : Nat) (v : BundleSt) : (s.setBundle k v).mem = s.mem := rfl
@[simp] theorem State.setBundle_tb (k : Nat) (v : BundleSt) : (s.setBundle k v).tb = s.tb := rfl
@[simp] theorem State.setBundle_clk (k : Nat) (v : BundleSt) : (s.setBundle k v).clk = s.clk := rfl
@[simp] theorem State.setBundle_pw (k : Nat) (v : BundleSt) : (s.setBundle k v).pw = s.pw := rfl
@[simp] theorem State.setBundle_rails (k : Nat) (v : BundleSt) : (s.setBundle k v).rails = s.rails := rfl
@[simp] theorem State.setBundle_su (k : Nat) (v : BundleSt) : (s.setBundle k v).su = s.su := rfl
@[simp] theorem State.setBundle_lanes (k : Nat) (v : BundleSt) : (s.setBundle k v).lanes = s.lanes := rfl
@[simp] theorem State.setBundle_bundles (k : Nat) (v : BundleSt) :
    (s.setBundle k v).bundles = Tbl.set {} s.bundles k v := rfl
@[simp] theorem State.setBundle_lsmActive (k : Nat) (v : BundleSt) : (s.setBundle k v).lsmActive = s.lsmActive := rfl
@[simp] theorem State.setBundle_board (k : Nat) (v : BundleSt) : (s.setBundle k v).board = s.board := rfl
@[simp] theorem State.setBundle_cfeLanes (k : Nat) (v : BundleSt) : (s.setBundle k v).cfeLanes = s.cfeLanes := rfl
@[simp] theorem State.setBundle_chans (k : Nat) (v : BundleSt) : (s.setBundle k v).chans = s.chans := rfl
@[simp] theorem State.setBundle_hitq (k : Nat) (v : BundleSt) : (s.setBundle k v).hitq = s.hitq := rfl
@[simp] theorem State.setBundle_wsus (k : Nat) (v : BundleSt) : (s.setBundle k v).wsus = s.wsus := rfl
@[simp] theorem State.setBundle_merge (k : Nat) (v : BundleSt) : (s.setBundle k v).merge = s.merge := rfl
@[simp] theorem State.setBundle_glint (k : Nat) (v : BundleSt) : (s.setBundle k v).glint = s.glint := rfl
@[simp] theorem State.setBundle_dbm (k : Nat) (v : BundleSt) : (s.setBundle k v).dbm = s.dbm := rfl
@[simp] theorem State.setBundle_sre (k : Nat) (v : BundleSt) : (s.setBundle k v).sre = s.sre := rfl
@[simp] theorem State.setBundle_cores (k : Nat) (v : BundleSt) : (s.setBundle k v).cores = s.cores := rfl
@[simp] theorem State.setBundle_clusters (k : Nat) (v : BundleSt) : (s.setBundle k v).clusters = s.clusters := rfl
@[simp] theorem State.setBundle_wdg (k : Nat) (v : BundleSt) : (s.setBundle k v).wdg = s.wdg := rfl
@[simp] theorem State.setBundle_scheds (k : Nat) (v : BundleSt) : (s.setBundle k v).scheds = s.scheds := rfl
@[simp] theorem State.setBundle_mbxs (k : Nat) (v : BundleSt) : (s.setBundle k v).mbxs = s.mbxs := rfl
@[simp] theorem State.setBundle_locks (k : Nat) (v : BundleSt) : (s.setBundle k v).locks = s.locks := rfl
@[simp] theorem State.setBundle_fabs (k : Nat) (v : BundleSt) : (s.setBundle k v).fabs = s.fabs := rfl
@[simp] theorem State.setBundle_brg (k : Nat) (v : BundleSt) : (s.setBundle k v).brg = s.brg := rfl
@[simp] theorem State.setBundle_noc (k : Nat) (v : BundleSt) : (s.setBundle k v).noc = s.noc := rfl
@[simp] theorem State.setBundle_cfg (k : Nat) (v : BundleSt) : (s.setBundle k v).cfg = s.cfg := rfl
@[simp] theorem State.setBundle_nv (k : Nat) (v : BundleSt) : (s.setBundle k v).nv = s.nv := rfl
@[simp] theorem State.setBundle_flt (k : Nat) (v : BundleSt) : (s.setBundle k v).flt = s.flt := rfl
@[simp] theorem State.setBundle_cnt (k : Nat) (v : BundleSt) : (s.setBundle k v).cnt = s.cnt := rfl
@[simp] theorem State.setBundle_dbg (k : Nat) (v : BundleSt) : (s.setBundle k v).dbg = s.dbg := rfl
@[simp] theorem State.setBundle_capture (k : Nat) (v : BundleSt) : (s.setBundle k v).capture = s.capture := rfl
@[simp] theorem State.setBundle_hif (k : Nat) (v : BundleSt) : (s.setBundle k v).hif = s.hif := rfl
@[simp] theorem State.setBundle_gpio (k : Nat) (v : BundleSt) : (s.setBundle k v).gpio = s.gpio := rfl
@[simp] theorem State.setBundle_on (k : Nat) (v : BundleSt) (d : Nat) : (s.setBundle k v).on d = s.on d := rfl
@[simp] theorem State.setBundle_live (k : Nat) (v : BundleSt) (d : Nat) : (s.setBundle k v).live d = s.live d := rfl
@[simp] theorem State.setBundle_rd (k : Nat) (v : BundleSt) (n : RegName) (ix : List Nat) :
    (s.setBundle k v).rd n ix = s.rd n ix := rfl

-- State.setCfeLane

@[simp] theorem State.setCfeLane_pending (k : Nat) (v : CfeLane) : (s.setCfeLane k v).pending = s.pending := rfl
@[simp] theorem State.setCfeLane_freeCtr (k : Nat) (v : CfeLane) : (s.setCfeLane k v).freeCtr = s.freeCtr := rfl
@[simp] theorem State.setCfeLane_holdFor (k : Nat) (v : CfeLane) : (s.setCfeLane k v).holdFor = s.holdFor := rfl
@[simp] theorem State.setCfeLane_outbox (k : Nat) (v : CfeLane) : (s.setCfeLane k v).outbox = s.outbox := rfl
@[simp] theorem State.setCfeLane_regs (k : Nat) (v : CfeLane) : (s.setCfeLane k v).regs = s.regs := rfl
@[simp] theorem State.setCfeLane_heldLow (k : Nat) (v : CfeLane) : (s.setCfeLane k v).heldLow = s.heldLow := rfl
@[simp] theorem State.setCfeLane_latched (k : Nat) (v : CfeLane) : (s.setCfeLane k v).latched = s.latched := rfl
@[simp] theorem State.setCfeLane_mem (k : Nat) (v : CfeLane) : (s.setCfeLane k v).mem = s.mem := rfl
@[simp] theorem State.setCfeLane_tb (k : Nat) (v : CfeLane) : (s.setCfeLane k v).tb = s.tb := rfl
@[simp] theorem State.setCfeLane_clk (k : Nat) (v : CfeLane) : (s.setCfeLane k v).clk = s.clk := rfl
@[simp] theorem State.setCfeLane_pw (k : Nat) (v : CfeLane) : (s.setCfeLane k v).pw = s.pw := rfl
@[simp] theorem State.setCfeLane_rails (k : Nat) (v : CfeLane) : (s.setCfeLane k v).rails = s.rails := rfl
@[simp] theorem State.setCfeLane_su (k : Nat) (v : CfeLane) : (s.setCfeLane k v).su = s.su := rfl
@[simp] theorem State.setCfeLane_lanes (k : Nat) (v : CfeLane) : (s.setCfeLane k v).lanes = s.lanes := rfl
@[simp] theorem State.setCfeLane_bundles (k : Nat) (v : CfeLane) : (s.setCfeLane k v).bundles = s.bundles := rfl
@[simp] theorem State.setCfeLane_lsmActive (k : Nat) (v : CfeLane) : (s.setCfeLane k v).lsmActive = s.lsmActive := rfl
@[simp] theorem State.setCfeLane_board (k : Nat) (v : CfeLane) : (s.setCfeLane k v).board = s.board := rfl
@[simp] theorem State.setCfeLane_cfeLanes (k : Nat) (v : CfeLane) :
    (s.setCfeLane k v).cfeLanes = Tbl.set {} s.cfeLanes k v := rfl
@[simp] theorem State.setCfeLane_chans (k : Nat) (v : CfeLane) : (s.setCfeLane k v).chans = s.chans := rfl
@[simp] theorem State.setCfeLane_hitq (k : Nat) (v : CfeLane) : (s.setCfeLane k v).hitq = s.hitq := rfl
@[simp] theorem State.setCfeLane_wsus (k : Nat) (v : CfeLane) : (s.setCfeLane k v).wsus = s.wsus := rfl
@[simp] theorem State.setCfeLane_merge (k : Nat) (v : CfeLane) : (s.setCfeLane k v).merge = s.merge := rfl
@[simp] theorem State.setCfeLane_glint (k : Nat) (v : CfeLane) : (s.setCfeLane k v).glint = s.glint := rfl
@[simp] theorem State.setCfeLane_dbm (k : Nat) (v : CfeLane) : (s.setCfeLane k v).dbm = s.dbm := rfl
@[simp] theorem State.setCfeLane_sre (k : Nat) (v : CfeLane) : (s.setCfeLane k v).sre = s.sre := rfl
@[simp] theorem State.setCfeLane_cores (k : Nat) (v : CfeLane) : (s.setCfeLane k v).cores = s.cores := rfl
@[simp] theorem State.setCfeLane_clusters (k : Nat) (v : CfeLane) : (s.setCfeLane k v).clusters = s.clusters := rfl
@[simp] theorem State.setCfeLane_wdg (k : Nat) (v : CfeLane) : (s.setCfeLane k v).wdg = s.wdg := rfl
@[simp] theorem State.setCfeLane_scheds (k : Nat) (v : CfeLane) : (s.setCfeLane k v).scheds = s.scheds := rfl
@[simp] theorem State.setCfeLane_mbxs (k : Nat) (v : CfeLane) : (s.setCfeLane k v).mbxs = s.mbxs := rfl
@[simp] theorem State.setCfeLane_locks (k : Nat) (v : CfeLane) : (s.setCfeLane k v).locks = s.locks := rfl
@[simp] theorem State.setCfeLane_fabs (k : Nat) (v : CfeLane) : (s.setCfeLane k v).fabs = s.fabs := rfl
@[simp] theorem State.setCfeLane_brg (k : Nat) (v : CfeLane) : (s.setCfeLane k v).brg = s.brg := rfl
@[simp] theorem State.setCfeLane_noc (k : Nat) (v : CfeLane) : (s.setCfeLane k v).noc = s.noc := rfl
@[simp] theorem State.setCfeLane_cfg (k : Nat) (v : CfeLane) : (s.setCfeLane k v).cfg = s.cfg := rfl
@[simp] theorem State.setCfeLane_nv (k : Nat) (v : CfeLane) : (s.setCfeLane k v).nv = s.nv := rfl
@[simp] theorem State.setCfeLane_flt (k : Nat) (v : CfeLane) : (s.setCfeLane k v).flt = s.flt := rfl
@[simp] theorem State.setCfeLane_cnt (k : Nat) (v : CfeLane) : (s.setCfeLane k v).cnt = s.cnt := rfl
@[simp] theorem State.setCfeLane_dbg (k : Nat) (v : CfeLane) : (s.setCfeLane k v).dbg = s.dbg := rfl
@[simp] theorem State.setCfeLane_capture (k : Nat) (v : CfeLane) : (s.setCfeLane k v).capture = s.capture := rfl
@[simp] theorem State.setCfeLane_hif (k : Nat) (v : CfeLane) : (s.setCfeLane k v).hif = s.hif := rfl
@[simp] theorem State.setCfeLane_gpio (k : Nat) (v : CfeLane) : (s.setCfeLane k v).gpio = s.gpio := rfl
@[simp] theorem State.setCfeLane_on (k : Nat) (v : CfeLane) (d : Nat) : (s.setCfeLane k v).on d = s.on d := rfl
@[simp] theorem State.setCfeLane_live (k : Nat) (v : CfeLane) (d : Nat) : (s.setCfeLane k v).live d = s.live d := rfl
@[simp] theorem State.setCfeLane_rd (k : Nat) (v : CfeLane) (n : RegName) (ix : List Nat) :
    (s.setCfeLane k v).rd n ix = s.rd n ix := rfl

-- State.setChan

@[simp] theorem State.setChan_pending (k : Nat) (v : ChanSt) : (s.setChan k v).pending = s.pending := rfl
@[simp] theorem State.setChan_freeCtr (k : Nat) (v : ChanSt) : (s.setChan k v).freeCtr = s.freeCtr := rfl
@[simp] theorem State.setChan_holdFor (k : Nat) (v : ChanSt) : (s.setChan k v).holdFor = s.holdFor := rfl
@[simp] theorem State.setChan_outbox (k : Nat) (v : ChanSt) : (s.setChan k v).outbox = s.outbox := rfl
@[simp] theorem State.setChan_regs (k : Nat) (v : ChanSt) : (s.setChan k v).regs = s.regs := rfl
@[simp] theorem State.setChan_heldLow (k : Nat) (v : ChanSt) : (s.setChan k v).heldLow = s.heldLow := rfl
@[simp] theorem State.setChan_latched (k : Nat) (v : ChanSt) : (s.setChan k v).latched = s.latched := rfl
@[simp] theorem State.setChan_mem (k : Nat) (v : ChanSt) : (s.setChan k v).mem = s.mem := rfl
@[simp] theorem State.setChan_tb (k : Nat) (v : ChanSt) : (s.setChan k v).tb = s.tb := rfl
@[simp] theorem State.setChan_clk (k : Nat) (v : ChanSt) : (s.setChan k v).clk = s.clk := rfl
@[simp] theorem State.setChan_pw (k : Nat) (v : ChanSt) : (s.setChan k v).pw = s.pw := rfl
@[simp] theorem State.setChan_rails (k : Nat) (v : ChanSt) : (s.setChan k v).rails = s.rails := rfl
@[simp] theorem State.setChan_su (k : Nat) (v : ChanSt) : (s.setChan k v).su = s.su := rfl
@[simp] theorem State.setChan_lanes (k : Nat) (v : ChanSt) : (s.setChan k v).lanes = s.lanes := rfl
@[simp] theorem State.setChan_bundles (k : Nat) (v : ChanSt) : (s.setChan k v).bundles = s.bundles := rfl
@[simp] theorem State.setChan_lsmActive (k : Nat) (v : ChanSt) : (s.setChan k v).lsmActive = s.lsmActive := rfl
@[simp] theorem State.setChan_board (k : Nat) (v : ChanSt) : (s.setChan k v).board = s.board := rfl
@[simp] theorem State.setChan_cfeLanes (k : Nat) (v : ChanSt) : (s.setChan k v).cfeLanes = s.cfeLanes := rfl
@[simp] theorem State.setChan_chans (k : Nat) (v : ChanSt) : (s.setChan k v).chans = Tbl.set {} s.chans k v := rfl
@[simp] theorem State.setChan_hitq (k : Nat) (v : ChanSt) : (s.setChan k v).hitq = s.hitq := rfl
@[simp] theorem State.setChan_wsus (k : Nat) (v : ChanSt) : (s.setChan k v).wsus = s.wsus := rfl
@[simp] theorem State.setChan_merge (k : Nat) (v : ChanSt) : (s.setChan k v).merge = s.merge := rfl
@[simp] theorem State.setChan_glint (k : Nat) (v : ChanSt) : (s.setChan k v).glint = s.glint := rfl
@[simp] theorem State.setChan_dbm (k : Nat) (v : ChanSt) : (s.setChan k v).dbm = s.dbm := rfl
@[simp] theorem State.setChan_sre (k : Nat) (v : ChanSt) : (s.setChan k v).sre = s.sre := rfl
@[simp] theorem State.setChan_cores (k : Nat) (v : ChanSt) : (s.setChan k v).cores = s.cores := rfl
@[simp] theorem State.setChan_clusters (k : Nat) (v : ChanSt) : (s.setChan k v).clusters = s.clusters := rfl
@[simp] theorem State.setChan_wdg (k : Nat) (v : ChanSt) : (s.setChan k v).wdg = s.wdg := rfl
@[simp] theorem State.setChan_scheds (k : Nat) (v : ChanSt) : (s.setChan k v).scheds = s.scheds := rfl
@[simp] theorem State.setChan_mbxs (k : Nat) (v : ChanSt) : (s.setChan k v).mbxs = s.mbxs := rfl
@[simp] theorem State.setChan_locks (k : Nat) (v : ChanSt) : (s.setChan k v).locks = s.locks := rfl
@[simp] theorem State.setChan_fabs (k : Nat) (v : ChanSt) : (s.setChan k v).fabs = s.fabs := rfl
@[simp] theorem State.setChan_brg (k : Nat) (v : ChanSt) : (s.setChan k v).brg = s.brg := rfl
@[simp] theorem State.setChan_noc (k : Nat) (v : ChanSt) : (s.setChan k v).noc = s.noc := rfl
@[simp] theorem State.setChan_cfg (k : Nat) (v : ChanSt) : (s.setChan k v).cfg = s.cfg := rfl
@[simp] theorem State.setChan_nv (k : Nat) (v : ChanSt) : (s.setChan k v).nv = s.nv := rfl
@[simp] theorem State.setChan_flt (k : Nat) (v : ChanSt) : (s.setChan k v).flt = s.flt := rfl
@[simp] theorem State.setChan_cnt (k : Nat) (v : ChanSt) : (s.setChan k v).cnt = s.cnt := rfl
@[simp] theorem State.setChan_dbg (k : Nat) (v : ChanSt) : (s.setChan k v).dbg = s.dbg := rfl
@[simp] theorem State.setChan_capture (k : Nat) (v : ChanSt) : (s.setChan k v).capture = s.capture := rfl
@[simp] theorem State.setChan_hif (k : Nat) (v : ChanSt) : (s.setChan k v).hif = s.hif := rfl
@[simp] theorem State.setChan_gpio (k : Nat) (v : ChanSt) : (s.setChan k v).gpio = s.gpio := rfl
@[simp] theorem State.setChan_on (k : Nat) (v : ChanSt) (d : Nat) : (s.setChan k v).on d = s.on d := rfl
@[simp] theorem State.setChan_live (k : Nat) (v : ChanSt) (d : Nat) : (s.setChan k v).live d = s.live d := rfl
@[simp] theorem State.setChan_rd (k : Nat) (v : ChanSt) (n : RegName) (ix : List Nat) :
    (s.setChan k v).rd n ix = s.rd n ix := rfl

-- State.setHitQueue

@[simp] theorem State.setHitQueue_pending (k : Nat) (v : List HitRec) : (s.setHitQueue k v).pending = s.pending := rfl
@[simp] theorem State.setHitQueue_freeCtr (k : Nat) (v : List HitRec) : (s.setHitQueue k v).freeCtr = s.freeCtr := rfl
@[simp] theorem State.setHitQueue_holdFor (k : Nat) (v : List HitRec) : (s.setHitQueue k v).holdFor = s.holdFor := rfl
@[simp] theorem State.setHitQueue_outbox (k : Nat) (v : List HitRec) : (s.setHitQueue k v).outbox = s.outbox := rfl
@[simp] theorem State.setHitQueue_regs (k : Nat) (v : List HitRec) : (s.setHitQueue k v).regs = s.regs := rfl
@[simp] theorem State.setHitQueue_heldLow (k : Nat) (v : List HitRec) : (s.setHitQueue k v).heldLow = s.heldLow := rfl
@[simp] theorem State.setHitQueue_latched (k : Nat) (v : List HitRec) : (s.setHitQueue k v).latched = s.latched := rfl
@[simp] theorem State.setHitQueue_mem (k : Nat) (v : List HitRec) : (s.setHitQueue k v).mem = s.mem := rfl
@[simp] theorem State.setHitQueue_tb (k : Nat) (v : List HitRec) : (s.setHitQueue k v).tb = s.tb := rfl
@[simp] theorem State.setHitQueue_clk (k : Nat) (v : List HitRec) : (s.setHitQueue k v).clk = s.clk := rfl
@[simp] theorem State.setHitQueue_pw (k : Nat) (v : List HitRec) : (s.setHitQueue k v).pw = s.pw := rfl
@[simp] theorem State.setHitQueue_rails (k : Nat) (v : List HitRec) : (s.setHitQueue k v).rails = s.rails := rfl
@[simp] theorem State.setHitQueue_su (k : Nat) (v : List HitRec) : (s.setHitQueue k v).su = s.su := rfl
@[simp] theorem State.setHitQueue_lanes (k : Nat) (v : List HitRec) : (s.setHitQueue k v).lanes = s.lanes := rfl
@[simp] theorem State.setHitQueue_bundles (k : Nat) (v : List HitRec) : (s.setHitQueue k v).bundles = s.bundles := rfl
@[simp] theorem State.setHitQueue_lsmActive (k : Nat) (v : List HitRec) : (s.setHitQueue k v).lsmActive = s.lsmActive := rfl
@[simp] theorem State.setHitQueue_board (k : Nat) (v : List HitRec) : (s.setHitQueue k v).board = s.board := rfl
@[simp] theorem State.setHitQueue_cfeLanes (k : Nat) (v : List HitRec) : (s.setHitQueue k v).cfeLanes = s.cfeLanes := rfl
@[simp] theorem State.setHitQueue_chans (k : Nat) (v : List HitRec) : (s.setHitQueue k v).chans = s.chans := rfl
@[simp] theorem State.setHitQueue_hitq (k : Nat) (v : List HitRec) : (s.setHitQueue k v).hitq = Tbl.set [] s.hitq k v := rfl
@[simp] theorem State.setHitQueue_wsus (k : Nat) (v : List HitRec) : (s.setHitQueue k v).wsus = s.wsus := rfl
@[simp] theorem State.setHitQueue_merge (k : Nat) (v : List HitRec) : (s.setHitQueue k v).merge = s.merge := rfl
@[simp] theorem State.setHitQueue_glint (k : Nat) (v : List HitRec) : (s.setHitQueue k v).glint = s.glint := rfl
@[simp] theorem State.setHitQueue_dbm (k : Nat) (v : List HitRec) : (s.setHitQueue k v).dbm = s.dbm := rfl
@[simp] theorem State.setHitQueue_sre (k : Nat) (v : List HitRec) : (s.setHitQueue k v).sre = s.sre := rfl
@[simp] theorem State.setHitQueue_cores (k : Nat) (v : List HitRec) : (s.setHitQueue k v).cores = s.cores := rfl
@[simp] theorem State.setHitQueue_clusters (k : Nat) (v : List HitRec) : (s.setHitQueue k v).clusters = s.clusters := rfl
@[simp] theorem State.setHitQueue_wdg (k : Nat) (v : List HitRec) : (s.setHitQueue k v).wdg = s.wdg := rfl
@[simp] theorem State.setHitQueue_scheds (k : Nat) (v : List HitRec) : (s.setHitQueue k v).scheds = s.scheds := rfl
@[simp] theorem State.setHitQueue_mbxs (k : Nat) (v : List HitRec) : (s.setHitQueue k v).mbxs = s.mbxs := rfl
@[simp] theorem State.setHitQueue_locks (k : Nat) (v : List HitRec) : (s.setHitQueue k v).locks = s.locks := rfl
@[simp] theorem State.setHitQueue_fabs (k : Nat) (v : List HitRec) : (s.setHitQueue k v).fabs = s.fabs := rfl
@[simp] theorem State.setHitQueue_brg (k : Nat) (v : List HitRec) : (s.setHitQueue k v).brg = s.brg := rfl
@[simp] theorem State.setHitQueue_noc (k : Nat) (v : List HitRec) : (s.setHitQueue k v).noc = s.noc := rfl
@[simp] theorem State.setHitQueue_cfg (k : Nat) (v : List HitRec) : (s.setHitQueue k v).cfg = s.cfg := rfl
@[simp] theorem State.setHitQueue_nv (k : Nat) (v : List HitRec) : (s.setHitQueue k v).nv = s.nv := rfl
@[simp] theorem State.setHitQueue_flt (k : Nat) (v : List HitRec) : (s.setHitQueue k v).flt = s.flt := rfl
@[simp] theorem State.setHitQueue_cnt (k : Nat) (v : List HitRec) : (s.setHitQueue k v).cnt = s.cnt := rfl
@[simp] theorem State.setHitQueue_dbg (k : Nat) (v : List HitRec) : (s.setHitQueue k v).dbg = s.dbg := rfl
@[simp] theorem State.setHitQueue_capture (k : Nat) (v : List HitRec) : (s.setHitQueue k v).capture = s.capture := rfl
@[simp] theorem State.setHitQueue_hif (k : Nat) (v : List HitRec) : (s.setHitQueue k v).hif = s.hif := rfl
@[simp] theorem State.setHitQueue_gpio (k : Nat) (v : List HitRec) : (s.setHitQueue k v).gpio = s.gpio := rfl
@[simp] theorem State.setHitQueue_on (k : Nat) (v : List HitRec) (d : Nat) : (s.setHitQueue k v).on d = s.on d := rfl
@[simp] theorem State.setHitQueue_live (k : Nat) (v : List HitRec) (d : Nat) : (s.setHitQueue k v).live d = s.live d := rfl
@[simp] theorem State.setHitQueue_rd (k : Nat) (v : List HitRec) (n : RegName) (ix : List Nat) :
    (s.setHitQueue k v).rd n ix = s.rd n ix := rfl

-- State.setWsu

@[simp] theorem State.setWsu_pending (k : Nat) (v : Wsu) : (s.setWsu k v).pending = s.pending := rfl
@[simp] theorem State.setWsu_freeCtr (k : Nat) (v : Wsu) : (s.setWsu k v).freeCtr = s.freeCtr := rfl
@[simp] theorem State.setWsu_holdFor (k : Nat) (v : Wsu) : (s.setWsu k v).holdFor = s.holdFor := rfl
@[simp] theorem State.setWsu_outbox (k : Nat) (v : Wsu) : (s.setWsu k v).outbox = s.outbox := rfl
@[simp] theorem State.setWsu_regs (k : Nat) (v : Wsu) : (s.setWsu k v).regs = s.regs := rfl
@[simp] theorem State.setWsu_heldLow (k : Nat) (v : Wsu) : (s.setWsu k v).heldLow = s.heldLow := rfl
@[simp] theorem State.setWsu_latched (k : Nat) (v : Wsu) : (s.setWsu k v).latched = s.latched := rfl
@[simp] theorem State.setWsu_mem (k : Nat) (v : Wsu) : (s.setWsu k v).mem = s.mem := rfl
@[simp] theorem State.setWsu_tb (k : Nat) (v : Wsu) : (s.setWsu k v).tb = s.tb := rfl
@[simp] theorem State.setWsu_clk (k : Nat) (v : Wsu) : (s.setWsu k v).clk = s.clk := rfl
@[simp] theorem State.setWsu_pw (k : Nat) (v : Wsu) : (s.setWsu k v).pw = s.pw := rfl
@[simp] theorem State.setWsu_rails (k : Nat) (v : Wsu) : (s.setWsu k v).rails = s.rails := rfl
@[simp] theorem State.setWsu_su (k : Nat) (v : Wsu) : (s.setWsu k v).su = s.su := rfl
@[simp] theorem State.setWsu_lanes (k : Nat) (v : Wsu) : (s.setWsu k v).lanes = s.lanes := rfl
@[simp] theorem State.setWsu_bundles (k : Nat) (v : Wsu) : (s.setWsu k v).bundles = s.bundles := rfl
@[simp] theorem State.setWsu_lsmActive (k : Nat) (v : Wsu) : (s.setWsu k v).lsmActive = s.lsmActive := rfl
@[simp] theorem State.setWsu_board (k : Nat) (v : Wsu) : (s.setWsu k v).board = s.board := rfl
@[simp] theorem State.setWsu_cfeLanes (k : Nat) (v : Wsu) : (s.setWsu k v).cfeLanes = s.cfeLanes := rfl
@[simp] theorem State.setWsu_chans (k : Nat) (v : Wsu) : (s.setWsu k v).chans = s.chans := rfl
@[simp] theorem State.setWsu_hitq (k : Nat) (v : Wsu) : (s.setWsu k v).hitq = s.hitq := rfl
@[simp] theorem State.setWsu_wsus (k : Nat) (v : Wsu) : (s.setWsu k v).wsus = Tbl.set {} s.wsus k v := rfl
@[simp] theorem State.setWsu_merge (k : Nat) (v : Wsu) : (s.setWsu k v).merge = s.merge := rfl
@[simp] theorem State.setWsu_glint (k : Nat) (v : Wsu) : (s.setWsu k v).glint = s.glint := rfl
@[simp] theorem State.setWsu_dbm (k : Nat) (v : Wsu) : (s.setWsu k v).dbm = s.dbm := rfl
@[simp] theorem State.setWsu_sre (k : Nat) (v : Wsu) : (s.setWsu k v).sre = s.sre := rfl
@[simp] theorem State.setWsu_cores (k : Nat) (v : Wsu) : (s.setWsu k v).cores = s.cores := rfl
@[simp] theorem State.setWsu_clusters (k : Nat) (v : Wsu) : (s.setWsu k v).clusters = s.clusters := rfl
@[simp] theorem State.setWsu_wdg (k : Nat) (v : Wsu) : (s.setWsu k v).wdg = s.wdg := rfl
@[simp] theorem State.setWsu_scheds (k : Nat) (v : Wsu) : (s.setWsu k v).scheds = s.scheds := rfl
@[simp] theorem State.setWsu_mbxs (k : Nat) (v : Wsu) : (s.setWsu k v).mbxs = s.mbxs := rfl
@[simp] theorem State.setWsu_locks (k : Nat) (v : Wsu) : (s.setWsu k v).locks = s.locks := rfl
@[simp] theorem State.setWsu_fabs (k : Nat) (v : Wsu) : (s.setWsu k v).fabs = s.fabs := rfl
@[simp] theorem State.setWsu_brg (k : Nat) (v : Wsu) : (s.setWsu k v).brg = s.brg := rfl
@[simp] theorem State.setWsu_noc (k : Nat) (v : Wsu) : (s.setWsu k v).noc = s.noc := rfl
@[simp] theorem State.setWsu_cfg (k : Nat) (v : Wsu) : (s.setWsu k v).cfg = s.cfg := rfl
@[simp] theorem State.setWsu_nv (k : Nat) (v : Wsu) : (s.setWsu k v).nv = s.nv := rfl
@[simp] theorem State.setWsu_flt (k : Nat) (v : Wsu) : (s.setWsu k v).flt = s.flt := rfl
@[simp] theorem State.setWsu_cnt (k : Nat) (v : Wsu) : (s.setWsu k v).cnt = s.cnt := rfl
@[simp] theorem State.setWsu_dbg (k : Nat) (v : Wsu) : (s.setWsu k v).dbg = s.dbg := rfl
@[simp] theorem State.setWsu_capture (k : Nat) (v : Wsu) : (s.setWsu k v).capture = s.capture := rfl
@[simp] theorem State.setWsu_hif (k : Nat) (v : Wsu) : (s.setWsu k v).hif = s.hif := rfl
@[simp] theorem State.setWsu_gpio (k : Nat) (v : Wsu) : (s.setWsu k v).gpio = s.gpio := rfl
@[simp] theorem State.setWsu_on (k : Nat) (v : Wsu) (d : Nat) : (s.setWsu k v).on d = s.on d := rfl
@[simp] theorem State.setWsu_live (k : Nat) (v : Wsu) (d : Nat) : (s.setWsu k v).live d = s.live d := rfl
@[simp] theorem State.setWsu_rd (k : Nat) (v : Wsu) (n : RegName) (ix : List Nat) : (s.setWsu k v).rd n ix = s.rd n ix := rfl

-- State.setSlot

@[simp] theorem State.setSlot_pending (k : Nat) (v : GlintSlot) : (s.setSlot k v).pending = s.pending := rfl
@[simp] theorem State.setSlot_freeCtr (k : Nat) (v : GlintSlot) : (s.setSlot k v).freeCtr = s.freeCtr := rfl
@[simp] theorem State.setSlot_holdFor (k : Nat) (v : GlintSlot) : (s.setSlot k v).holdFor = s.holdFor := rfl
@[simp] theorem State.setSlot_outbox (k : Nat) (v : GlintSlot) : (s.setSlot k v).outbox = s.outbox := rfl
@[simp] theorem State.setSlot_regs (k : Nat) (v : GlintSlot) : (s.setSlot k v).regs = s.regs := rfl
@[simp] theorem State.setSlot_heldLow (k : Nat) (v : GlintSlot) : (s.setSlot k v).heldLow = s.heldLow := rfl
@[simp] theorem State.setSlot_latched (k : Nat) (v : GlintSlot) : (s.setSlot k v).latched = s.latched := rfl
@[simp] theorem State.setSlot_mem (k : Nat) (v : GlintSlot) : (s.setSlot k v).mem = s.mem := rfl
@[simp] theorem State.setSlot_tb (k : Nat) (v : GlintSlot) : (s.setSlot k v).tb = s.tb := rfl
@[simp] theorem State.setSlot_clk (k : Nat) (v : GlintSlot) : (s.setSlot k v).clk = s.clk := rfl
@[simp] theorem State.setSlot_pw (k : Nat) (v : GlintSlot) : (s.setSlot k v).pw = s.pw := rfl
@[simp] theorem State.setSlot_rails (k : Nat) (v : GlintSlot) : (s.setSlot k v).rails = s.rails := rfl
@[simp] theorem State.setSlot_su (k : Nat) (v : GlintSlot) : (s.setSlot k v).su = s.su := rfl
@[simp] theorem State.setSlot_lanes (k : Nat) (v : GlintSlot) : (s.setSlot k v).lanes = s.lanes := rfl
@[simp] theorem State.setSlot_bundles (k : Nat) (v : GlintSlot) : (s.setSlot k v).bundles = s.bundles := rfl
@[simp] theorem State.setSlot_lsmActive (k : Nat) (v : GlintSlot) : (s.setSlot k v).lsmActive = s.lsmActive := rfl
@[simp] theorem State.setSlot_board (k : Nat) (v : GlintSlot) : (s.setSlot k v).board = s.board := rfl
@[simp] theorem State.setSlot_cfeLanes (k : Nat) (v : GlintSlot) : (s.setSlot k v).cfeLanes = s.cfeLanes := rfl
@[simp] theorem State.setSlot_chans (k : Nat) (v : GlintSlot) : (s.setSlot k v).chans = s.chans := rfl
@[simp] theorem State.setSlot_hitq (k : Nat) (v : GlintSlot) : (s.setSlot k v).hitq = s.hitq := rfl
@[simp] theorem State.setSlot_wsus (k : Nat) (v : GlintSlot) : (s.setSlot k v).wsus = s.wsus := rfl
@[simp] theorem State.setSlot_merge (k : Nat) (v : GlintSlot) : (s.setSlot k v).merge = s.merge := rfl
@[simp] theorem State.setSlot_glint (k : Nat) (v : GlintSlot) :
    (s.setSlot k v).glint = { s.glint with slots := Tbl.set {} s.glint.slots k v } := rfl
@[simp] theorem State.setSlot_dbm (k : Nat) (v : GlintSlot) : (s.setSlot k v).dbm = s.dbm := rfl
@[simp] theorem State.setSlot_sre (k : Nat) (v : GlintSlot) : (s.setSlot k v).sre = s.sre := rfl
@[simp] theorem State.setSlot_cores (k : Nat) (v : GlintSlot) : (s.setSlot k v).cores = s.cores := rfl
@[simp] theorem State.setSlot_clusters (k : Nat) (v : GlintSlot) : (s.setSlot k v).clusters = s.clusters := rfl
@[simp] theorem State.setSlot_wdg (k : Nat) (v : GlintSlot) : (s.setSlot k v).wdg = s.wdg := rfl
@[simp] theorem State.setSlot_scheds (k : Nat) (v : GlintSlot) : (s.setSlot k v).scheds = s.scheds := rfl
@[simp] theorem State.setSlot_mbxs (k : Nat) (v : GlintSlot) : (s.setSlot k v).mbxs = s.mbxs := rfl
@[simp] theorem State.setSlot_locks (k : Nat) (v : GlintSlot) : (s.setSlot k v).locks = s.locks := rfl
@[simp] theorem State.setSlot_fabs (k : Nat) (v : GlintSlot) : (s.setSlot k v).fabs = s.fabs := rfl
@[simp] theorem State.setSlot_brg (k : Nat) (v : GlintSlot) : (s.setSlot k v).brg = s.brg := rfl
@[simp] theorem State.setSlot_noc (k : Nat) (v : GlintSlot) : (s.setSlot k v).noc = s.noc := rfl
@[simp] theorem State.setSlot_cfg (k : Nat) (v : GlintSlot) : (s.setSlot k v).cfg = s.cfg := rfl
@[simp] theorem State.setSlot_nv (k : Nat) (v : GlintSlot) : (s.setSlot k v).nv = s.nv := rfl
@[simp] theorem State.setSlot_flt (k : Nat) (v : GlintSlot) : (s.setSlot k v).flt = s.flt := rfl
@[simp] theorem State.setSlot_cnt (k : Nat) (v : GlintSlot) : (s.setSlot k v).cnt = s.cnt := rfl
@[simp] theorem State.setSlot_dbg (k : Nat) (v : GlintSlot) : (s.setSlot k v).dbg = s.dbg := rfl
@[simp] theorem State.setSlot_capture (k : Nat) (v : GlintSlot) : (s.setSlot k v).capture = s.capture := rfl
@[simp] theorem State.setSlot_hif (k : Nat) (v : GlintSlot) : (s.setSlot k v).hif = s.hif := rfl
@[simp] theorem State.setSlot_gpio (k : Nat) (v : GlintSlot) : (s.setSlot k v).gpio = s.gpio := rfl
@[simp] theorem State.setSlot_on (k : Nat) (v : GlintSlot) (d : Nat) : (s.setSlot k v).on d = s.on d := rfl
@[simp] theorem State.setSlot_live (k : Nat) (v : GlintSlot) (d : Nat) : (s.setSlot k v).live d = s.live d := rfl
@[simp] theorem State.setSlot_rd (k : Nat) (v : GlintSlot) (n : RegName) (ix : List Nat) :
    (s.setSlot k v).rd n ix = s.rd n ix := rfl

-- State.setRings

@[simp] theorem State.setRings_pending (k : Nat) (v : DieRings) : (s.setRings k v).pending = s.pending := rfl
@[simp] theorem State.setRings_freeCtr (k : Nat) (v : DieRings) : (s.setRings k v).freeCtr = s.freeCtr := rfl
@[simp] theorem State.setRings_holdFor (k : Nat) (v : DieRings) : (s.setRings k v).holdFor = s.holdFor := rfl
@[simp] theorem State.setRings_outbox (k : Nat) (v : DieRings) : (s.setRings k v).outbox = s.outbox := rfl
@[simp] theorem State.setRings_regs (k : Nat) (v : DieRings) : (s.setRings k v).regs = s.regs := rfl
@[simp] theorem State.setRings_heldLow (k : Nat) (v : DieRings) : (s.setRings k v).heldLow = s.heldLow := rfl
@[simp] theorem State.setRings_latched (k : Nat) (v : DieRings) : (s.setRings k v).latched = s.latched := rfl
@[simp] theorem State.setRings_mem (k : Nat) (v : DieRings) : (s.setRings k v).mem = s.mem := rfl
@[simp] theorem State.setRings_tb (k : Nat) (v : DieRings) : (s.setRings k v).tb = s.tb := rfl
@[simp] theorem State.setRings_clk (k : Nat) (v : DieRings) : (s.setRings k v).clk = s.clk := rfl
@[simp] theorem State.setRings_pw (k : Nat) (v : DieRings) : (s.setRings k v).pw = s.pw := rfl
@[simp] theorem State.setRings_rails (k : Nat) (v : DieRings) : (s.setRings k v).rails = s.rails := rfl
@[simp] theorem State.setRings_su (k : Nat) (v : DieRings) : (s.setRings k v).su = s.su := rfl
@[simp] theorem State.setRings_lanes (k : Nat) (v : DieRings) : (s.setRings k v).lanes = s.lanes := rfl
@[simp] theorem State.setRings_bundles (k : Nat) (v : DieRings) : (s.setRings k v).bundles = s.bundles := rfl
@[simp] theorem State.setRings_lsmActive (k : Nat) (v : DieRings) : (s.setRings k v).lsmActive = s.lsmActive := rfl
@[simp] theorem State.setRings_board (k : Nat) (v : DieRings) : (s.setRings k v).board = s.board := rfl
@[simp] theorem State.setRings_cfeLanes (k : Nat) (v : DieRings) : (s.setRings k v).cfeLanes = s.cfeLanes := rfl
@[simp] theorem State.setRings_chans (k : Nat) (v : DieRings) : (s.setRings k v).chans = s.chans := rfl
@[simp] theorem State.setRings_hitq (k : Nat) (v : DieRings) : (s.setRings k v).hitq = s.hitq := rfl
@[simp] theorem State.setRings_wsus (k : Nat) (v : DieRings) : (s.setRings k v).wsus = s.wsus := rfl
@[simp] theorem State.setRings_merge (k : Nat) (v : DieRings) : (s.setRings k v).merge = s.merge := rfl
@[simp] theorem State.setRings_glint (k : Nat) (v : DieRings) : (s.setRings k v).glint = s.glint := rfl
@[simp] theorem State.setRings_dbm (k : Nat) (v : DieRings) :
    (s.setRings k v).dbm = { s.dbm with rings := Tbl.set {} s.dbm.rings k v } := rfl
@[simp] theorem State.setRings_sre (k : Nat) (v : DieRings) : (s.setRings k v).sre = s.sre := rfl
@[simp] theorem State.setRings_cores (k : Nat) (v : DieRings) : (s.setRings k v).cores = s.cores := rfl
@[simp] theorem State.setRings_clusters (k : Nat) (v : DieRings) : (s.setRings k v).clusters = s.clusters := rfl
@[simp] theorem State.setRings_wdg (k : Nat) (v : DieRings) : (s.setRings k v).wdg = s.wdg := rfl
@[simp] theorem State.setRings_scheds (k : Nat) (v : DieRings) : (s.setRings k v).scheds = s.scheds := rfl
@[simp] theorem State.setRings_mbxs (k : Nat) (v : DieRings) : (s.setRings k v).mbxs = s.mbxs := rfl
@[simp] theorem State.setRings_locks (k : Nat) (v : DieRings) : (s.setRings k v).locks = s.locks := rfl
@[simp] theorem State.setRings_fabs (k : Nat) (v : DieRings) : (s.setRings k v).fabs = s.fabs := rfl
@[simp] theorem State.setRings_brg (k : Nat) (v : DieRings) : (s.setRings k v).brg = s.brg := rfl
@[simp] theorem State.setRings_noc (k : Nat) (v : DieRings) : (s.setRings k v).noc = s.noc := rfl
@[simp] theorem State.setRings_cfg (k : Nat) (v : DieRings) : (s.setRings k v).cfg = s.cfg := rfl
@[simp] theorem State.setRings_nv (k : Nat) (v : DieRings) : (s.setRings k v).nv = s.nv := rfl
@[simp] theorem State.setRings_flt (k : Nat) (v : DieRings) : (s.setRings k v).flt = s.flt := rfl
@[simp] theorem State.setRings_cnt (k : Nat) (v : DieRings) : (s.setRings k v).cnt = s.cnt := rfl
@[simp] theorem State.setRings_dbg (k : Nat) (v : DieRings) : (s.setRings k v).dbg = s.dbg := rfl
@[simp] theorem State.setRings_capture (k : Nat) (v : DieRings) : (s.setRings k v).capture = s.capture := rfl
@[simp] theorem State.setRings_hif (k : Nat) (v : DieRings) : (s.setRings k v).hif = s.hif := rfl
@[simp] theorem State.setRings_gpio (k : Nat) (v : DieRings) : (s.setRings k v).gpio = s.gpio := rfl
@[simp] theorem State.setRings_on (k : Nat) (v : DieRings) (d : Nat) : (s.setRings k v).on d = s.on d := rfl
@[simp] theorem State.setRings_live (k : Nat) (v : DieRings) (d : Nat) : (s.setRings k v).live d = s.live d := rfl
@[simp] theorem State.setRings_rd (k : Nat) (v : DieRings) (n : RegName) (ix : List Nat) :
    (s.setRings k v).rd n ix = s.rd n ix := rfl

-- State.setCore

@[simp] theorem State.setCore_pending (k : Nat) (v : CoreSt) : (s.setCore k v).pending = s.pending := rfl
@[simp] theorem State.setCore_freeCtr (k : Nat) (v : CoreSt) : (s.setCore k v).freeCtr = s.freeCtr := rfl
@[simp] theorem State.setCore_holdFor (k : Nat) (v : CoreSt) : (s.setCore k v).holdFor = s.holdFor := rfl
@[simp] theorem State.setCore_outbox (k : Nat) (v : CoreSt) : (s.setCore k v).outbox = s.outbox := rfl
@[simp] theorem State.setCore_regs (k : Nat) (v : CoreSt) : (s.setCore k v).regs = s.regs := rfl
@[simp] theorem State.setCore_heldLow (k : Nat) (v : CoreSt) : (s.setCore k v).heldLow = s.heldLow := rfl
@[simp] theorem State.setCore_latched (k : Nat) (v : CoreSt) : (s.setCore k v).latched = s.latched := rfl
@[simp] theorem State.setCore_mem (k : Nat) (v : CoreSt) : (s.setCore k v).mem = s.mem := rfl
@[simp] theorem State.setCore_tb (k : Nat) (v : CoreSt) : (s.setCore k v).tb = s.tb := rfl
@[simp] theorem State.setCore_clk (k : Nat) (v : CoreSt) : (s.setCore k v).clk = s.clk := rfl
@[simp] theorem State.setCore_pw (k : Nat) (v : CoreSt) : (s.setCore k v).pw = s.pw := rfl
@[simp] theorem State.setCore_rails (k : Nat) (v : CoreSt) : (s.setCore k v).rails = s.rails := rfl
@[simp] theorem State.setCore_su (k : Nat) (v : CoreSt) : (s.setCore k v).su = s.su := rfl
@[simp] theorem State.setCore_lanes (k : Nat) (v : CoreSt) : (s.setCore k v).lanes = s.lanes := rfl
@[simp] theorem State.setCore_bundles (k : Nat) (v : CoreSt) : (s.setCore k v).bundles = s.bundles := rfl
@[simp] theorem State.setCore_lsmActive (k : Nat) (v : CoreSt) : (s.setCore k v).lsmActive = s.lsmActive := rfl
@[simp] theorem State.setCore_board (k : Nat) (v : CoreSt) : (s.setCore k v).board = s.board := rfl
@[simp] theorem State.setCore_cfeLanes (k : Nat) (v : CoreSt) : (s.setCore k v).cfeLanes = s.cfeLanes := rfl
@[simp] theorem State.setCore_chans (k : Nat) (v : CoreSt) : (s.setCore k v).chans = s.chans := rfl
@[simp] theorem State.setCore_hitq (k : Nat) (v : CoreSt) : (s.setCore k v).hitq = s.hitq := rfl
@[simp] theorem State.setCore_wsus (k : Nat) (v : CoreSt) : (s.setCore k v).wsus = s.wsus := rfl
@[simp] theorem State.setCore_merge (k : Nat) (v : CoreSt) : (s.setCore k v).merge = s.merge := rfl
@[simp] theorem State.setCore_glint (k : Nat) (v : CoreSt) : (s.setCore k v).glint = s.glint := rfl
@[simp] theorem State.setCore_dbm (k : Nat) (v : CoreSt) : (s.setCore k v).dbm = s.dbm := rfl
@[simp] theorem State.setCore_sre (k : Nat) (v : CoreSt) : (s.setCore k v).sre = s.sre := rfl
@[simp] theorem State.setCore_cores (k : Nat) (v : CoreSt) : (s.setCore k v).cores = Tbl.set {} s.cores k v := rfl
@[simp] theorem State.setCore_clusters (k : Nat) (v : CoreSt) : (s.setCore k v).clusters = s.clusters := rfl
@[simp] theorem State.setCore_wdg (k : Nat) (v : CoreSt) : (s.setCore k v).wdg = s.wdg := rfl
@[simp] theorem State.setCore_scheds (k : Nat) (v : CoreSt) : (s.setCore k v).scheds = s.scheds := rfl
@[simp] theorem State.setCore_mbxs (k : Nat) (v : CoreSt) : (s.setCore k v).mbxs = s.mbxs := rfl
@[simp] theorem State.setCore_locks (k : Nat) (v : CoreSt) : (s.setCore k v).locks = s.locks := rfl
@[simp] theorem State.setCore_fabs (k : Nat) (v : CoreSt) : (s.setCore k v).fabs = s.fabs := rfl
@[simp] theorem State.setCore_brg (k : Nat) (v : CoreSt) : (s.setCore k v).brg = s.brg := rfl
@[simp] theorem State.setCore_noc (k : Nat) (v : CoreSt) : (s.setCore k v).noc = s.noc := rfl
@[simp] theorem State.setCore_cfg (k : Nat) (v : CoreSt) : (s.setCore k v).cfg = s.cfg := rfl
@[simp] theorem State.setCore_nv (k : Nat) (v : CoreSt) : (s.setCore k v).nv = s.nv := rfl
@[simp] theorem State.setCore_flt (k : Nat) (v : CoreSt) : (s.setCore k v).flt = s.flt := rfl
@[simp] theorem State.setCore_cnt (k : Nat) (v : CoreSt) : (s.setCore k v).cnt = s.cnt := rfl
@[simp] theorem State.setCore_dbg (k : Nat) (v : CoreSt) : (s.setCore k v).dbg = s.dbg := rfl
@[simp] theorem State.setCore_capture (k : Nat) (v : CoreSt) : (s.setCore k v).capture = s.capture := rfl
@[simp] theorem State.setCore_hif (k : Nat) (v : CoreSt) : (s.setCore k v).hif = s.hif := rfl
@[simp] theorem State.setCore_gpio (k : Nat) (v : CoreSt) : (s.setCore k v).gpio = s.gpio := rfl
@[simp] theorem State.setCore_on (k : Nat) (v : CoreSt) (d : Nat) : (s.setCore k v).on d = s.on d := rfl
@[simp] theorem State.setCore_live (k : Nat) (v : CoreSt) (d : Nat) : (s.setCore k v).live d = s.live d := rfl
@[simp] theorem State.setCore_rd (k : Nat) (v : CoreSt) (n : RegName) (ix : List Nat) :
    (s.setCore k v).rd n ix = s.rd n ix := rfl

-- State.setCluster

@[simp] theorem State.setCluster_pending (k : Nat) (v : ClusterSt) : (s.setCluster k v).pending = s.pending := rfl
@[simp] theorem State.setCluster_freeCtr (k : Nat) (v : ClusterSt) : (s.setCluster k v).freeCtr = s.freeCtr := rfl
@[simp] theorem State.setCluster_holdFor (k : Nat) (v : ClusterSt) : (s.setCluster k v).holdFor = s.holdFor := rfl
@[simp] theorem State.setCluster_outbox (k : Nat) (v : ClusterSt) : (s.setCluster k v).outbox = s.outbox := rfl
@[simp] theorem State.setCluster_regs (k : Nat) (v : ClusterSt) : (s.setCluster k v).regs = s.regs := rfl
@[simp] theorem State.setCluster_heldLow (k : Nat) (v : ClusterSt) : (s.setCluster k v).heldLow = s.heldLow := rfl
@[simp] theorem State.setCluster_latched (k : Nat) (v : ClusterSt) : (s.setCluster k v).latched = s.latched := rfl
@[simp] theorem State.setCluster_mem (k : Nat) (v : ClusterSt) : (s.setCluster k v).mem = s.mem := rfl
@[simp] theorem State.setCluster_tb (k : Nat) (v : ClusterSt) : (s.setCluster k v).tb = s.tb := rfl
@[simp] theorem State.setCluster_clk (k : Nat) (v : ClusterSt) : (s.setCluster k v).clk = s.clk := rfl
@[simp] theorem State.setCluster_pw (k : Nat) (v : ClusterSt) : (s.setCluster k v).pw = s.pw := rfl
@[simp] theorem State.setCluster_rails (k : Nat) (v : ClusterSt) : (s.setCluster k v).rails = s.rails := rfl
@[simp] theorem State.setCluster_su (k : Nat) (v : ClusterSt) : (s.setCluster k v).su = s.su := rfl
@[simp] theorem State.setCluster_lanes (k : Nat) (v : ClusterSt) : (s.setCluster k v).lanes = s.lanes := rfl
@[simp] theorem State.setCluster_bundles (k : Nat) (v : ClusterSt) : (s.setCluster k v).bundles = s.bundles := rfl
@[simp] theorem State.setCluster_lsmActive (k : Nat) (v : ClusterSt) : (s.setCluster k v).lsmActive = s.lsmActive := rfl
@[simp] theorem State.setCluster_board (k : Nat) (v : ClusterSt) : (s.setCluster k v).board = s.board := rfl
@[simp] theorem State.setCluster_cfeLanes (k : Nat) (v : ClusterSt) : (s.setCluster k v).cfeLanes = s.cfeLanes := rfl
@[simp] theorem State.setCluster_chans (k : Nat) (v : ClusterSt) : (s.setCluster k v).chans = s.chans := rfl
@[simp] theorem State.setCluster_hitq (k : Nat) (v : ClusterSt) : (s.setCluster k v).hitq = s.hitq := rfl
@[simp] theorem State.setCluster_wsus (k : Nat) (v : ClusterSt) : (s.setCluster k v).wsus = s.wsus := rfl
@[simp] theorem State.setCluster_merge (k : Nat) (v : ClusterSt) : (s.setCluster k v).merge = s.merge := rfl
@[simp] theorem State.setCluster_glint (k : Nat) (v : ClusterSt) : (s.setCluster k v).glint = s.glint := rfl
@[simp] theorem State.setCluster_dbm (k : Nat) (v : ClusterSt) : (s.setCluster k v).dbm = s.dbm := rfl
@[simp] theorem State.setCluster_sre (k : Nat) (v : ClusterSt) : (s.setCluster k v).sre = s.sre := rfl
@[simp] theorem State.setCluster_cores (k : Nat) (v : ClusterSt) : (s.setCluster k v).cores = s.cores := rfl
@[simp] theorem State.setCluster_clusters (k : Nat) (v : ClusterSt) :
    (s.setCluster k v).clusters = Tbl.set {} s.clusters k v := rfl
@[simp] theorem State.setCluster_wdg (k : Nat) (v : ClusterSt) : (s.setCluster k v).wdg = s.wdg := rfl
@[simp] theorem State.setCluster_scheds (k : Nat) (v : ClusterSt) : (s.setCluster k v).scheds = s.scheds := rfl
@[simp] theorem State.setCluster_mbxs (k : Nat) (v : ClusterSt) : (s.setCluster k v).mbxs = s.mbxs := rfl
@[simp] theorem State.setCluster_locks (k : Nat) (v : ClusterSt) : (s.setCluster k v).locks = s.locks := rfl
@[simp] theorem State.setCluster_fabs (k : Nat) (v : ClusterSt) : (s.setCluster k v).fabs = s.fabs := rfl
@[simp] theorem State.setCluster_brg (k : Nat) (v : ClusterSt) : (s.setCluster k v).brg = s.brg := rfl
@[simp] theorem State.setCluster_noc (k : Nat) (v : ClusterSt) : (s.setCluster k v).noc = s.noc := rfl
@[simp] theorem State.setCluster_cfg (k : Nat) (v : ClusterSt) : (s.setCluster k v).cfg = s.cfg := rfl
@[simp] theorem State.setCluster_nv (k : Nat) (v : ClusterSt) : (s.setCluster k v).nv = s.nv := rfl
@[simp] theorem State.setCluster_flt (k : Nat) (v : ClusterSt) : (s.setCluster k v).flt = s.flt := rfl
@[simp] theorem State.setCluster_cnt (k : Nat) (v : ClusterSt) : (s.setCluster k v).cnt = s.cnt := rfl
@[simp] theorem State.setCluster_dbg (k : Nat) (v : ClusterSt) : (s.setCluster k v).dbg = s.dbg := rfl
@[simp] theorem State.setCluster_capture (k : Nat) (v : ClusterSt) : (s.setCluster k v).capture = s.capture := rfl
@[simp] theorem State.setCluster_hif (k : Nat) (v : ClusterSt) : (s.setCluster k v).hif = s.hif := rfl
@[simp] theorem State.setCluster_gpio (k : Nat) (v : ClusterSt) : (s.setCluster k v).gpio = s.gpio := rfl
@[simp] theorem State.setCluster_on (k : Nat) (v : ClusterSt) (d : Nat) : (s.setCluster k v).on d = s.on d := rfl
@[simp] theorem State.setCluster_live (k : Nat) (v : ClusterSt) (d : Nat) : (s.setCluster k v).live d = s.live d := rfl
@[simp] theorem State.setCluster_rd (k : Nat) (v : ClusterSt) (n : RegName) (ix : List Nat) :
    (s.setCluster k v).rd n ix = s.rd n ix := rfl

-- State.setSched

@[simp] theorem State.setSched_pending (k : Nat) (v : Sched) : (s.setSched k v).pending = s.pending := rfl
@[simp] theorem State.setSched_freeCtr (k : Nat) (v : Sched) : (s.setSched k v).freeCtr = s.freeCtr := rfl
@[simp] theorem State.setSched_holdFor (k : Nat) (v : Sched) : (s.setSched k v).holdFor = s.holdFor := rfl
@[simp] theorem State.setSched_outbox (k : Nat) (v : Sched) : (s.setSched k v).outbox = s.outbox := rfl
@[simp] theorem State.setSched_regs (k : Nat) (v : Sched) : (s.setSched k v).regs = s.regs := rfl
@[simp] theorem State.setSched_heldLow (k : Nat) (v : Sched) : (s.setSched k v).heldLow = s.heldLow := rfl
@[simp] theorem State.setSched_latched (k : Nat) (v : Sched) : (s.setSched k v).latched = s.latched := rfl
@[simp] theorem State.setSched_mem (k : Nat) (v : Sched) : (s.setSched k v).mem = s.mem := rfl
@[simp] theorem State.setSched_tb (k : Nat) (v : Sched) : (s.setSched k v).tb = s.tb := rfl
@[simp] theorem State.setSched_clk (k : Nat) (v : Sched) : (s.setSched k v).clk = s.clk := rfl
@[simp] theorem State.setSched_pw (k : Nat) (v : Sched) : (s.setSched k v).pw = s.pw := rfl
@[simp] theorem State.setSched_rails (k : Nat) (v : Sched) : (s.setSched k v).rails = s.rails := rfl
@[simp] theorem State.setSched_su (k : Nat) (v : Sched) : (s.setSched k v).su = s.su := rfl
@[simp] theorem State.setSched_lanes (k : Nat) (v : Sched) : (s.setSched k v).lanes = s.lanes := rfl
@[simp] theorem State.setSched_bundles (k : Nat) (v : Sched) : (s.setSched k v).bundles = s.bundles := rfl
@[simp] theorem State.setSched_lsmActive (k : Nat) (v : Sched) : (s.setSched k v).lsmActive = s.lsmActive := rfl
@[simp] theorem State.setSched_board (k : Nat) (v : Sched) : (s.setSched k v).board = s.board := rfl
@[simp] theorem State.setSched_cfeLanes (k : Nat) (v : Sched) : (s.setSched k v).cfeLanes = s.cfeLanes := rfl
@[simp] theorem State.setSched_chans (k : Nat) (v : Sched) : (s.setSched k v).chans = s.chans := rfl
@[simp] theorem State.setSched_hitq (k : Nat) (v : Sched) : (s.setSched k v).hitq = s.hitq := rfl
@[simp] theorem State.setSched_wsus (k : Nat) (v : Sched) : (s.setSched k v).wsus = s.wsus := rfl
@[simp] theorem State.setSched_merge (k : Nat) (v : Sched) : (s.setSched k v).merge = s.merge := rfl
@[simp] theorem State.setSched_glint (k : Nat) (v : Sched) : (s.setSched k v).glint = s.glint := rfl
@[simp] theorem State.setSched_dbm (k : Nat) (v : Sched) : (s.setSched k v).dbm = s.dbm := rfl
@[simp] theorem State.setSched_sre (k : Nat) (v : Sched) : (s.setSched k v).sre = s.sre := rfl
@[simp] theorem State.setSched_cores (k : Nat) (v : Sched) : (s.setSched k v).cores = s.cores := rfl
@[simp] theorem State.setSched_clusters (k : Nat) (v : Sched) : (s.setSched k v).clusters = s.clusters := rfl
@[simp] theorem State.setSched_wdg (k : Nat) (v : Sched) : (s.setSched k v).wdg = s.wdg := rfl
@[simp] theorem State.setSched_scheds (k : Nat) (v : Sched) : (s.setSched k v).scheds = Tbl.set {} s.scheds k v := rfl
@[simp] theorem State.setSched_mbxs (k : Nat) (v : Sched) : (s.setSched k v).mbxs = s.mbxs := rfl
@[simp] theorem State.setSched_locks (k : Nat) (v : Sched) : (s.setSched k v).locks = s.locks := rfl
@[simp] theorem State.setSched_fabs (k : Nat) (v : Sched) : (s.setSched k v).fabs = s.fabs := rfl
@[simp] theorem State.setSched_brg (k : Nat) (v : Sched) : (s.setSched k v).brg = s.brg := rfl
@[simp] theorem State.setSched_noc (k : Nat) (v : Sched) : (s.setSched k v).noc = s.noc := rfl
@[simp] theorem State.setSched_cfg (k : Nat) (v : Sched) : (s.setSched k v).cfg = s.cfg := rfl
@[simp] theorem State.setSched_nv (k : Nat) (v : Sched) : (s.setSched k v).nv = s.nv := rfl
@[simp] theorem State.setSched_flt (k : Nat) (v : Sched) : (s.setSched k v).flt = s.flt := rfl
@[simp] theorem State.setSched_cnt (k : Nat) (v : Sched) : (s.setSched k v).cnt = s.cnt := rfl
@[simp] theorem State.setSched_dbg (k : Nat) (v : Sched) : (s.setSched k v).dbg = s.dbg := rfl
@[simp] theorem State.setSched_capture (k : Nat) (v : Sched) : (s.setSched k v).capture = s.capture := rfl
@[simp] theorem State.setSched_hif (k : Nat) (v : Sched) : (s.setSched k v).hif = s.hif := rfl
@[simp] theorem State.setSched_gpio (k : Nat) (v : Sched) : (s.setSched k v).gpio = s.gpio := rfl
@[simp] theorem State.setSched_on (k : Nat) (v : Sched) (d : Nat) : (s.setSched k v).on d = s.on d := rfl
@[simp] theorem State.setSched_live (k : Nat) (v : Sched) (d : Nat) : (s.setSched k v).live d = s.live d := rfl
@[simp] theorem State.setSched_rd (k : Nat) (v : Sched) (n : RegName) (ix : List Nat) :
    (s.setSched k v).rd n ix = s.rd n ix := rfl

-- State.setFab

@[simp] theorem State.setFab_pending (k : Nat) (v : Fabric) : (s.setFab k v).pending = s.pending := rfl
@[simp] theorem State.setFab_freeCtr (k : Nat) (v : Fabric) : (s.setFab k v).freeCtr = s.freeCtr := rfl
@[simp] theorem State.setFab_holdFor (k : Nat) (v : Fabric) : (s.setFab k v).holdFor = s.holdFor := rfl
@[simp] theorem State.setFab_outbox (k : Nat) (v : Fabric) : (s.setFab k v).outbox = s.outbox := rfl
@[simp] theorem State.setFab_regs (k : Nat) (v : Fabric) : (s.setFab k v).regs = s.regs := rfl
@[simp] theorem State.setFab_heldLow (k : Nat) (v : Fabric) : (s.setFab k v).heldLow = s.heldLow := rfl
@[simp] theorem State.setFab_latched (k : Nat) (v : Fabric) : (s.setFab k v).latched = s.latched := rfl
@[simp] theorem State.setFab_mem (k : Nat) (v : Fabric) : (s.setFab k v).mem = s.mem := rfl
@[simp] theorem State.setFab_tb (k : Nat) (v : Fabric) : (s.setFab k v).tb = s.tb := rfl
@[simp] theorem State.setFab_clk (k : Nat) (v : Fabric) : (s.setFab k v).clk = s.clk := rfl
@[simp] theorem State.setFab_pw (k : Nat) (v : Fabric) : (s.setFab k v).pw = s.pw := rfl
@[simp] theorem State.setFab_rails (k : Nat) (v : Fabric) : (s.setFab k v).rails = s.rails := rfl
@[simp] theorem State.setFab_su (k : Nat) (v : Fabric) : (s.setFab k v).su = s.su := rfl
@[simp] theorem State.setFab_lanes (k : Nat) (v : Fabric) : (s.setFab k v).lanes = s.lanes := rfl
@[simp] theorem State.setFab_bundles (k : Nat) (v : Fabric) : (s.setFab k v).bundles = s.bundles := rfl
@[simp] theorem State.setFab_lsmActive (k : Nat) (v : Fabric) : (s.setFab k v).lsmActive = s.lsmActive := rfl
@[simp] theorem State.setFab_board (k : Nat) (v : Fabric) : (s.setFab k v).board = s.board := rfl
@[simp] theorem State.setFab_cfeLanes (k : Nat) (v : Fabric) : (s.setFab k v).cfeLanes = s.cfeLanes := rfl
@[simp] theorem State.setFab_chans (k : Nat) (v : Fabric) : (s.setFab k v).chans = s.chans := rfl
@[simp] theorem State.setFab_hitq (k : Nat) (v : Fabric) : (s.setFab k v).hitq = s.hitq := rfl
@[simp] theorem State.setFab_wsus (k : Nat) (v : Fabric) : (s.setFab k v).wsus = s.wsus := rfl
@[simp] theorem State.setFab_merge (k : Nat) (v : Fabric) : (s.setFab k v).merge = s.merge := rfl
@[simp] theorem State.setFab_glint (k : Nat) (v : Fabric) : (s.setFab k v).glint = s.glint := rfl
@[simp] theorem State.setFab_dbm (k : Nat) (v : Fabric) : (s.setFab k v).dbm = s.dbm := rfl
@[simp] theorem State.setFab_sre (k : Nat) (v : Fabric) : (s.setFab k v).sre = s.sre := rfl
@[simp] theorem State.setFab_cores (k : Nat) (v : Fabric) : (s.setFab k v).cores = s.cores := rfl
@[simp] theorem State.setFab_clusters (k : Nat) (v : Fabric) : (s.setFab k v).clusters = s.clusters := rfl
@[simp] theorem State.setFab_wdg (k : Nat) (v : Fabric) : (s.setFab k v).wdg = s.wdg := rfl
@[simp] theorem State.setFab_scheds (k : Nat) (v : Fabric) : (s.setFab k v).scheds = s.scheds := rfl
@[simp] theorem State.setFab_mbxs (k : Nat) (v : Fabric) : (s.setFab k v).mbxs = s.mbxs := rfl
@[simp] theorem State.setFab_locks (k : Nat) (v : Fabric) : (s.setFab k v).locks = s.locks := rfl
@[simp] theorem State.setFab_fabs (k : Nat) (v : Fabric) : (s.setFab k v).fabs = Tbl.set {} s.fabs k v := rfl
@[simp] theorem State.setFab_brg (k : Nat) (v : Fabric) : (s.setFab k v).brg = s.brg := rfl
@[simp] theorem State.setFab_noc (k : Nat) (v : Fabric) : (s.setFab k v).noc = s.noc := rfl
@[simp] theorem State.setFab_cfg (k : Nat) (v : Fabric) : (s.setFab k v).cfg = s.cfg := rfl
@[simp] theorem State.setFab_nv (k : Nat) (v : Fabric) : (s.setFab k v).nv = s.nv := rfl
@[simp] theorem State.setFab_flt (k : Nat) (v : Fabric) : (s.setFab k v).flt = s.flt := rfl
@[simp] theorem State.setFab_cnt (k : Nat) (v : Fabric) : (s.setFab k v).cnt = s.cnt := rfl
@[simp] theorem State.setFab_dbg (k : Nat) (v : Fabric) : (s.setFab k v).dbg = s.dbg := rfl
@[simp] theorem State.setFab_capture (k : Nat) (v : Fabric) : (s.setFab k v).capture = s.capture := rfl
@[simp] theorem State.setFab_hif (k : Nat) (v : Fabric) : (s.setFab k v).hif = s.hif := rfl
@[simp] theorem State.setFab_gpio (k : Nat) (v : Fabric) : (s.setFab k v).gpio = s.gpio := rfl
@[simp] theorem State.setFab_on (k : Nat) (v : Fabric) (d : Nat) : (s.setFab k v).on d = s.on d := rfl
@[simp] theorem State.setFab_live (k : Nat) (v : Fabric) (d : Nat) : (s.setFab k v).live d = s.live d := rfl
@[simp] theorem State.setFab_rd (k : Nat) (v : Fabric) (n : RegName) (ix : List Nat) :
    (s.setFab k v).rd n ix = s.rd n ix := rfl

-- State.setBridge

@[simp] theorem State.setBridge_pending (k : Nat) (v : Bridge) : (s.setBridge k v).pending = s.pending := rfl
@[simp] theorem State.setBridge_freeCtr (k : Nat) (v : Bridge) : (s.setBridge k v).freeCtr = s.freeCtr := rfl
@[simp] theorem State.setBridge_holdFor (k : Nat) (v : Bridge) : (s.setBridge k v).holdFor = s.holdFor := rfl
@[simp] theorem State.setBridge_outbox (k : Nat) (v : Bridge) : (s.setBridge k v).outbox = s.outbox := rfl
@[simp] theorem State.setBridge_regs (k : Nat) (v : Bridge) : (s.setBridge k v).regs = s.regs := rfl
@[simp] theorem State.setBridge_heldLow (k : Nat) (v : Bridge) : (s.setBridge k v).heldLow = s.heldLow := rfl
@[simp] theorem State.setBridge_latched (k : Nat) (v : Bridge) : (s.setBridge k v).latched = s.latched := rfl
@[simp] theorem State.setBridge_mem (k : Nat) (v : Bridge) : (s.setBridge k v).mem = s.mem := rfl
@[simp] theorem State.setBridge_tb (k : Nat) (v : Bridge) : (s.setBridge k v).tb = s.tb := rfl
@[simp] theorem State.setBridge_clk (k : Nat) (v : Bridge) : (s.setBridge k v).clk = s.clk := rfl
@[simp] theorem State.setBridge_pw (k : Nat) (v : Bridge) : (s.setBridge k v).pw = s.pw := rfl
@[simp] theorem State.setBridge_rails (k : Nat) (v : Bridge) : (s.setBridge k v).rails = s.rails := rfl
@[simp] theorem State.setBridge_su (k : Nat) (v : Bridge) : (s.setBridge k v).su = s.su := rfl
@[simp] theorem State.setBridge_lanes (k : Nat) (v : Bridge) : (s.setBridge k v).lanes = s.lanes := rfl
@[simp] theorem State.setBridge_bundles (k : Nat) (v : Bridge) : (s.setBridge k v).bundles = s.bundles := rfl
@[simp] theorem State.setBridge_lsmActive (k : Nat) (v : Bridge) : (s.setBridge k v).lsmActive = s.lsmActive := rfl
@[simp] theorem State.setBridge_board (k : Nat) (v : Bridge) : (s.setBridge k v).board = s.board := rfl
@[simp] theorem State.setBridge_cfeLanes (k : Nat) (v : Bridge) : (s.setBridge k v).cfeLanes = s.cfeLanes := rfl
@[simp] theorem State.setBridge_chans (k : Nat) (v : Bridge) : (s.setBridge k v).chans = s.chans := rfl
@[simp] theorem State.setBridge_hitq (k : Nat) (v : Bridge) : (s.setBridge k v).hitq = s.hitq := rfl
@[simp] theorem State.setBridge_wsus (k : Nat) (v : Bridge) : (s.setBridge k v).wsus = s.wsus := rfl
@[simp] theorem State.setBridge_merge (k : Nat) (v : Bridge) : (s.setBridge k v).merge = s.merge := rfl
@[simp] theorem State.setBridge_glint (k : Nat) (v : Bridge) : (s.setBridge k v).glint = s.glint := rfl
@[simp] theorem State.setBridge_dbm (k : Nat) (v : Bridge) : (s.setBridge k v).dbm = s.dbm := rfl
@[simp] theorem State.setBridge_sre (k : Nat) (v : Bridge) : (s.setBridge k v).sre = s.sre := rfl
@[simp] theorem State.setBridge_cores (k : Nat) (v : Bridge) : (s.setBridge k v).cores = s.cores := rfl
@[simp] theorem State.setBridge_clusters (k : Nat) (v : Bridge) : (s.setBridge k v).clusters = s.clusters := rfl
@[simp] theorem State.setBridge_wdg (k : Nat) (v : Bridge) : (s.setBridge k v).wdg = s.wdg := rfl
@[simp] theorem State.setBridge_scheds (k : Nat) (v : Bridge) : (s.setBridge k v).scheds = s.scheds := rfl
@[simp] theorem State.setBridge_mbxs (k : Nat) (v : Bridge) : (s.setBridge k v).mbxs = s.mbxs := rfl
@[simp] theorem State.setBridge_locks (k : Nat) (v : Bridge) : (s.setBridge k v).locks = s.locks := rfl
@[simp] theorem State.setBridge_fabs (k : Nat) (v : Bridge) : (s.setBridge k v).fabs = s.fabs := rfl
@[simp] theorem State.setBridge_brg (k : Nat) (v : Bridge) :
    (s.setBridge k v).brg = { s.brg with dies := Tbl.set {} s.brg.dies k v } := rfl
@[simp] theorem State.setBridge_noc (k : Nat) (v : Bridge) : (s.setBridge k v).noc = s.noc := rfl
@[simp] theorem State.setBridge_cfg (k : Nat) (v : Bridge) : (s.setBridge k v).cfg = s.cfg := rfl
@[simp] theorem State.setBridge_nv (k : Nat) (v : Bridge) : (s.setBridge k v).nv = s.nv := rfl
@[simp] theorem State.setBridge_flt (k : Nat) (v : Bridge) : (s.setBridge k v).flt = s.flt := rfl
@[simp] theorem State.setBridge_cnt (k : Nat) (v : Bridge) : (s.setBridge k v).cnt = s.cnt := rfl
@[simp] theorem State.setBridge_dbg (k : Nat) (v : Bridge) : (s.setBridge k v).dbg = s.dbg := rfl
@[simp] theorem State.setBridge_capture (k : Nat) (v : Bridge) : (s.setBridge k v).capture = s.capture := rfl
@[simp] theorem State.setBridge_hif (k : Nat) (v : Bridge) : (s.setBridge k v).hif = s.hif := rfl
@[simp] theorem State.setBridge_gpio (k : Nat) (v : Bridge) : (s.setBridge k v).gpio = s.gpio := rfl
@[simp] theorem State.setBridge_on (k : Nat) (v : Bridge) (d : Nat) : (s.setBridge k v).on d = s.on d := rfl
@[simp] theorem State.setBridge_live (k : Nat) (v : Bridge) (d : Nat) : (s.setBridge k v).live d = s.live d := rfl
@[simp] theorem State.setBridge_rd (k : Nat) (v : Bridge) (n : RegName) (ix : List Nat) :
    (s.setBridge k v).rd n ix = s.rd n ix := rfl

-- State.setLock

@[simp] theorem State.setLock_pending (k : Nat) (v : Lock) : (s.setLock k v).pending = s.pending := rfl
@[simp] theorem State.setLock_freeCtr (k : Nat) (v : Lock) : (s.setLock k v).freeCtr = s.freeCtr := rfl
@[simp] theorem State.setLock_holdFor (k : Nat) (v : Lock) : (s.setLock k v).holdFor = s.holdFor := rfl
@[simp] theorem State.setLock_outbox (k : Nat) (v : Lock) : (s.setLock k v).outbox = s.outbox := rfl
@[simp] theorem State.setLock_regs (k : Nat) (v : Lock) : (s.setLock k v).regs = s.regs := rfl
@[simp] theorem State.setLock_heldLow (k : Nat) (v : Lock) : (s.setLock k v).heldLow = s.heldLow := rfl
@[simp] theorem State.setLock_latched (k : Nat) (v : Lock) : (s.setLock k v).latched = s.latched := rfl
@[simp] theorem State.setLock_mem (k : Nat) (v : Lock) : (s.setLock k v).mem = s.mem := rfl
@[simp] theorem State.setLock_tb (k : Nat) (v : Lock) : (s.setLock k v).tb = s.tb := rfl
@[simp] theorem State.setLock_clk (k : Nat) (v : Lock) : (s.setLock k v).clk = s.clk := rfl
@[simp] theorem State.setLock_pw (k : Nat) (v : Lock) : (s.setLock k v).pw = s.pw := rfl
@[simp] theorem State.setLock_rails (k : Nat) (v : Lock) : (s.setLock k v).rails = s.rails := rfl
@[simp] theorem State.setLock_su (k : Nat) (v : Lock) : (s.setLock k v).su = s.su := rfl
@[simp] theorem State.setLock_lanes (k : Nat) (v : Lock) : (s.setLock k v).lanes = s.lanes := rfl
@[simp] theorem State.setLock_bundles (k : Nat) (v : Lock) : (s.setLock k v).bundles = s.bundles := rfl
@[simp] theorem State.setLock_lsmActive (k : Nat) (v : Lock) : (s.setLock k v).lsmActive = s.lsmActive := rfl
@[simp] theorem State.setLock_board (k : Nat) (v : Lock) : (s.setLock k v).board = s.board := rfl
@[simp] theorem State.setLock_cfeLanes (k : Nat) (v : Lock) : (s.setLock k v).cfeLanes = s.cfeLanes := rfl
@[simp] theorem State.setLock_chans (k : Nat) (v : Lock) : (s.setLock k v).chans = s.chans := rfl
@[simp] theorem State.setLock_hitq (k : Nat) (v : Lock) : (s.setLock k v).hitq = s.hitq := rfl
@[simp] theorem State.setLock_wsus (k : Nat) (v : Lock) : (s.setLock k v).wsus = s.wsus := rfl
@[simp] theorem State.setLock_merge (k : Nat) (v : Lock) : (s.setLock k v).merge = s.merge := rfl
@[simp] theorem State.setLock_glint (k : Nat) (v : Lock) : (s.setLock k v).glint = s.glint := rfl
@[simp] theorem State.setLock_dbm (k : Nat) (v : Lock) : (s.setLock k v).dbm = s.dbm := rfl
@[simp] theorem State.setLock_sre (k : Nat) (v : Lock) : (s.setLock k v).sre = s.sre := rfl
@[simp] theorem State.setLock_cores (k : Nat) (v : Lock) : (s.setLock k v).cores = s.cores := rfl
@[simp] theorem State.setLock_clusters (k : Nat) (v : Lock) : (s.setLock k v).clusters = s.clusters := rfl
@[simp] theorem State.setLock_wdg (k : Nat) (v : Lock) : (s.setLock k v).wdg = s.wdg := rfl
@[simp] theorem State.setLock_scheds (k : Nat) (v : Lock) : (s.setLock k v).scheds = s.scheds := rfl
@[simp] theorem State.setLock_mbxs (k : Nat) (v : Lock) : (s.setLock k v).mbxs = s.mbxs := rfl
@[simp] theorem State.setLock_locks (k : Nat) (v : Lock) : (s.setLock k v).locks = Tbl.set {} s.locks k v := rfl
@[simp] theorem State.setLock_fabs (k : Nat) (v : Lock) : (s.setLock k v).fabs = s.fabs := rfl
@[simp] theorem State.setLock_brg (k : Nat) (v : Lock) : (s.setLock k v).brg = s.brg := rfl
@[simp] theorem State.setLock_noc (k : Nat) (v : Lock) : (s.setLock k v).noc = s.noc := rfl
@[simp] theorem State.setLock_cfg (k : Nat) (v : Lock) : (s.setLock k v).cfg = s.cfg := rfl
@[simp] theorem State.setLock_nv (k : Nat) (v : Lock) : (s.setLock k v).nv = s.nv := rfl
@[simp] theorem State.setLock_flt (k : Nat) (v : Lock) : (s.setLock k v).flt = s.flt := rfl
@[simp] theorem State.setLock_cnt (k : Nat) (v : Lock) : (s.setLock k v).cnt = s.cnt := rfl
@[simp] theorem State.setLock_dbg (k : Nat) (v : Lock) : (s.setLock k v).dbg = s.dbg := rfl
@[simp] theorem State.setLock_capture (k : Nat) (v : Lock) : (s.setLock k v).capture = s.capture := rfl
@[simp] theorem State.setLock_hif (k : Nat) (v : Lock) : (s.setLock k v).hif = s.hif := rfl
@[simp] theorem State.setLock_gpio (k : Nat) (v : Lock) : (s.setLock k v).gpio = s.gpio := rfl
@[simp] theorem State.setLock_on (k : Nat) (v : Lock) (d : Nat) : (s.setLock k v).on d = s.on d := rfl
@[simp] theorem State.setLock_live (k : Nat) (v : Lock) (d : Nat) : (s.setLock k v).live d = s.live d := rfl
@[simp] theorem State.setLock_rd (k : Nat) (v : Lock) (n : RegName) (ix : List Nat) :
    (s.setLock k v).rd n ix = s.rd n ix := rfl

-- State.setRing

@[simp] theorem State.setRing_pending (k : Nat) (v : Ring) : (s.setRing k v).pending = s.pending := rfl
@[simp] theorem State.setRing_freeCtr (k : Nat) (v : Ring) : (s.setRing k v).freeCtr = s.freeCtr := rfl
@[simp] theorem State.setRing_holdFor (k : Nat) (v : Ring) : (s.setRing k v).holdFor = s.holdFor := rfl
@[simp] theorem State.setRing_outbox (k : Nat) (v : Ring) : (s.setRing k v).outbox = s.outbox := rfl
@[simp] theorem State.setRing_regs (k : Nat) (v : Ring) : (s.setRing k v).regs = s.regs := rfl
@[simp] theorem State.setRing_heldLow (k : Nat) (v : Ring) : (s.setRing k v).heldLow = s.heldLow := rfl
@[simp] theorem State.setRing_latched (k : Nat) (v : Ring) : (s.setRing k v).latched = s.latched := rfl
@[simp] theorem State.setRing_mem (k : Nat) (v : Ring) : (s.setRing k v).mem = s.mem := rfl
@[simp] theorem State.setRing_tb (k : Nat) (v : Ring) : (s.setRing k v).tb = s.tb := rfl
@[simp] theorem State.setRing_clk (k : Nat) (v : Ring) : (s.setRing k v).clk = s.clk := rfl
@[simp] theorem State.setRing_pw (k : Nat) (v : Ring) : (s.setRing k v).pw = s.pw := rfl
@[simp] theorem State.setRing_rails (k : Nat) (v : Ring) : (s.setRing k v).rails = s.rails := rfl
@[simp] theorem State.setRing_su (k : Nat) (v : Ring) : (s.setRing k v).su = s.su := rfl
@[simp] theorem State.setRing_lanes (k : Nat) (v : Ring) : (s.setRing k v).lanes = s.lanes := rfl
@[simp] theorem State.setRing_bundles (k : Nat) (v : Ring) : (s.setRing k v).bundles = s.bundles := rfl
@[simp] theorem State.setRing_lsmActive (k : Nat) (v : Ring) : (s.setRing k v).lsmActive = s.lsmActive := rfl
@[simp] theorem State.setRing_board (k : Nat) (v : Ring) : (s.setRing k v).board = s.board := rfl
@[simp] theorem State.setRing_cfeLanes (k : Nat) (v : Ring) : (s.setRing k v).cfeLanes = s.cfeLanes := rfl
@[simp] theorem State.setRing_chans (k : Nat) (v : Ring) : (s.setRing k v).chans = s.chans := rfl
@[simp] theorem State.setRing_hitq (k : Nat) (v : Ring) : (s.setRing k v).hitq = s.hitq := rfl
@[simp] theorem State.setRing_wsus (k : Nat) (v : Ring) : (s.setRing k v).wsus = s.wsus := rfl
@[simp] theorem State.setRing_merge (k : Nat) (v : Ring) : (s.setRing k v).merge = s.merge := rfl
@[simp] theorem State.setRing_glint (k : Nat) (v : Ring) : (s.setRing k v).glint = s.glint := rfl
@[simp] theorem State.setRing_dbm (k : Nat) (v : Ring) : (s.setRing k v).dbm = s.dbm := rfl
@[simp] theorem State.setRing_sre (k : Nat) (v : Ring) : (s.setRing k v).sre = s.sre := rfl
@[simp] theorem State.setRing_cores (k : Nat) (v : Ring) : (s.setRing k v).cores = s.cores := rfl
@[simp] theorem State.setRing_clusters (k : Nat) (v : Ring) : (s.setRing k v).clusters = s.clusters := rfl
@[simp] theorem State.setRing_wdg (k : Nat) (v : Ring) : (s.setRing k v).wdg = s.wdg := rfl
@[simp] theorem State.setRing_scheds (k : Nat) (v : Ring) : (s.setRing k v).scheds = s.scheds := rfl
@[simp] theorem State.setRing_mbxs (k : Nat) (v : Ring) : (s.setRing k v).mbxs = s.mbxs := rfl
@[simp] theorem State.setRing_locks (k : Nat) (v : Ring) : (s.setRing k v).locks = s.locks := rfl
@[simp] theorem State.setRing_fabs (k : Nat) (v : Ring) : (s.setRing k v).fabs = s.fabs := rfl
@[simp] theorem State.setRing_brg (k : Nat) (v : Ring) : (s.setRing k v).brg = s.brg := rfl
@[simp] theorem State.setRing_noc (k : Nat) (v : Ring) : (s.setRing k v).noc = s.noc := rfl
@[simp] theorem State.setRing_cfg (k : Nat) (v : Ring) : (s.setRing k v).cfg = s.cfg := rfl
@[simp] theorem State.setRing_nv (k : Nat) (v : Ring) : (s.setRing k v).nv = s.nv := rfl
@[simp] theorem State.setRing_flt (k : Nat) (v : Ring) : (s.setRing k v).flt = s.flt := rfl
@[simp] theorem State.setRing_cnt (k : Nat) (v : Ring) : (s.setRing k v).cnt = s.cnt := rfl
@[simp] theorem State.setRing_dbg (k : Nat) (v : Ring) : (s.setRing k v).dbg = s.dbg := rfl
@[simp] theorem State.setRing_capture (k : Nat) (v : Ring) : (s.setRing k v).capture = s.capture := rfl
@[simp] theorem State.setRing_hif (k : Nat) (v : Ring) :
    (s.setRing k v).hif = { s.hif with rings := Tbl.set {} s.hif.rings k v } := rfl
@[simp] theorem State.setRing_gpio (k : Nat) (v : Ring) : (s.setRing k v).gpio = s.gpio := rfl
@[simp] theorem State.setRing_on (k : Nat) (v : Ring) (d : Nat) : (s.setRing k v).on d = s.on d := rfl
@[simp] theorem State.setRing_live (k : Nat) (v : Ring) (d : Nat) : (s.setRing k v).live d = s.live d := rfl
@[simp] theorem State.setRing_rd (k : Nat) (v : Ring) (n : RegName) (ix : List Nat) :
    (s.setRing k v).rd n ix = s.rd n ix := rfl

-- State.setRegion

@[simp] theorem State.setRegion_pending (k : Nat) (v : Region) : (s.setRegion k v).pending = s.pending := rfl
@[simp] theorem State.setRegion_freeCtr (k : Nat) (v : Region) : (s.setRegion k v).freeCtr = s.freeCtr := rfl
@[simp] theorem State.setRegion_holdFor (k : Nat) (v : Region) : (s.setRegion k v).holdFor = s.holdFor := rfl
@[simp] theorem State.setRegion_outbox (k : Nat) (v : Region) : (s.setRegion k v).outbox = s.outbox := rfl
@[simp] theorem State.setRegion_regs (k : Nat) (v : Region) : (s.setRegion k v).regs = s.regs := rfl
@[simp] theorem State.setRegion_heldLow (k : Nat) (v : Region) : (s.setRegion k v).heldLow = s.heldLow := rfl
@[simp] theorem State.setRegion_latched (k : Nat) (v : Region) : (s.setRegion k v).latched = s.latched := rfl
@[simp] theorem State.setRegion_mem (k : Nat) (v : Region) : (s.setRegion k v).mem = s.mem := rfl
@[simp] theorem State.setRegion_tb (k : Nat) (v : Region) : (s.setRegion k v).tb = s.tb := rfl
@[simp] theorem State.setRegion_clk (k : Nat) (v : Region) : (s.setRegion k v).clk = s.clk := rfl
@[simp] theorem State.setRegion_pw (k : Nat) (v : Region) : (s.setRegion k v).pw = s.pw := rfl
@[simp] theorem State.setRegion_rails (k : Nat) (v : Region) : (s.setRegion k v).rails = s.rails := rfl
@[simp] theorem State.setRegion_su (k : Nat) (v : Region) : (s.setRegion k v).su = s.su := rfl
@[simp] theorem State.setRegion_lanes (k : Nat) (v : Region) : (s.setRegion k v).lanes = s.lanes := rfl
@[simp] theorem State.setRegion_bundles (k : Nat) (v : Region) : (s.setRegion k v).bundles = s.bundles := rfl
@[simp] theorem State.setRegion_lsmActive (k : Nat) (v : Region) : (s.setRegion k v).lsmActive = s.lsmActive := rfl
@[simp] theorem State.setRegion_board (k : Nat) (v : Region) : (s.setRegion k v).board = s.board := rfl
@[simp] theorem State.setRegion_cfeLanes (k : Nat) (v : Region) : (s.setRegion k v).cfeLanes = s.cfeLanes := rfl
@[simp] theorem State.setRegion_chans (k : Nat) (v : Region) : (s.setRegion k v).chans = s.chans := rfl
@[simp] theorem State.setRegion_hitq (k : Nat) (v : Region) : (s.setRegion k v).hitq = s.hitq := rfl
@[simp] theorem State.setRegion_wsus (k : Nat) (v : Region) : (s.setRegion k v).wsus = s.wsus := rfl
@[simp] theorem State.setRegion_merge (k : Nat) (v : Region) : (s.setRegion k v).merge = s.merge := rfl
@[simp] theorem State.setRegion_glint (k : Nat) (v : Region) : (s.setRegion k v).glint = s.glint := rfl
@[simp] theorem State.setRegion_dbm (k : Nat) (v : Region) :
    (s.setRegion k v).dbm = { s.dbm with regions := Tbl.set {} s.dbm.regions k v } := rfl
@[simp] theorem State.setRegion_sre (k : Nat) (v : Region) : (s.setRegion k v).sre = s.sre := rfl
@[simp] theorem State.setRegion_cores (k : Nat) (v : Region) : (s.setRegion k v).cores = s.cores := rfl
@[simp] theorem State.setRegion_clusters (k : Nat) (v : Region) : (s.setRegion k v).clusters = s.clusters := rfl
@[simp] theorem State.setRegion_wdg (k : Nat) (v : Region) : (s.setRegion k v).wdg = s.wdg := rfl
@[simp] theorem State.setRegion_scheds (k : Nat) (v : Region) : (s.setRegion k v).scheds = s.scheds := rfl
@[simp] theorem State.setRegion_mbxs (k : Nat) (v : Region) : (s.setRegion k v).mbxs = s.mbxs := rfl
@[simp] theorem State.setRegion_locks (k : Nat) (v : Region) : (s.setRegion k v).locks = s.locks := rfl
@[simp] theorem State.setRegion_fabs (k : Nat) (v : Region) : (s.setRegion k v).fabs = s.fabs := rfl
@[simp] theorem State.setRegion_brg (k : Nat) (v : Region) : (s.setRegion k v).brg = s.brg := rfl
@[simp] theorem State.setRegion_noc (k : Nat) (v : Region) : (s.setRegion k v).noc = s.noc := rfl
@[simp] theorem State.setRegion_cfg (k : Nat) (v : Region) : (s.setRegion k v).cfg = s.cfg := rfl
@[simp] theorem State.setRegion_nv (k : Nat) (v : Region) : (s.setRegion k v).nv = s.nv := rfl
@[simp] theorem State.setRegion_flt (k : Nat) (v : Region) : (s.setRegion k v).flt = s.flt := rfl
@[simp] theorem State.setRegion_cnt (k : Nat) (v : Region) : (s.setRegion k v).cnt = s.cnt := rfl
@[simp] theorem State.setRegion_dbg (k : Nat) (v : Region) : (s.setRegion k v).dbg = s.dbg := rfl
@[simp] theorem State.setRegion_capture (k : Nat) (v : Region) : (s.setRegion k v).capture = s.capture := rfl
@[simp] theorem State.setRegion_hif (k : Nat) (v : Region) : (s.setRegion k v).hif = s.hif := rfl
@[simp] theorem State.setRegion_gpio (k : Nat) (v : Region) : (s.setRegion k v).gpio = s.gpio := rfl
@[simp] theorem State.setRegion_on (k : Nat) (v : Region) (d : Nat) : (s.setRegion k v).on d = s.on d := rfl
@[simp] theorem State.setRegion_live (k : Nat) (v : Region) (d : Nat) : (s.setRegion k v).live d = s.live d := rfl
@[simp] theorem State.setRegion_rd (k : Nat) (v : Region) (n : RegName) (ix : List Nat) :
    (s.setRegion k v).rd n ix = s.rd n ix := rfl

-- State.setKeySlot

@[simp] theorem State.setKeySlot_pending (k : Nat) (v : KeySlot) : (s.setKeySlot k v).pending = s.pending := rfl
@[simp] theorem State.setKeySlot_freeCtr (k : Nat) (v : KeySlot) : (s.setKeySlot k v).freeCtr = s.freeCtr := rfl
@[simp] theorem State.setKeySlot_holdFor (k : Nat) (v : KeySlot) : (s.setKeySlot k v).holdFor = s.holdFor := rfl
@[simp] theorem State.setKeySlot_outbox (k : Nat) (v : KeySlot) : (s.setKeySlot k v).outbox = s.outbox := rfl
@[simp] theorem State.setKeySlot_regs (k : Nat) (v : KeySlot) : (s.setKeySlot k v).regs = s.regs := rfl
@[simp] theorem State.setKeySlot_heldLow (k : Nat) (v : KeySlot) : (s.setKeySlot k v).heldLow = s.heldLow := rfl
@[simp] theorem State.setKeySlot_latched (k : Nat) (v : KeySlot) : (s.setKeySlot k v).latched = s.latched := rfl
@[simp] theorem State.setKeySlot_mem (k : Nat) (v : KeySlot) : (s.setKeySlot k v).mem = s.mem := rfl
@[simp] theorem State.setKeySlot_tb (k : Nat) (v : KeySlot) : (s.setKeySlot k v).tb = s.tb := rfl
@[simp] theorem State.setKeySlot_clk (k : Nat) (v : KeySlot) : (s.setKeySlot k v).clk = s.clk := rfl
@[simp] theorem State.setKeySlot_pw (k : Nat) (v : KeySlot) : (s.setKeySlot k v).pw = s.pw := rfl
@[simp] theorem State.setKeySlot_rails (k : Nat) (v : KeySlot) : (s.setKeySlot k v).rails = s.rails := rfl
@[simp] theorem State.setKeySlot_su (k : Nat) (v : KeySlot) : (s.setKeySlot k v).su = s.su := rfl
@[simp] theorem State.setKeySlot_lanes (k : Nat) (v : KeySlot) : (s.setKeySlot k v).lanes = s.lanes := rfl
@[simp] theorem State.setKeySlot_bundles (k : Nat) (v : KeySlot) : (s.setKeySlot k v).bundles = s.bundles := rfl
@[simp] theorem State.setKeySlot_lsmActive (k : Nat) (v : KeySlot) : (s.setKeySlot k v).lsmActive = s.lsmActive := rfl
@[simp] theorem State.setKeySlot_board (k : Nat) (v : KeySlot) : (s.setKeySlot k v).board = s.board := rfl
@[simp] theorem State.setKeySlot_cfeLanes (k : Nat) (v : KeySlot) : (s.setKeySlot k v).cfeLanes = s.cfeLanes := rfl
@[simp] theorem State.setKeySlot_chans (k : Nat) (v : KeySlot) : (s.setKeySlot k v).chans = s.chans := rfl
@[simp] theorem State.setKeySlot_hitq (k : Nat) (v : KeySlot) : (s.setKeySlot k v).hitq = s.hitq := rfl
@[simp] theorem State.setKeySlot_wsus (k : Nat) (v : KeySlot) : (s.setKeySlot k v).wsus = s.wsus := rfl
@[simp] theorem State.setKeySlot_merge (k : Nat) (v : KeySlot) : (s.setKeySlot k v).merge = s.merge := rfl
@[simp] theorem State.setKeySlot_glint (k : Nat) (v : KeySlot) : (s.setKeySlot k v).glint = s.glint := rfl
@[simp] theorem State.setKeySlot_dbm (k : Nat) (v : KeySlot) : (s.setKeySlot k v).dbm = s.dbm := rfl
@[simp] theorem State.setKeySlot_sre (k : Nat) (v : KeySlot) :
    (s.setKeySlot k v).sre = { s.sre with keys := Tbl.set {} s.sre.keys k v } := rfl
@[simp] theorem State.setKeySlot_cores (k : Nat) (v : KeySlot) : (s.setKeySlot k v).cores = s.cores := rfl
@[simp] theorem State.setKeySlot_clusters (k : Nat) (v : KeySlot) : (s.setKeySlot k v).clusters = s.clusters := rfl
@[simp] theorem State.setKeySlot_wdg (k : Nat) (v : KeySlot) : (s.setKeySlot k v).wdg = s.wdg := rfl
@[simp] theorem State.setKeySlot_scheds (k : Nat) (v : KeySlot) : (s.setKeySlot k v).scheds = s.scheds := rfl
@[simp] theorem State.setKeySlot_mbxs (k : Nat) (v : KeySlot) : (s.setKeySlot k v).mbxs = s.mbxs := rfl
@[simp] theorem State.setKeySlot_locks (k : Nat) (v : KeySlot) : (s.setKeySlot k v).locks = s.locks := rfl
@[simp] theorem State.setKeySlot_fabs (k : Nat) (v : KeySlot) : (s.setKeySlot k v).fabs = s.fabs := rfl
@[simp] theorem State.setKeySlot_brg (k : Nat) (v : KeySlot) : (s.setKeySlot k v).brg = s.brg := rfl
@[simp] theorem State.setKeySlot_noc (k : Nat) (v : KeySlot) : (s.setKeySlot k v).noc = s.noc := rfl
@[simp] theorem State.setKeySlot_cfg (k : Nat) (v : KeySlot) : (s.setKeySlot k v).cfg = s.cfg := rfl
@[simp] theorem State.setKeySlot_nv (k : Nat) (v : KeySlot) : (s.setKeySlot k v).nv = s.nv := rfl
@[simp] theorem State.setKeySlot_flt (k : Nat) (v : KeySlot) : (s.setKeySlot k v).flt = s.flt := rfl
@[simp] theorem State.setKeySlot_cnt (k : Nat) (v : KeySlot) : (s.setKeySlot k v).cnt = s.cnt := rfl
@[simp] theorem State.setKeySlot_dbg (k : Nat) (v : KeySlot) : (s.setKeySlot k v).dbg = s.dbg := rfl
@[simp] theorem State.setKeySlot_capture (k : Nat) (v : KeySlot) : (s.setKeySlot k v).capture = s.capture := rfl
@[simp] theorem State.setKeySlot_hif (k : Nat) (v : KeySlot) : (s.setKeySlot k v).hif = s.hif := rfl
@[simp] theorem State.setKeySlot_gpio (k : Nat) (v : KeySlot) : (s.setKeySlot k v).gpio = s.gpio := rfl
@[simp] theorem State.setKeySlot_on (k : Nat) (v : KeySlot) (d : Nat) : (s.setKeySlot k v).on d = s.on d := rfl
@[simp] theorem State.setKeySlot_live (k : Nat) (v : KeySlot) (d : Nat) : (s.setKeySlot k v).live d = s.live d := rfl
@[simp] theorem State.setKeySlot_rd (k : Nat) (v : KeySlot) (n : RegName) (ix : List Nat) :
    (s.setKeySlot k v).rd n ix = s.rd n ix := rfl

-- State.setMbx

@[simp] theorem State.setMbx_pending (k : Nat) (v : Mailbox) : (s.setMbx k v).pending = s.pending := rfl
@[simp] theorem State.setMbx_freeCtr (k : Nat) (v : Mailbox) : (s.setMbx k v).freeCtr = s.freeCtr := rfl
@[simp] theorem State.setMbx_holdFor (k : Nat) (v : Mailbox) : (s.setMbx k v).holdFor = s.holdFor := rfl
@[simp] theorem State.setMbx_outbox (k : Nat) (v : Mailbox) : (s.setMbx k v).outbox = s.outbox := rfl
@[simp] theorem State.setMbx_regs (k : Nat) (v : Mailbox) : (s.setMbx k v).regs = s.regs := rfl
@[simp] theorem State.setMbx_heldLow (k : Nat) (v : Mailbox) : (s.setMbx k v).heldLow = s.heldLow := rfl
@[simp] theorem State.setMbx_latched (k : Nat) (v : Mailbox) : (s.setMbx k v).latched = s.latched := rfl
@[simp] theorem State.setMbx_mem (k : Nat) (v : Mailbox) : (s.setMbx k v).mem = s.mem := rfl
@[simp] theorem State.setMbx_tb (k : Nat) (v : Mailbox) : (s.setMbx k v).tb = s.tb := rfl
@[simp] theorem State.setMbx_clk (k : Nat) (v : Mailbox) : (s.setMbx k v).clk = s.clk := rfl
@[simp] theorem State.setMbx_pw (k : Nat) (v : Mailbox) : (s.setMbx k v).pw = s.pw := rfl
@[simp] theorem State.setMbx_rails (k : Nat) (v : Mailbox) : (s.setMbx k v).rails = s.rails := rfl
@[simp] theorem State.setMbx_su (k : Nat) (v : Mailbox) : (s.setMbx k v).su = s.su := rfl
@[simp] theorem State.setMbx_lanes (k : Nat) (v : Mailbox) : (s.setMbx k v).lanes = s.lanes := rfl
@[simp] theorem State.setMbx_bundles (k : Nat) (v : Mailbox) : (s.setMbx k v).bundles = s.bundles := rfl
@[simp] theorem State.setMbx_lsmActive (k : Nat) (v : Mailbox) : (s.setMbx k v).lsmActive = s.lsmActive := rfl
@[simp] theorem State.setMbx_board (k : Nat) (v : Mailbox) : (s.setMbx k v).board = s.board := rfl
@[simp] theorem State.setMbx_cfeLanes (k : Nat) (v : Mailbox) : (s.setMbx k v).cfeLanes = s.cfeLanes := rfl
@[simp] theorem State.setMbx_chans (k : Nat) (v : Mailbox) : (s.setMbx k v).chans = s.chans := rfl
@[simp] theorem State.setMbx_hitq (k : Nat) (v : Mailbox) : (s.setMbx k v).hitq = s.hitq := rfl
@[simp] theorem State.setMbx_wsus (k : Nat) (v : Mailbox) : (s.setMbx k v).wsus = s.wsus := rfl
@[simp] theorem State.setMbx_merge (k : Nat) (v : Mailbox) : (s.setMbx k v).merge = s.merge := rfl
@[simp] theorem State.setMbx_glint (k : Nat) (v : Mailbox) : (s.setMbx k v).glint = s.glint := rfl
@[simp] theorem State.setMbx_dbm (k : Nat) (v : Mailbox) : (s.setMbx k v).dbm = s.dbm := rfl
@[simp] theorem State.setMbx_sre (k : Nat) (v : Mailbox) : (s.setMbx k v).sre = s.sre := rfl
@[simp] theorem State.setMbx_cores (k : Nat) (v : Mailbox) : (s.setMbx k v).cores = s.cores := rfl
@[simp] theorem State.setMbx_clusters (k : Nat) (v : Mailbox) : (s.setMbx k v).clusters = s.clusters := rfl
@[simp] theorem State.setMbx_wdg (k : Nat) (v : Mailbox) : (s.setMbx k v).wdg = s.wdg := rfl
@[simp] theorem State.setMbx_scheds (k : Nat) (v : Mailbox) : (s.setMbx k v).scheds = s.scheds := rfl
@[simp] theorem State.setMbx_mbxs (k : Nat) (v : Mailbox) : (s.setMbx k v).mbxs = Tbl.set (mbxCold k) s.mbxs k v := rfl
@[simp] theorem State.setMbx_locks (k : Nat) (v : Mailbox) : (s.setMbx k v).locks = s.locks := rfl
@[simp] theorem State.setMbx_fabs (k : Nat) (v : Mailbox) : (s.setMbx k v).fabs = s.fabs := rfl
@[simp] theorem State.setMbx_brg (k : Nat) (v : Mailbox) : (s.setMbx k v).brg = s.brg := rfl
@[simp] theorem State.setMbx_noc (k : Nat) (v : Mailbox) : (s.setMbx k v).noc = s.noc := rfl
@[simp] theorem State.setMbx_cfg (k : Nat) (v : Mailbox) : (s.setMbx k v).cfg = s.cfg := rfl
@[simp] theorem State.setMbx_nv (k : Nat) (v : Mailbox) : (s.setMbx k v).nv = s.nv := rfl
@[simp] theorem State.setMbx_flt (k : Nat) (v : Mailbox) : (s.setMbx k v).flt = s.flt := rfl
@[simp] theorem State.setMbx_cnt (k : Nat) (v : Mailbox) : (s.setMbx k v).cnt = s.cnt := rfl
@[simp] theorem State.setMbx_dbg (k : Nat) (v : Mailbox) : (s.setMbx k v).dbg = s.dbg := rfl
@[simp] theorem State.setMbx_capture (k : Nat) (v : Mailbox) : (s.setMbx k v).capture = s.capture := rfl
@[simp] theorem State.setMbx_hif (k : Nat) (v : Mailbox) : (s.setMbx k v).hif = s.hif := rfl
@[simp] theorem State.setMbx_gpio (k : Nat) (v : Mailbox) : (s.setMbx k v).gpio = s.gpio := rfl
@[simp] theorem State.setMbx_on (k : Nat) (v : Mailbox) (d : Nat) : (s.setMbx k v).on d = s.on d := rfl
@[simp] theorem State.setMbx_live (k : Nat) (v : Mailbox) (d : Nat) : (s.setMbx k v).live d = s.live d := rfl
@[simp] theorem State.setMbx_rd (k : Nat) (v : Mailbox) (n : RegName) (ix : List Nat) :
    (s.setMbx k v).rd n ix = s.rd n ix := rfl

-- State.emit

@[simp] theorem State.emit_pending (o : Output) : (s.emit o).pending = s.pending := rfl
@[simp] theorem State.emit_freeCtr (o : Output) : (s.emit o).freeCtr = s.freeCtr := rfl
@[simp] theorem State.emit_holdFor (o : Output) : (s.emit o).holdFor = s.holdFor := rfl
@[simp] theorem State.emit_regs (o : Output) : (s.emit o).regs = s.regs := rfl
@[simp] theorem State.emit_heldLow (o : Output) : (s.emit o).heldLow = s.heldLow := rfl
@[simp] theorem State.emit_latched (o : Output) : (s.emit o).latched = s.latched := rfl
@[simp] theorem State.emit_mem (o : Output) : (s.emit o).mem = s.mem := rfl
@[simp] theorem State.emit_tb (o : Output) : (s.emit o).tb = s.tb := rfl
@[simp] theorem State.emit_clk (o : Output) : (s.emit o).clk = s.clk := rfl
@[simp] theorem State.emit_pw (o : Output) : (s.emit o).pw = s.pw := rfl
@[simp] theorem State.emit_rails (o : Output) : (s.emit o).rails = s.rails := rfl
@[simp] theorem State.emit_su (o : Output) : (s.emit o).su = s.su := rfl
@[simp] theorem State.emit_lanes (o : Output) : (s.emit o).lanes = s.lanes := rfl
@[simp] theorem State.emit_bundles (o : Output) : (s.emit o).bundles = s.bundles := rfl
@[simp] theorem State.emit_lsmActive (o : Output) : (s.emit o).lsmActive = s.lsmActive := rfl
@[simp] theorem State.emit_board (o : Output) : (s.emit o).board = s.board := rfl
@[simp] theorem State.emit_cfeLanes (o : Output) : (s.emit o).cfeLanes = s.cfeLanes := rfl
@[simp] theorem State.emit_chans (o : Output) : (s.emit o).chans = s.chans := rfl
@[simp] theorem State.emit_hitq (o : Output) : (s.emit o).hitq = s.hitq := rfl
@[simp] theorem State.emit_wsus (o : Output) : (s.emit o).wsus = s.wsus := rfl
@[simp] theorem State.emit_merge (o : Output) : (s.emit o).merge = s.merge := rfl
@[simp] theorem State.emit_glint (o : Output) : (s.emit o).glint = s.glint := rfl
@[simp] theorem State.emit_dbm (o : Output) : (s.emit o).dbm = s.dbm := rfl
@[simp] theorem State.emit_sre (o : Output) : (s.emit o).sre = s.sre := rfl
@[simp] theorem State.emit_cores (o : Output) : (s.emit o).cores = s.cores := rfl
@[simp] theorem State.emit_clusters (o : Output) : (s.emit o).clusters = s.clusters := rfl
@[simp] theorem State.emit_wdg (o : Output) : (s.emit o).wdg = s.wdg := rfl
@[simp] theorem State.emit_scheds (o : Output) : (s.emit o).scheds = s.scheds := rfl
@[simp] theorem State.emit_mbxs (o : Output) : (s.emit o).mbxs = s.mbxs := rfl
@[simp] theorem State.emit_locks (o : Output) : (s.emit o).locks = s.locks := rfl
@[simp] theorem State.emit_brg (o : Output) : (s.emit o).brg = s.brg := rfl
@[simp] theorem State.emit_noc (o : Output) : (s.emit o).noc = s.noc := rfl
@[simp] theorem State.emit_cfg (o : Output) : (s.emit o).cfg = s.cfg := rfl
@[simp] theorem State.emit_nv (o : Output) : (s.emit o).nv = s.nv := rfl
@[simp] theorem State.emit_flt (o : Output) : (s.emit o).flt = s.flt := rfl
@[simp] theorem State.emit_cnt (o : Output) : (s.emit o).cnt = s.cnt := rfl
@[simp] theorem State.emit_dbg (o : Output) : (s.emit o).dbg = s.dbg := rfl
@[simp] theorem State.emit_capture (o : Output) : (s.emit o).capture = s.capture := rfl
@[simp] theorem State.emit_hif (o : Output) : (s.emit o).hif = s.hif := rfl
@[simp] theorem State.emit_gpio (o : Output) : (s.emit o).gpio = s.gpio := rfl
@[simp] theorem State.emit_on (o : Output) (d : Nat) : (s.emit o).on d = s.on d := rfl
@[simp] theorem State.emit_live (o : Output) (d : Nat) : (s.emit o).live d = s.live d := rfl
@[simp] theorem State.emit_rd (o : Output) (n : RegName) (ix : List Nat) : (s.emit o).rd n ix = s.rd n ix := rfl

-- State.wr

@[simp] theorem State.wr_pending (n : RegName) (ix : List Nat) (w : Word) : (s.wr n ix w).pending = s.pending := rfl
@[simp] theorem State.wr_freeCtr (n : RegName) (ix : List Nat) (w : Word) : (s.wr n ix w).freeCtr = s.freeCtr := rfl
@[simp] theorem State.wr_holdFor (n : RegName) (ix : List Nat) (w : Word) : (s.wr n ix w).holdFor = s.holdFor := rfl
@[simp] theorem State.wr_outbox (n : RegName) (ix : List Nat) (w : Word) : (s.wr n ix w).outbox = s.outbox := rfl
@[simp] theorem State.wr_regs (n : RegName) (ix : List Nat) (w : Word) :
    (s.wr n ix w).regs = Tbl.set (s.coldWord n ix) s.regs (n.off ix) w := rfl
@[simp] theorem State.wr_heldLow (n : RegName) (ix : List Nat) (w : Word) : (s.wr n ix w).heldLow = s.heldLow := rfl
@[simp] theorem State.wr_latched (n : RegName) (ix : List Nat) (w : Word) : (s.wr n ix w).latched = s.latched := rfl
@[simp] theorem State.wr_mem (n : RegName) (ix : List Nat) (w : Word) : (s.wr n ix w).mem = s.mem := rfl
@[simp] theorem State.wr_tb (n : RegName) (ix : List Nat) (w : Word) : (s.wr n ix w).tb = s.tb := rfl
@[simp] theorem State.wr_clk (n : RegName) (ix : List Nat) (w : Word) : (s.wr n ix w).clk = s.clk := rfl
@[simp] theorem State.wr_pw (n : RegName) (ix : List Nat) (w : Word) : (s.wr n ix w).pw = s.pw := rfl
@[simp] theorem State.wr_rails (n : RegName) (ix : List Nat) (w : Word) : (s.wr n ix w).rails = s.rails := rfl
@[simp] theorem State.wr_su (n : RegName) (ix : List Nat) (w : Word) : (s.wr n ix w).su = s.su := rfl
@[simp] theorem State.wr_lanes (n : RegName) (ix : List Nat) (w : Word) : (s.wr n ix w).lanes = s.lanes := rfl
@[simp] theorem State.wr_bundles (n : RegName) (ix : List Nat) (w : Word) : (s.wr n ix w).bundles = s.bundles := rfl
@[simp] theorem State.wr_lsmActive (n : RegName) (ix : List Nat) (w : Word) : (s.wr n ix w).lsmActive = s.lsmActive := rfl
@[simp] theorem State.wr_board (n : RegName) (ix : List Nat) (w : Word) : (s.wr n ix w).board = s.board := rfl
@[simp] theorem State.wr_cfeLanes (n : RegName) (ix : List Nat) (w : Word) : (s.wr n ix w).cfeLanes = s.cfeLanes := rfl
@[simp] theorem State.wr_chans (n : RegName) (ix : List Nat) (w : Word) : (s.wr n ix w).chans = s.chans := rfl
@[simp] theorem State.wr_hitq (n : RegName) (ix : List Nat) (w : Word) : (s.wr n ix w).hitq = s.hitq := rfl
@[simp] theorem State.wr_wsus (n : RegName) (ix : List Nat) (w : Word) : (s.wr n ix w).wsus = s.wsus := rfl
@[simp] theorem State.wr_merge (n : RegName) (ix : List Nat) (w : Word) : (s.wr n ix w).merge = s.merge := rfl
@[simp] theorem State.wr_glint (n : RegName) (ix : List Nat) (w : Word) : (s.wr n ix w).glint = s.glint := rfl
@[simp] theorem State.wr_dbm (n : RegName) (ix : List Nat) (w : Word) : (s.wr n ix w).dbm = s.dbm := rfl
@[simp] theorem State.wr_sre (n : RegName) (ix : List Nat) (w : Word) : (s.wr n ix w).sre = s.sre := rfl
@[simp] theorem State.wr_cores (n : RegName) (ix : List Nat) (w : Word) : (s.wr n ix w).cores = s.cores := rfl
@[simp] theorem State.wr_clusters (n : RegName) (ix : List Nat) (w : Word) : (s.wr n ix w).clusters = s.clusters := rfl
@[simp] theorem State.wr_wdg (n : RegName) (ix : List Nat) (w : Word) : (s.wr n ix w).wdg = s.wdg := rfl
@[simp] theorem State.wr_scheds (n : RegName) (ix : List Nat) (w : Word) : (s.wr n ix w).scheds = s.scheds := rfl
@[simp] theorem State.wr_mbxs (n : RegName) (ix : List Nat) (w : Word) : (s.wr n ix w).mbxs = s.mbxs := rfl
@[simp] theorem State.wr_locks (n : RegName) (ix : List Nat) (w : Word) : (s.wr n ix w).locks = s.locks := rfl
@[simp] theorem State.wr_fabs (n : RegName) (ix : List Nat) (w : Word) : (s.wr n ix w).fabs = s.fabs := rfl
@[simp] theorem State.wr_brg (n : RegName) (ix : List Nat) (w : Word) : (s.wr n ix w).brg = s.brg := rfl
@[simp] theorem State.wr_noc (n : RegName) (ix : List Nat) (w : Word) : (s.wr n ix w).noc = s.noc := rfl
@[simp] theorem State.wr_cfg (n : RegName) (ix : List Nat) (w : Word) : (s.wr n ix w).cfg = s.cfg := rfl
@[simp] theorem State.wr_nv (n : RegName) (ix : List Nat) (w : Word) : (s.wr n ix w).nv = s.nv := rfl
@[simp] theorem State.wr_flt (n : RegName) (ix : List Nat) (w : Word) : (s.wr n ix w).flt = s.flt := rfl
@[simp] theorem State.wr_cnt (n : RegName) (ix : List Nat) (w : Word) : (s.wr n ix w).cnt = s.cnt := rfl
@[simp] theorem State.wr_dbg (n : RegName) (ix : List Nat) (w : Word) : (s.wr n ix w).dbg = s.dbg := rfl
@[simp] theorem State.wr_capture (n : RegName) (ix : List Nat) (w : Word) : (s.wr n ix w).capture = s.capture := rfl
@[simp] theorem State.wr_hif (n : RegName) (ix : List Nat) (w : Word) : (s.wr n ix w).hif = s.hif := rfl
@[simp] theorem State.wr_gpio (n : RegName) (ix : List Nat) (w : Word) : (s.wr n ix w).gpio = s.gpio := rfl
@[simp] theorem State.wr_on (n : RegName) (ix : List Nat) (w : Word) (d : Nat) : (s.wr n ix w).on d = s.on d := rfl
@[simp] theorem State.wr_live (n : RegName) (ix : List Nat) (w : Word) (d : Nat) : (s.wr n ix w).live d = s.live d := rfl

theorem State.emit_outbox (o : Output) (h : o.port? = none) : (s.emit o).outbox = s.outbox ++ [o] := by
  simp [State.emit, h]
theorem State.emit_fabs (o : Output) (h : o.port? = none) : (s.emit o).fabs = s.fabs := by simp [State.emit, h]

-- State.count and State.answer

/-- An injection at a counter word that is counted (R488 detector 21). -/
theorem State.countInject_frame (n loc inst : Nat) :
    s.countInject n loc inst = { s with
      cnt := (s.countInject n loc inst).cnt, flt := (s.countInject n loc inst).flt,
      freeCtr := (s.countInject n loc inst).freeCtr } := by
  unfold State.countInject
  dsimp only
  split
  · rfl
  · repeat' split
    all_goals rfl

/-- A count that is not held. -/
theorem State.countNow_frame (n loc inst k : Nat) :
    s.countNow n loc inst k = { s with
      cnt := (s.countNow n loc inst k).cnt, flt := (s.countNow n loc inst k).flt,
      freeCtr := (s.countNow n loc inst k).freeCtr } := by
  unfold State.countNow
  dsimp only
  split
  · rfl
  · rw [State.countInject_frame]; rfl

/-- A count moves the counters, or a Glint's held counts, and what an injection in force leaves of itself. -/
theorem State.count_frame (n loc inst k : Nat) :
    s.count n loc inst k = { s with
      cnt := (s.count n loc inst k).cnt, glint := (s.count n loc inst k).glint, flt := (s.count n loc inst k).flt,
      freeCtr := (s.count n loc inst k).freeCtr } := by
  unfold State.count State.countHeld
  split
  · split
    · rw [State.countNow_frame]
    · dsimp only; split <;> rfl
  · rw [State.countNow_frame]

/-- An answer leaves the part, or waits in a port's shell; one to the host that carries EP is counted. -/
theorem State.answer_frame (r : Req) (a : Reply) :
    s.answer r a = { s with
      outbox := (s.emit (.reply r a)).outbox, fabs := (s.emit (.reply r a)).fabs,
      cnt := (s.answer r a).cnt, glint := (s.answer r a).glint, flt := (s.answer r a).flt,
      freeCtr := (s.answer r a).freeCtr } := by
  unfold State.answer
  split
  · rw [State.count_frame]; rfl
  · rfl

@[simp] theorem State.count_pending (n loc inst k : Nat) : (s.count n loc inst k).pending = s.pending := by rw [State.count_frame]
@[simp] theorem State.count_holdFor (n loc inst k : Nat) : (s.count n loc inst k).holdFor = s.holdFor := by rw [State.count_frame]
@[simp] theorem State.count_outbox (n loc inst k : Nat) : (s.count n loc inst k).outbox = s.outbox := by rw [State.count_frame]
@[simp] theorem State.count_regs (n loc inst k : Nat) : (s.count n loc inst k).regs = s.regs := by rw [State.count_frame]
@[simp] theorem State.count_heldLow (n loc inst k : Nat) : (s.count n loc inst k).heldLow = s.heldLow := by rw [State.count_frame]
@[simp] theorem State.count_latched (n loc inst k : Nat) : (s.count n loc inst k).latched = s.latched := by rw [State.count_frame]
@[simp] theorem State.count_mem (n loc inst k : Nat) : (s.count n loc inst k).mem = s.mem := by rw [State.count_frame]
@[simp] theorem State.count_tb (n loc inst k : Nat) : (s.count n loc inst k).tb = s.tb := by rw [State.count_frame]
@[simp] theorem State.count_clk (n loc inst k : Nat) : (s.count n loc inst k).clk = s.clk := by rw [State.count_frame]
@[simp] theorem State.count_pw (n loc inst k : Nat) : (s.count n loc inst k).pw = s.pw := by rw [State.count_frame]
@[simp] theorem State.count_rails (n loc inst k : Nat) : (s.count n loc inst k).rails = s.rails := by rw [State.count_frame]
@[simp] theorem State.count_su (n loc inst k : Nat) : (s.count n loc inst k).su = s.su := by rw [State.count_frame]
@[simp] theorem State.count_lanes (n loc inst k : Nat) : (s.count n loc inst k).lanes = s.lanes := by rw [State.count_frame]
@[simp] theorem State.count_bundles (n loc inst k : Nat) : (s.count n loc inst k).bundles = s.bundles := by rw [State.count_frame]
@[simp] theorem State.count_lsmActive (n loc inst k : Nat) : (s.count n loc inst k).lsmActive = s.lsmActive := by rw [State.count_frame]
@[simp] theorem State.count_board (n loc inst k : Nat) : (s.count n loc inst k).board = s.board := by rw [State.count_frame]
@[simp] theorem State.count_cfeLanes (n loc inst k : Nat) : (s.count n loc inst k).cfeLanes = s.cfeLanes := by rw [State.count_frame]
@[simp] theorem State.count_chans (n loc inst k : Nat) : (s.count n loc inst k).chans = s.chans := by rw [State.count_frame]
@[simp] theorem State.count_hitq (n loc inst k : Nat) : (s.count n loc inst k).hitq = s.hitq := by rw [State.count_frame]
@[simp] theorem State.count_wsus (n loc inst k : Nat) : (s.count n loc inst k).wsus = s.wsus := by rw [State.count_frame]
@[simp] theorem State.count_merge (n loc inst k : Nat) : (s.count n loc inst k).merge = s.merge := by rw [State.count_frame]
@[simp] theorem State.count_dbm (n loc inst k : Nat) : (s.count n loc inst k).dbm = s.dbm := by rw [State.count_frame]
@[simp] theorem State.count_sre (n loc inst k : Nat) : (s.count n loc inst k).sre = s.sre := by rw [State.count_frame]
@[simp] theorem State.count_cores (n loc inst k : Nat) : (s.count n loc inst k).cores = s.cores := by rw [State.count_frame]
@[simp] theorem State.count_clusters (n loc inst k : Nat) : (s.count n loc inst k).clusters = s.clusters := by rw [State.count_frame]
@[simp] theorem State.count_wdg (n loc inst k : Nat) : (s.count n loc inst k).wdg = s.wdg := by rw [State.count_frame]
@[simp] theorem State.count_scheds (n loc inst k : Nat) : (s.count n loc inst k).scheds = s.scheds := by rw [State.count_frame]
@[simp] theorem State.count_mbxs (n loc inst k : Nat) : (s.count n loc inst k).mbxs = s.mbxs := by rw [State.count_frame]
@[simp] theorem State.count_locks (n loc inst k : Nat) : (s.count n loc inst k).locks = s.locks := by rw [State.count_frame]
@[simp] theorem State.count_fabs (n loc inst k : Nat) : (s.count n loc inst k).fabs = s.fabs := by rw [State.count_frame]
@[simp] theorem State.count_brg (n loc inst k : Nat) : (s.count n loc inst k).brg = s.brg := by rw [State.count_frame]
@[simp] theorem State.count_noc (n loc inst k : Nat) : (s.count n loc inst k).noc = s.noc := by rw [State.count_frame]
@[simp] theorem State.count_cfg (n loc inst k : Nat) : (s.count n loc inst k).cfg = s.cfg := by rw [State.count_frame]
@[simp] theorem State.count_nv (n loc inst k : Nat) : (s.count n loc inst k).nv = s.nv := by rw [State.count_frame]
@[simp] theorem State.count_dbg (n loc inst k : Nat) : (s.count n loc inst k).dbg = s.dbg := by rw [State.count_frame]
@[simp] theorem State.count_capture (n loc inst k : Nat) : (s.count n loc inst k).capture = s.capture := by rw [State.count_frame]
@[simp] theorem State.count_hif (n loc inst k : Nat) : (s.count n loc inst k).hif = s.hif := by rw [State.count_frame]
@[simp] theorem State.count_gpio (n loc inst k : Nat) : (s.count n loc inst k).gpio = s.gpio := by rw [State.count_frame]
@[simp] theorem State.count_on (n loc inst k : Nat) (d : Nat) : (s.count n loc inst k).on d = s.on d := by rw [State.count_frame]; rfl
@[simp] theorem State.count_live (n loc inst k : Nat) (d : Nat) : (s.count n loc inst k).live d = s.live d := by rw [State.count_frame]; rfl
@[simp] theorem State.count_rd (n loc inst k : Nat) (n' : RegName) (ix : List Nat) : (s.count n loc inst k).rd n' ix = s.rd n' ix := by
  rw [State.count_frame]; rfl

@[simp] theorem State.answer_pending (r : Req) (a : Reply) : (s.answer r a).pending = s.pending := by rw [State.answer_frame]
@[simp] theorem State.answer_holdFor (r : Req) (a : Reply) : (s.answer r a).holdFor = s.holdFor := by rw [State.answer_frame]
@[simp] theorem State.answer_regs (r : Req) (a : Reply) : (s.answer r a).regs = s.regs := by rw [State.answer_frame]
@[simp] theorem State.answer_heldLow (r : Req) (a : Reply) : (s.answer r a).heldLow = s.heldLow := by rw [State.answer_frame]
@[simp] theorem State.answer_latched (r : Req) (a : Reply) : (s.answer r a).latched = s.latched := by rw [State.answer_frame]
@[simp] theorem State.answer_mem (r : Req) (a : Reply) : (s.answer r a).mem = s.mem := by rw [State.answer_frame]
@[simp] theorem State.answer_tb (r : Req) (a : Reply) : (s.answer r a).tb = s.tb := by rw [State.answer_frame]
@[simp] theorem State.answer_clk (r : Req) (a : Reply) : (s.answer r a).clk = s.clk := by rw [State.answer_frame]
@[simp] theorem State.answer_pw (r : Req) (a : Reply) : (s.answer r a).pw = s.pw := by rw [State.answer_frame]
@[simp] theorem State.answer_rails (r : Req) (a : Reply) : (s.answer r a).rails = s.rails := by rw [State.answer_frame]
@[simp] theorem State.answer_su (r : Req) (a : Reply) : (s.answer r a).su = s.su := by rw [State.answer_frame]
@[simp] theorem State.answer_lanes (r : Req) (a : Reply) : (s.answer r a).lanes = s.lanes := by rw [State.answer_frame]
@[simp] theorem State.answer_bundles (r : Req) (a : Reply) : (s.answer r a).bundles = s.bundles := by rw [State.answer_frame]
@[simp] theorem State.answer_lsmActive (r : Req) (a : Reply) : (s.answer r a).lsmActive = s.lsmActive := by rw [State.answer_frame]
@[simp] theorem State.answer_board (r : Req) (a : Reply) : (s.answer r a).board = s.board := by rw [State.answer_frame]
@[simp] theorem State.answer_cfeLanes (r : Req) (a : Reply) : (s.answer r a).cfeLanes = s.cfeLanes := by rw [State.answer_frame]
@[simp] theorem State.answer_chans (r : Req) (a : Reply) : (s.answer r a).chans = s.chans := by rw [State.answer_frame]
@[simp] theorem State.answer_hitq (r : Req) (a : Reply) : (s.answer r a).hitq = s.hitq := by rw [State.answer_frame]
@[simp] theorem State.answer_wsus (r : Req) (a : Reply) : (s.answer r a).wsus = s.wsus := by rw [State.answer_frame]
@[simp] theorem State.answer_merge (r : Req) (a : Reply) : (s.answer r a).merge = s.merge := by rw [State.answer_frame]
@[simp] theorem State.answer_dbm (r : Req) (a : Reply) : (s.answer r a).dbm = s.dbm := by rw [State.answer_frame]
@[simp] theorem State.answer_sre (r : Req) (a : Reply) : (s.answer r a).sre = s.sre := by rw [State.answer_frame]
@[simp] theorem State.answer_cores (r : Req) (a : Reply) : (s.answer r a).cores = s.cores := by rw [State.answer_frame]
@[simp] theorem State.answer_clusters (r : Req) (a : Reply) : (s.answer r a).clusters = s.clusters := by rw [State.answer_frame]
@[simp] theorem State.answer_wdg (r : Req) (a : Reply) : (s.answer r a).wdg = s.wdg := by rw [State.answer_frame]
@[simp] theorem State.answer_scheds (r : Req) (a : Reply) : (s.answer r a).scheds = s.scheds := by rw [State.answer_frame]
@[simp] theorem State.answer_mbxs (r : Req) (a : Reply) : (s.answer r a).mbxs = s.mbxs := by rw [State.answer_frame]
@[simp] theorem State.answer_locks (r : Req) (a : Reply) : (s.answer r a).locks = s.locks := by rw [State.answer_frame]
@[simp] theorem State.answer_brg (r : Req) (a : Reply) : (s.answer r a).brg = s.brg := by rw [State.answer_frame]
@[simp] theorem State.answer_noc (r : Req) (a : Reply) : (s.answer r a).noc = s.noc := by rw [State.answer_frame]
@[simp] theorem State.answer_cfg (r : Req) (a : Reply) : (s.answer r a).cfg = s.cfg := by rw [State.answer_frame]
@[simp] theorem State.answer_nv (r : Req) (a : Reply) : (s.answer r a).nv = s.nv := by rw [State.answer_frame]
@[simp] theorem State.answer_dbg (r : Req) (a : Reply) : (s.answer r a).dbg = s.dbg := by rw [State.answer_frame]
@[simp] theorem State.answer_capture (r : Req) (a : Reply) : (s.answer r a).capture = s.capture := by rw [State.answer_frame]
@[simp] theorem State.answer_hif (r : Req) (a : Reply) : (s.answer r a).hif = s.hif := by rw [State.answer_frame]
@[simp] theorem State.answer_gpio (r : Req) (a : Reply) : (s.answer r a).gpio = s.gpio := by rw [State.answer_frame]
@[simp] theorem State.answer_on (r : Req) (a : Reply) (d : Nat) : (s.answer r a).on d = s.on d := by rw [State.answer_frame]; rfl
@[simp] theorem State.answer_live (r : Req) (a : Reply) (d : Nat) : (s.answer r a).live d = s.live d := by rw [State.answer_frame]; rfl
@[simp] theorem State.answer_rd (r : Req) (a : Reply) (n' : RegName) (ix : List Nat) : (s.answer r a).rd n' ix = s.rd n' ix := by
  rw [State.answer_frame]; rfl

-- what is read back

@[simp] theorem State.lane_setLane_same (k : Nat) (v : LaneSt) : (s.setLane k v).lane k = v := Tbl.get_set_same _ _ k v
theorem State.lane_setLane_ne (k i : Nat) (v : LaneSt) (h : i ≠ k) : (s.setLane k v).lane i = s.lane i :=
  Tbl.get_set_ne _ _ _ k i v h
@[simp] theorem State.bundle_setBundle_same (k : Nat) (v : BundleSt) : (s.setBundle k v).bundle k = v := Tbl.get_set_same _ _ k v
theorem State.bundle_setBundle_ne (k i : Nat) (v : BundleSt) (h : i ≠ k) : (s.setBundle k v).bundle i = s.bundle i :=
  Tbl.get_set_ne _ _ _ k i v h
@[simp] theorem State.cfeLane_setCfeLane_same (k : Nat) (v : CfeLane) : (s.setCfeLane k v).cfeLane k = v := Tbl.get_set_same _ _ k v
theorem State.cfeLane_setCfeLane_ne (k i : Nat) (v : CfeLane) (h : i ≠ k) : (s.setCfeLane k v).cfeLane i = s.cfeLane i :=
  Tbl.get_set_ne _ _ _ k i v h
@[simp] theorem State.chan_setChan_same (k : Nat) (v : ChanSt) : (s.setChan k v).chan k = v := Tbl.get_set_same _ _ k v
theorem State.chan_setChan_ne (k i : Nat) (v : ChanSt) (h : i ≠ k) : (s.setChan k v).chan i = s.chan i :=
  Tbl.get_set_ne _ _ _ k i v h
@[simp] theorem State.hitQueue_setHitQueue_same (k : Nat) (v : List HitRec) : (s.setHitQueue k v).hitQueue k = v := Tbl.get_set_same _ _ k v
theorem State.hitQueue_setHitQueue_ne (k i : Nat) (v : List HitRec) (h : i ≠ k) : (s.setHitQueue k v).hitQueue i = s.hitQueue i :=
  Tbl.get_set_ne _ _ _ k i v h
@[simp] theorem State.wsu_setWsu_same (k : Nat) (v : Wsu) : (s.setWsu k v).wsu k = v := Tbl.get_set_same _ _ k v
theorem State.wsu_setWsu_ne (k i : Nat) (v : Wsu) (h : i ≠ k) : (s.setWsu k v).wsu i = s.wsu i :=
  Tbl.get_set_ne _ _ _ k i v h
@[simp] theorem State.slot_setSlot_same (k : Nat) (v : GlintSlot) : (s.setSlot k v).slot k = v := Tbl.get_set_same _ _ k v
theorem State.slot_setSlot_ne (k i : Nat) (v : GlintSlot) (h : i ≠ k) : (s.setSlot k v).slot i = s.slot i :=
  Tbl.get_set_ne _ _ _ k i v h
@[simp] theorem State.rings_setRings_same (k : Nat) (v : DieRings) : (s.setRings k v).rings k = v := Tbl.get_set_same _ _ k v
theorem State.rings_setRings_ne (k i : Nat) (v : DieRings) (h : i ≠ k) : (s.setRings k v).rings i = s.rings i :=
  Tbl.get_set_ne _ _ _ k i v h
@[simp] theorem State.core_setCore_same (k : Nat) (v : CoreSt) : (s.setCore k v).core k = v := Tbl.get_set_same _ _ k v
theorem State.core_setCore_ne (k i : Nat) (v : CoreSt) (h : i ≠ k) : (s.setCore k v).core i = s.core i :=
  Tbl.get_set_ne _ _ _ k i v h
@[simp] theorem State.cluster_setCluster_same (k : Nat) (v : ClusterSt) : (s.setCluster k v).cluster k = v := Tbl.get_set_same _ _ k v
theorem State.cluster_setCluster_ne (k i : Nat) (v : ClusterSt) (h : i ≠ k) : (s.setCluster k v).cluster i = s.cluster i :=
  Tbl.get_set_ne _ _ _ k i v h
@[simp] theorem State.sched_setSched_same (k : Nat) (v : Sched) : (s.setSched k v).sched k = v := Tbl.get_set_same _ _ k v
theorem State.sched_setSched_ne (k i : Nat) (v : Sched) (h : i ≠ k) : (s.setSched k v).sched i = s.sched i :=
  Tbl.get_set_ne _ _ _ k i v h
@[simp] theorem State.fab_setFab_same (k : Nat) (v : Fabric) : (s.setFab k v).fab k = v := Tbl.get_set_same _ _ k v
theorem State.fab_setFab_ne (k i : Nat) (v : Fabric) (h : i ≠ k) : (s.setFab k v).fab i = s.fab i :=
  Tbl.get_set_ne _ _ _ k i v h
@[simp] theorem State.bridge_setBridge_same (k : Nat) (v : Bridge) : (s.setBridge k v).bridge k = v := Tbl.get_set_same _ _ k v
theorem State.bridge_setBridge_ne (k i : Nat) (v : Bridge) (h : i ≠ k) : (s.setBridge k v).bridge i = s.bridge i :=
  Tbl.get_set_ne _ _ _ k i v h
@[simp] theorem State.lock_setLock_same (k : Nat) (v : Lock) : (s.setLock k v).lock k = v := Tbl.get_set_same _ _ k v
theorem State.lock_setLock_ne (k i : Nat) (v : Lock) (h : i ≠ k) : (s.setLock k v).lock i = s.lock i :=
  Tbl.get_set_ne _ _ _ k i v h
@[simp] theorem State.ring_setRing_same (k : Nat) (v : Ring) : (s.setRing k v).ring k = v := Tbl.get_set_same _ _ k v
theorem State.ring_setRing_ne (k i : Nat) (v : Ring) (h : i ≠ k) : (s.setRing k v).ring i = s.ring i :=
  Tbl.get_set_ne _ _ _ k i v h
@[simp] theorem State.region_setRegion_same (k : Nat) (v : Region) : (s.setRegion k v).region k = v := Tbl.get_set_same _ _ k v
theorem State.region_setRegion_ne (k i : Nat) (v : Region) (h : i ≠ k) : (s.setRegion k v).region i = s.region i :=
  Tbl.get_set_ne _ _ _ k i v h
@[simp] theorem State.keySlot_setKeySlot_same (k : Nat) (v : KeySlot) : (s.setKeySlot k v).keySlot k = v := Tbl.get_set_same _ _ k v
theorem State.keySlot_setKeySlot_ne (k i : Nat) (v : KeySlot) (h : i ≠ k) : (s.setKeySlot k v).keySlot i = s.keySlot i :=
  Tbl.get_set_ne _ _ _ k i v h
@[simp] theorem State.mbx_setMbx_same (k : Nat) (v : Mailbox) : (s.setMbx k v).mbx k = v := Tbl.get_set_same _ _ k v
theorem State.mbx_setMbx_ne (k i : Nat) (v : Mailbox) (h : i ≠ k) : (s.setMbx k v).mbx i = s.mbx i :=
  Tbl.get_set_ne _ _ _ k i v h
@[simp] theorem State.rd_wr_same (n : RegName) (ix : List Nat) (w : Word) : (s.wr n ix w).rd n ix = w :=
  Tbl.get_set_same _ _ _ w
theorem State.rd_wr_ne (n m : RegName) (ix jx : List Nat) (w : Word) (h : m.off jx ≠ n.off ix) :
    (s.wr n ix w).rd m jx = s.rd m jx := Tbl.get_set_ne _ _ _ _ _ w h

end Sys2Proof.Machine
end

