-- ==== Sys2Proof/Laws/Ops.lean ====
section
/-! SUPPORT. What the shared operations can do, said once. -/

namespace Sys2Proof.Machine

variable (s : State)

/-- Every requester but the host reaches the part; the host does while its link and function let it (R558, R598). -/
@[simp] theorem State.reaches_other (r : Req) (h : r.cls ≠ .host) : s.reaches r = true := by
  simp [State.reaches, h]

theorem State.reaches_host (r : Req) (h : r.cls = .host) : s.reaches r = s.hostReaches := by
  simp [State.reaches, h]

/-- A request that reaches the part does what it asks; one that does not does nothing. -/
@[simp] theorem State.byReq_yes (r : Req) (f : State → State) (h : s.reaches r = true) : s.byReq r f = f s := by
  simp [State.byReq, h]

theorem State.byReq_no (r : Req) (f : State → State) (h : s.reaches r = false) : s.byReq r f = s := by
  simp [State.byReq, h]

/-- A request of no speculative item that reaches the part performs its write (R125). -/
@[simp] theorem State.guarded_none (r : Req) (f : State → State) (h : r.spec = none) (hr : s.reaches r = true) :
    s.guarded r f = f s := by
  simp [State.guarded, State.byReq, h, hr]

/-- No injection in force: nothing fires (R499). -/
theorem State.inject_off (h : s.flt.injMode = 0) (det inst addr : Nat) : s.inject det inst addr = (none, s) := by
  simp [State.inject, h]

/-- No injection in force, and no Glint's counts held back: a count is a plain one (R503). -/
theorem State.count_off (h : s.flt.injMode = 0) (hf : s.holdFor = none) (n loc inst k : Nat) :
    s.count n loc inst k = s.countRaw n loc inst k := by
  simp [State.count, hf, State.countNow, State.countRaw, h]

/-- A plain count changes the counters and nothing else. -/
theorem State.countRaw_frame (n loc inst k : Nat) :
    s.countRaw n loc inst k = { s with cnt := (s.countRaw n loc inst k).cnt } := rfl

/-- A free value advances the counter it is drawn by and nothing else. -/
theorem State.free_frame (w : Nat) : (s.free w).2 = { s with freeCtr := s.freeCtr + 1 } := rfl

/-- A message is sent, or waits as a pending bit (R555). -/
theorem State.sendVector_cases (v : Nat) :
    ((s.canMaster = true ∧ s.vecMasked v = false) ∧ s.sendVector v = (s.emit (.msix v)).count (cn 16 7) hub 0 1) ∨
    ((s.canMaster = false ∨ s.vecMasked v = true) ∧
      s.sendVector v = { s with hif := { s.hif with vecPend := setBit s.hif.vecPend v true } }) := by
  unfold State.sendVector
  cases h : s.canMaster <;> cases h' : s.vecMasked v <;> simp

end Sys2Proof.Machine
end

