-- ==== Sys2Proof/Safety.lean ====
section
/-! DEFINITION. What counts as a safe run of the block. -/

namespace Sys2Proof.Machine

/-- An outcome that goes on. -/
def goesOn (o : Out) : Prop := ∃ s, o = .next s

/-- A state from which the block goes on for ever: each of the first n steps answers a next state. -/
def safeFor : Nat → State → Prop
  | 0, _ => True
  | n + 1, s => ∃ t, step s = .next t ∧ safeFor n t

end Sys2Proof.Machine
end

