-- ==== Sys2Proof/WellFormed.lean ====
section
/-! DEFINITION. Commands that the part's ports can carry: lengths and places that an operand's type leaves open. The meanings
are total and do not ask for it. -/

namespace Sys2Proof

/-- What a request's storage may show: a place of the address space, and a number of bits of one codeword (R159). -/
def memErrsOk (l : MemErrs) : Bool :=
  l.all fun e => decide (e.1 < 2 ^ 48) && (match e.2 with
    | .nearBits n _ => decide (1 ≤ n ∧ n ≤ 16896)
    | _ => true)

/-- A request's bytes lie in the address space, at most 2,048 of them (R143, R360). -/
def requestOk (a n : Nat) : Bool := decide (1 ≤ n ∧ n ≤ 2048 ∧ a + n ≤ 2 ^ 48)

/-- A sweep's wires (R342). -/
def sweepOk (w : BridgeSweep) : Bool := w.all fun e => decide (e.1 < 16384)

/-- Frames of a die (R456). -/
def upsetOk (u : FrameUpset) : Bool := decide (u.index < 344064)

/-- A command that the part's ports can carry. Commands with no check stand under the last arm: their types say all. -/
def Instr.wf : Instr → Bool
  | .registerWrite _ off _ hi => off.toNat % (if hi.isSome then 8 else 4) == 0
  | .bufferRead _ a len errs => requestOk a.toNat len && memErrsOk errs
  | .bufferWrite _ a bs errs => requestOk a.toNat bs.length && memErrsOk errs
  | .sealedRead _ b errs _ => b.toNat % 256 == 0 && memErrsOk errs
  | .fullBlockWrite _ b bs => b.toNat % 256 == 0 && bs.length == 256
  | .partialWrite _ a bs errs _ => decide (1 ≤ bs.length ∧ a.toNat % 256 + bs.length ≤ 256 ∧ bs.length < 256) && memErrsOk errs
  | .netpRequest _ _ w a len _ bs _ errs =>
    decide (1 ≤ len ∧ len ≤ 64 ∧ a.toNat + len ≤ 2 ^ 48) && (!w || bs.length == len) && memErrsOk errs
  | .bar2Read off len errs => decide (1 ≤ len ∧ len ≤ 4096 ∧ off.toNat + len ≤ 2 ^ 36) && memErrsOk errs
  | .bar2Write off bs errs => decide (1 ≤ bs.length ∧ bs.length ≤ 512 ∧ off.toNat + bs.length ≤ 2 ^ 36) && memErrsOk errs
  | .schPost _ _ _ d _ => d.length == 16
  | .schpDescriptor _ _ d => d.length == 16
  | .vauxPowerGood _ _ fL => decide (0 < fL)
  | .bridgeSweepDone _ w => sweepOk w
  | .retrainDone _ _ w _ => sweepOk w
  | .mirrorPass l _ => l.all upsetOk
  | _ => true

end Sys2Proof
end

