-- ==== Sys2Proof/Tests/Slice0.lean ====
section
/-! SUPPORT. Tests: commands that the well-formedness check refuses; Facet words written out from the encoding tables; and for each
statement states and operands that meet the hypotheses of its clauses, each at a bound of its range. -/

namespace Sys2Proof.Tests

open Sys2Proof Sys2Proof.Machine Sys2Proof.Claims

/-- The part with every supply on, every domain live, the host's link up and enabled, and phase RUN reached. -/
def running : State :=
  { rails := { vaux := true, vinMain := true, vioDdr := true, vioGa := true, vioGb := true, vbat := true, resetN := true, perstN := true },
    pw := { on := BitVec.allOnes 48 },
    wdg := { lampReset := false },
    hif := { up := true, width := 8, speed := 5, bme := true, conf := { memSpace := true, msixEnable := true } },
    brg := { dies := [(0, { state := 7 }), (1, { state := 7 }), (2, { state := 7 }), (3, { state := 7 })], level := 2 },
    su := { ended := 0x3F, imgOk := true, fwOk := true, dieState := 0xAA } }

/-- The Lamp's and the host's requests, a core's, and a request of a speculative item. -/
def lampReq : Req := { cls := .lamp, rnum := 2 }
def hostReq : Req := { cls := .host, rnum := 1 }
def facetReq : Req := { cls := .facet, rnum := 16 }
def specReq : Req := { cls := .facet, rnum := 16, spec := some 0 }

-- terms that the well-formedness check refuses, one for each check

theorem test_wf_register_write : (Instr.registerWrite hostReq 4 0 (some 0)).wf = false ∧ (Instr.registerWrite hostReq 2 0 none).wf = false ∧
    (Instr.registerWrite hostReq 8 0 (some 0)).wf = true := by decide
theorem test_wf_buffer_read : (Instr.bufferRead hostReq 0 0 []).wf = false ∧ (Instr.bufferRead hostReq 0 4 [(0, .nearBits 0 false)]).wf = false ∧
    (Instr.bufferRead hostReq 0 4 []).wf = true := by decide
theorem test_wf_buffer_write : (Instr.bufferWrite hostReq (BitVec.allOnes 48) [1, 2] []).wf = false := by decide
theorem test_wf_sealed_read : (Instr.sealedRead hostReq 255 [] []).wf = false := by decide
theorem test_wf_full_block : (Instr.fullBlockWrite hostReq 0 [1]).wf = false := by decide
theorem test_wf_partial : (Instr.partialWrite hostReq 255 [1, 2] [] []).wf = false := by decide
theorem test_wf_bar2_read : (Instr.bar2Read (BitVec.allOnes 36) 2 []).wf = false := by decide
theorem test_wf_bar2_write : (Instr.bar2Write 0 [] []).wf = false := by decide
theorem test_wf_sch_post : (Instr.schPost facetReq 0 0 [] true).wf = false := by decide
theorem test_wf_schp : (Instr.schpDescriptor 0 0 (List.replicate 17 0)).wf = false ∧ (Instr.schpDescriptor 0 0 (List.replicate 16 0)).wf = true := by
  decide
theorem test_wf_netp : (Instr.netpRequest 0 0 false 0 65 0 [] 0 []).wf = false ∧ (Instr.netpRequest 0 0 true 0 64 0 [] 0 []).wf = false := by
  decide
theorem test_wf_supply : (Instr.vauxPowerGood 0 0 0).wf = false := by decide
theorem test_wf_sweep : (Instr.bridgeSweepDone 0 [(16384, 0)]).wf = false ∧ (Instr.retrainDone 0 true [(16384, 0)] 0).wf = false := by decide
theorem test_wf_mirror : (Instr.mirrorPass [⟨0, 344064, []⟩] 0).wf = false ∧ (Instr.mirrorPass [⟨0, 344063, [0, 8207]⟩] 0).wf = true := by decide

-- Facet words written out from the encoding tables (R251, R252, R256–R258, R260, R266, R269–R271)

theorem test_word_mac2 : facetDecode 0 0xD0050291 = some (.mac2 0 (.par 0 0 1
    ⟨some { store := false, r := 0, q := 0, pm := .own }, some { store := false, r := 1, q := 0, pm := .own }⟩)) := by decide
theorem test_word_pkn : facetDecode 0 0xE9010200 =
    some (.pkn 0 (.par 1 0 0 ⟨some { store := false, r := 0, q := 0, pm := .own }, none⟩)) := by decide
theorem test_word_add : facetDecode 0 0x004C4800 = some (.add 0 (.alu3 3 1 2)) := by decide
theorem test_word_load : facetDecode 0 0x18156000 = some (.ldW 0 { xr := 1, p := 2, pm := true, m := 3 }) := by decide
theorem test_word_branch : facetDecode 0 0x317FFFFF = some (.br 0 2 0x7FFFFF) := by decide
theorem test_word_rep : facetDecode 0 0x38400001 = some (.rep 0 (.imm 1024) 1) := by decide
theorem test_word_end : facetDecode 0 0x40400000 = some (.end_ 0) := by decide
theorem test_word_none : facetDecode 0 0 = none := by decide

-- Facet operations: core 0 with an item, and the Lamp

/-- Core 0 runs an item, with q's registers. -/
def withCore (q : CoreSt) (c : Nat) : State := { running with cores := [(c, q)] }
def aCore : CoreSt := { item := some { desc := List.replicate 16 0, list := 0 }, bleft := 0xFFFFFFFF }
def onFacet (q : CoreSt) : State := withCore q 0

theorem ready_facet : Ready 1 0 (onFacet aCore) ∧ Ready 3 0 (onFacet aCore) ∧ Ready 4 0 (onFacet aCore) :=
  ⟨⟨by decide, by decide, by decide, by decide, by decide⟩, ⟨by decide, by decide, by decide, by decide, by decide⟩,
    ⟨by decide, by decide, by decide, by decide, by decide⟩⟩
theorem ready_lamp : Ready 1 1024 running ∧ Ready 3 1024 running ∧ Ready 4 1024 running :=
  ⟨⟨by decide, by decide, by decide, by decide, by decide⟩, ⟨by decide, by decide, by decide, by decide, by decide⟩,
    ⟨by decide, by decide, by decide, by decide, by decide⟩⟩

theorem wit_integer_operations : operands aCore (.par 7 0 ⟨none, none⟩) = some (15, 0, 0) ∧
    operands aCore (.alu3 15 0 15) = some (15, 0, 0) ∧ operands aCore (.alui 0 15 0x3FFF) = some (0, 0, 0xFFFFFFFF) ∧
    registers aCore (.alu3 15 15 15) = some (15, 0, 0) ∧ source aCore (.alu3 15 15 0) = some (15, 0) := by decide
theorem wit_accumulators : factors aCore (.par 3 7 0 ⟨none, none⟩) = some (3, 0, 0) ∧ factors aCore (.full 3 15 15) = some (3, 0, 0) ∧
    cleared (.par 3 0 0 ⟨none, none⟩) = some 3 ∧ cleared (.full 3 0 0) = some 3 ∧ (0 : BitVec 7).toInt = 0 ∧
    (-1 : BitVec 7).toInt < 0 := by decide
theorem wit_redundant : Redundant (-1 : BitVec 80) 79 ∧ Redundant (1 : Word) 30 := by
  constructor
  · refine ⟨by decide, ?_, Or.inl rfl⟩
    intro i _ h
    have : ∀ k : Fin 80, (-1 : BitVec 80).getLsbD k.val = (-1 : BitVec 80).msb := by decide
    exact this ⟨i, h⟩
  · refine ⟨by decide, ?_, Or.inr (by decide)⟩
    intro i l h
    have : ∀ k : Fin 32, 1 ≤ k.val → (1 : Word).getLsbD k.val = (1 : Word).msb := by decide
    exact this ⟨i, h⟩ (by omega)
theorem wit_shifts : shift aCore (.alui 0 0 63) = some (0, 0, 63) ∧ shift aCore (.alu3 15 0 1) = some (15, 0, 0) ∧
    compared aCore (.alui 0 15 0) = some (0, 0) ∧ compared aCore (.alu3 0 0 15) = some (0, 0) ∧
    single (.par 3 7 0 ⟨none, none⟩) = some (3, 15) ∧ single (.full 3 15 0) = some (3, 15) ∧
    running.fl2 = true := by decide
theorem wit_near_moves : Near 0 { aCore with p := Vector.replicate 8 0xFFFC } 0 4 ∧ Near 0 { aCore with p := Vector.replicate 8 0xFFFE } 7 2 ∧
    Near 0 { aCore with p := Vector.replicate 8 0xFFFF } 7 1 ∧ Near 1024 { p := Vector.replicate 8 0x3FFFFC } 7 4 := by
  refine ⟨⟨by decide, by decide, by decide⟩, ⟨by decide, by decide, by decide⟩, ⟨by decide, by decide, by decide⟩, ⟨by decide, by decide, by decide⟩⟩
theorem wit_reservation : { aCore with resv := some (.near 0) }.resv = some (.near 0) ∧ aCore.resv ≠ some (.near 0) := by decide
/-- Two loads of one core, of words in different banks, and of the same word. -/
theorem wit_parallel_moves :
    let mv : Moves := ⟨some { store := false, r := 0, q := 0, pm := .own }, some { store := true, r := 1, q := 0, pm := .own }⟩
    let q : CoreSt := { aCore with p := Vector.replicate 8 0xFFFC }
    (∀ m ∈ parMoves mv, (q.getP m.p).toNat < 0x10000 ∧ (q.getP m.p).toNat % 4 = 0 ∧ Tbl.get 0 q.badD ((q.getP m.p).toNat / 4) % 64 = 0) ∧
      (parMoves mv).length = 2 ∧ q.bankConflict 0 (parMoves mv) = false := by decide
theorem wit_flow : taken aCore.fl 1 = false ∧ taken aCore.fl 0 = true ∧ targetOk 0 0 0 ∧ targetOk 0 0 4095 ∧
    (0x3FFC : Word).toNat % 4 = 0 ∧ (aCore.ld = 0 ∧ aCore.susp = 0) := by
  refine ⟨by decide, by decide, Or.inr (by decide), Or.inr (by decide), by decide, by decide⟩
theorem wit_privileged : (running.core 1024).st = 0x0900 ∧ bitOf (running.core 1024).st 4 = false ∧ bitOf (running.core 1024).st 7 = false ∧
    facetDecode 0 0 = none ∧ running.flt.injMode = 0 := by decide
theorem wit_item : descSpec (List.replicate 16 0) = false ∧ bitOf (dword (List.replicate 16 0) 4) 4 = false ∧
    { running with dbg := { running.dbg with level := 2 } }.dbg.level = 2 := by decide
theorem wit_control_registers : aCore.crOk 0 0x24 = true ∧ aCore.crOk 0 0 = true ∧ aCore.crOk 0 0x0F = true ∧ ({} : CoreSt).crOk 1024 0x38 = true ∧
    aCore.crOk 0 2 = false ∧ aCore.dmas.length < 4 ∧ (0x10000 : Word).toNat % 2 ^ 17 = 65536 ∧ aCore.dla.toNat + 65536 ≤ 0x10000 := by decide
theorem wit_conditions : (1 : Nat) ≤ 1 ∧ bitOf (1 : BitVec 16) 0 = true := by decide

-- window accesses, items, clusters, the Lamp, lists, mailboxes and locks

/-- A USER region of 1 MiB at 0 whose first page has been written, on live stacks. -/
def buffers : State := { running with dbm := {
  regions := [(2, { base := 0, size := 1, type := 6, tcode := 3, valid := true })],
  cleared := 0xF,
  pages := [(0, pageCode 32 0)] } }

/-- Core 0's registers with pointers through the remote window (R223) at its last word. -/
def farCore : CoreSt := { aCore with p := Vector.replicate 8 0x3FFFC, rbase := 0 }
theorem wit_window_accesses : farCore.target 0 0x3FFFC false = .remote 0xFFFC ∧ farCore.target 0 0x3FFFC true = .remote 0xFFFC ∧
    farCore.target 0 0x20000 false = .table 0 ∧ inRegs 0xFFFC = false ∧ farCore.stores.length < 8 ∧
    { farCore with resv := some (.remote (0xFFFC / 64)) }.resv = some (.remote (0xFFFC / 64)) := by decide
theorem wit_remote_answers : State.coreLive buffers 0 = true ∧ buffers.storeBlocked { addr := 0, bytes := [0, 0, 0, 0] } = false := by decide
theorem wit_remote_load : buffers.devRead (coreReq 0 none) (some 0) 0 4 [] = (.data [some 0, some 0, some 0, some 0], buffers) := by rfl
theorem wit_store_ack : (buffers.devWrite (coreReq 0 none) (some 0) 0 [1, 2, 3, 4] []).1 = .ok := by rfl
theorem wit_dma : buffers.dmaRead (coreReq 0 none) 0 0 4 [] = (List.map .ok [0, 0, 0, 0], buffers) := by rfl
theorem wit_clean_page : CleanPage buffers 0 := ⟨by decide, by decide, by decide, by decide⟩

/-- A descriptor with a core mask, a budget and no completion record; one that asks for a record on ring 15. -/
def aDesc : Desc := [0xFFFF0000, 0, 0, 1, 0, 0, 0, 0, 0, 0, 0, 0, 0, 0, 0, 0]
def askDesc : Desc := [0xFFFF0000, 0, 0, 1, 0x1F, 0, 0, 0, 0, 0, 0, 0, 0, 0, 0, 0]
/-- A list of die 3 holds one item, and the scheduler runs. -/
def listed : State := ({ running with scheds := [(3, { lists := [(63, [aDesc])] })] } : State).store .schCtrl [3] 1
theorem wit_dispatch : listed.readyList 3 63 = [] ++ aDesc :: [] ∧ listed.rb .schCtrl [3] 0 = true ∧ listed.rb .cluCtrl [3, 15] 0 = false ∧
    (listed.core 1023).prefetch = none ∧ (listed.core 1023).item = none ∧ listed.eligible 1023 aDesc = true ∧
    listed.coreLive 1023 = true := by decide
theorem wit_item_start : (dword aDesc 0).toNat % 4 = 0 ∧ (dword aDesc 0).toNat % 16384 = 0 ∧ aCore.dbg.halted = false := by decide
theorem wit_item_end : { aCore with ending := true }.ending = true ∧ descSpec aDesc = false ∧ bitOf (dword aDesc 4) 4 = false ∧
    aCore.drained = false ∧ aCore.stores = [] ∧ aCore.dmas = [] := by decide
/-- Ring 15 of die 0, of one place, is enabled and full, and 15 records wait. -/
def fullRing : State := ({ running with
  cores := [(0, { item := some { desc := askDesc, list := 63 }, ending := true })],
  scheds := [(0, { rings := [(15, { prod := 1, hold := List.replicate 15 [] })] })] } : State).store .schCringCtl [0, 15] 0x20
theorem wit_completion_waits : fld (dword askDesc 4) 0 4 = 15 ∧ bitOf (dword askDesc 4) 4 = true ∧ descSpec askDesc = false ∧
    fullRing.rb .schCringCtl [0, 15] 5 = true ∧ fullRing.cringFull 0 15 = true ∧ (fullRing.cring 0 15).hold.length = 15 := by decide

/-- A cluster that a snoop is on its way to; a parked one with a source and span set. -/
def snooped : State := { running with noc := { running.noc with snoops := [(63, 0)] } }
theorem wit_snoop : snooped.noc.snoops.contains (63, (0 : Addr).toNat / 64) = true := by decide
def parkedState : State := (running.store .cluCtrl [3, 15] 1).store .cluLdSpan [3, 15] 0x00010FFF
theorem wit_park : ({ running with cores := [(1023, { prefetch := some { desc := aDesc, list := 0 } })] } : State).core 1023 =
    { prefetch := some { desc := aDesc, list := 0 } } ∧ 1023 ∈ clusterCores 63 ∧ (running.cluster 63).ldBusy = false := by decide
theorem wit_loader_go : parkedState.parked 63 = true ∧ parkedState.rd64 .cluLdSrc [3, 15] % 4 = 0 ∧
    fld (parkedState.rd .cluLdSpan [3, 15]) 0 12 = 4095 ∧ fld (parkedState.rd .cluLdSpan [3, 15]) 16 13 = 1 := by decide
theorem wit_loader_done : buffers.bufRead { cls := .lamp, rnum := BitVec.ofNat 8 (16 + 63) } 0 (4 * 1) [] = (List.map .ok [0, 0, 0, 0], buffers) := by
  rfl
/-- The Lamp with line 31 pending, unmasked and enabled; with the non-maskable interrupt pending. -/
def lampLine : CoreSt := { st := 0x0920, ipend := 0x80000000, imask := 0x80000000 }
theorem wit_lamp_line : running.coreLive 1024 = true ∧ (lampLine.nmiPend && !bitOf lampLine.st 6) = false ∧ bitOf lampLine.st 5 = true ∧
    bitOf (lampLine.ipend &&& lampLine.imask) 31 = true ∧ (∀ j : Fin 31, bitOf (lampLine.ipend &&& lampLine.imask) j.val = false) := by decide
theorem wit_lamp_nmi : { lampLine with nmiPend := true }.nmiPend = true ∧ bitOf lampLine.st 6 = false := by decide
theorem wit_watchdog : (running.store .wdgCtrl [] 1).rb .wdgCtrl [] 0 = true ∧ (running.store .wdgCtrl [] 1).wdg.stage = false ∧
    { (running.store .wdgCtrl [] 1) with wdg := { stage := true, lampReset := false } }.wdg.stage = true ∧ lampReq.cls = .lamp ∧
    fld (0x4C4D : Word) 0 16 = 0x4C4D := by decide

theorem wit_posts : descOk aDesc = true ∧ running.heldItems 3 63 < running.rf .schList [3, 63, 0] 0 13 ∧
    (running.store .schList [3, 63, 0] 0).rf .schList [3, 63, 0] 0 13 ≤ 0 ∧ descOk [] = false ∧ aDesc.length = 16 ∧
    (running.store .portSel [0, 1] 0x20).portAttached 0 1 0 = true ∧ descOk (List.replicate 16 0) = false := by decide
/-- A record waits for ring 15 of die 0, which lies in the written page. -/
def ringWaits : State := ({ buffers with scheds := [(0, { rings := [(15, { hold := [List.replicate 8 0] })] })] } : State).store .schCringCtl [0, 15] 0x20
theorem wit_ring_release : (ringWaits.cring 0 15).hold = [List.replicate 8 0] ∧ ringWaits.rb .schCringCtl [0, 15] 5 = true ∧
    ((ringWaits.cring 0 15).prod - (ringWaits.cring 0 15).cons).toNat ≠ 2 ^ 0 ∧ ringWaits.rf .schCringCtl [0, 15] 0 5 = 0 := by decide
theorem wit_ring_write : (ringWaits.memWrite engine 0 (List.replicate 32 0) []).1 = List.replicate 32 (.ok 0) := by rfl

/-- Mailbox 127 between the host (A) and the Lamp (B), with 7 words in each direction. -/
def posted : Mailbox := { sideA := 1, sideB := 2, valid := true, mode := true, ab := { msgs := [[1, 2]], opened := [1, 2, 3, 4, 5] }, ba := { msgs := [[7]] } }
def mailed : State := { running with mbxs := [(127, posted), (0, { posted with mode := false })] }
theorem wit_mailbox : mailed.mbx 127 = posted ∧ posted.valid = true ∧ posted.sideA = hostReq.rnum ∧ posted.sideB = lampReq.rnum ∧
    posted.sideA ≠ lampReq.rnum ∧ (posted.out false).words = 7 ∧ (posted.out false).opened.length < 7 ∧
    (posted.out true).msgs = [[7]] ∧ (posted.out false).msgs = [1 :: [2]] ∧ (posted.side true).ienMsg = false ∧
    (mailed.mbx 0).mode = false := by decide

/-- Locks: free, owned by requester 1, with a full waiter list, and in a grace window for requester 16. -/
def locked : State := { running with locks :=
  [(255, { owner := 1, waiters := [16, 17, 18, 19, 20, 21, 22, 23] }), (1, { waiters := [16, 17], grace := true })] }
theorem wit_locks : (locked.lock 0).owner = 0 ∧ (locked.lock 0).grace = false ∧ (locked.lock 255).owner = hostReq.rnum ∧
    (locked.lock 255).waiters.length = 8 ∧ (locked.lock 1).grace = true ∧ lampReq.rnum ≠ (locked.lock 1).waiters.headD 0 ∧
    facetReq.rnum = (locked.lock 1).waiters.headD 0 := by decide

-- lanes and the channel front end

/-- The last lane of the part, with its receiver enabled, at LIT (state 9 here), and its anchor valid. -/
def lastLane : LaneId := { die := 3, bundle := 15, lane := 6 }
def laneState (x : LaneSt) : State := ({ running with lanes := [((LaneId.ln lastLane).key, x)], tb := { loaded := true, counting := true } } : State).store
  .laneBctrl [3, 15] 0x40
theorem wit_clock_window : running.laneOn (LaneId.ln lastLane) = true ∧ running.rb .laneBctrl [3, 15] 10 = false ∧
    (decide (120 ≤ 120 ∧ 120 ≤ 136) = true) ∧ (decide (60 ≤ 68 ∧ 68 ≤ 68) = true) := by decide
theorem wit_sweep_done : bestRun 0x3F = (0, 6) ∧ bestRun 0x1F = (0, 5) ∧ bestRun (BitVec.allOnes 32) = (0, 32) ∧
    ((laneState { sweeping := true }).lane (LaneId.ln lastLane).key).sweeping = true := by decide
theorem wit_lsm : (laneState {}).laneHeld (LaneId.ln lastLane) = false ∧ (laneState {}).lsmExit (LaneId.ln lastLane) {} = some (2, 1) ∧
    (laneState { st := 2 }).lsmExit (LaneId.ln lastLane) {} = none ∧ (laneState { st := 2 }).lsmTimeoutOf (LaneId.ln lastLane) = (200, 1) ∧
    running.laneHeld (LaneId.ln lastLane) = true := by decide
theorem wit_code_group : (laneState { offsetValid := true }).laneOn (LaneId.ln lastLane) = true ∧
    (laneState { offsetValid := true }).rawMode (LaneId.ln lastLane) = false ∧ ({ rx := .frame [] } : LaneSt).rx = .frame [] ∧
    (laneState {}).isLit (LaneId.ln lastLane) = false ∧ ({} : LaneSt).rx = .idle ∧ ({} : LaneSt).looping = false := by decide
/-- K27.7 D21.5 K29.7, K28.3 D0.0 D0.0 D0.0 D0.4 and K28.3 D0.0 D0.0 K28.5 at disparity −, by hand from the code's tables; and
a word that is no group. -/
theorem test_line_code : groups false [0x368, 0x2AA, 0x2E8] = [.k27_7, .data 0xB5, .k29_7] ∧
    groups false [0x0F3, 0x18B, 0x18B, 0x18B, 0x18D] = [.k28_3, .data 0, .data 0, .data 0, .data 0x80] ∧
    groups false [0x0F3, 0x18B, 0x18B, 0x305] = [.k28_3, .data 0, .data 0, .k28_5] ∧ groups false [0] = [.codeError] := by
  decide +kernel
theorem wit_lane_writes : running.live (domLG 3 15) = true ∧ fld (0xFF000040 : Word) 8 4 = fld (running.rd .laneBctrl [3, 15]) 8 4 ∧
    bitOf (0xFF000040 : Word) 11 = false ∧ running.oldInUse 3 = false ∧ running.shadeBad 3 = false ∧
    (running.lane (LaneId.ln lastLane).key).st = 0 := by decide
theorem wit_frames : (laneState { st := 6 }).isLit (LaneId.ln lastLane) = true ∧ (laneState {}).isLit (LaneId.ln lastLane) = false ∧
    (laneState {}).tb.loaded = true ∧ (laneState {}).rawMode (LaneId.ln lastLane) = false ∧
    ((laneState {}).store .laneBctrl [3, 15] 0x800).rawMode (LaneId.ln lastLane) = true ∧
    (laneState {}).rb .cfeLaneCfg [3, 111] 13 = false := by decide
theorem wit_frame_sampled : ({ (laneState { st := 6 }) with cfeLanes := [(cfeKey 3 111, { anchor := some (0, 0) })] }.cfeLane (cfeKey 3 111)).anchor =
    some (0, 0) := by decide

/-- Channel 1791 of die 3 enabled. -/
def chanOn : State := running.store .chCfg [3, 1791] 1
theorem wit_channel : chanOn.rb .chCfg [3, 1791] 0 = true ∧ (chanOn.chan (3 * 1792 + 1791)).pend = none ∧
    (chanOn.chan (3 * 1792 + 1791)).pulse = none ∧ (chanOn.chan (3 * 1792 + 1791)).post = none ∧
    running.rb .chCfg [3, 1791] 0 = false ∧ chanOn.live (domCFE 3) = true := by decide
theorem wit_formats : (List.range 112).all (fun j => !running.rb .cfeLaneCfg [3, j] 13) = true ∧ fld (8 : Word) 0 4 ≤ 8 ∧ (fmtOf 8 0).len ≤ 2552 ∧
    (fmtOf 8 0).seqEn = false ∧ (fmtOf 0 0x01000002).seqEn = true ∧ (fmtOf 0 0x01000002).seqPos + 2 ≤ (fmtOf 0 0x01000002).hdr := by decide
theorem wit_lane_cfg : bitOf (0x3BC0 : Word) 13 = true ∧ fld (0x3BC0 : Word) 6 7 + (running.fmt 3 (fld (0x3BC0 : Word) 0 6)).nch = 112 ∧
    running.slotClash 3 111 0x3BC0 = false := by decide

-- windows

/-- A hit record at timestamp t; die 3's WSU running with window 2^14 − 1 oldest, W = 64, P = 31; and its hit queue of bundle 15. -/
def aHit (t : Stamp) : HitRec := { ts := t, channel := 0, amp := 0, tot := 0, integral := 0, uns := false, deg := false, sat := false,
                                   long := false, pile := false, pen := false, late := false }
def sorting (t : Stamp) : State := (({ running with
  wsus := [(3, { running := true, width := 64, pen := 31, late := 1, oldest := 1 })], hitq := [(63, [aHit t])] } : State).store .portSel [3, 0] 0x20)
theorem wit_sort : (sorting 0xBF).hitQueue 63 = [aHit 0xBF] ∧ ((sorting 0xBF).wsu 3).running = true ∧ (0xBF : Stamp).toNat = 2 * 64 + 63 ∧
    63 < 64 ∧ 2 * 31 < 64 ∧ ((sorting 0xBF).wsu 3).oldest < 2 ∧ (sorting 0xBF).windowPorts 3 = true ∧ ((sorting 0xBF).wsu 3).whit.length < 511 ∧
    (running.wsu 3).running = false ∧ 2 ^ 63 ≤ (0xFFFFFFFFFFFFFFFF : Stamp).toNat := by decide
theorem wit_windows_start : bitOf (0xF01 : Word) 1 = running.rb .mrgCtrl [] 1 ∧ running.rb .mrgCtrl [] 0 = false ∧ 64 ≤ running.mrgW ∧
    running.mrgW ≤ 2 ^ 22 ∧ 2 * running.mrgP < running.mrgW ∧ running.mrgL ≠ 0 ∧ running.rf .mrgWait [] 0 16 ≠ 0 ∧ fld (0xF01 : Word) 8 4 ≠ 0 ∧
    (running.store .mrgCtrl [] 1).rb .mrgCtrl [] 0 = true := by decide
/-- Window 0 of die 3 may close when the tick is 4: W + P + 64 L = 159 fine units have passed; at tick 2, it may not. -/
def closing (t : BitVec 58) : State := { sorting 0 with
  tb := { tick := t, counting := true }, wsus := [(3, { running := true, width := 64, pen := 31, late := 1, windows := [{ m := 0, count := 1 }] })] }
theorem wit_window_close : ((closing 3).watermark 3).toNat * 64 = 192 ∧ 64 + 31 + 64 * 1 ≤ 192 ∧ ((closing 2).watermark 3).toNat * 64 < 64 + 31 + 64 * 1 ∧
    (((closing 3).wsu 3).acc 0).count ≠ 0 ∧ (closing 3).merge.sum = false ∧ (closing 3).windowPorts 3 = true ∧
    ((closing 3).wsu 3).wcls.length < 256 ∧ (closing 3).rb .schTmplCtrl [3] 7 = false := by decide

def aSummary : Summary := { id := 0, missing := 0, deg := false, forced := false, sat := false, ovf := false, start := 0, total := 0, groups := [] }
/-- The merge awaits die 3, whose summary of window 0 is on its way, or has arrived. -/
def merging (m : Merge) : State := { running with
  wsus := [(3, { running := true, joined := true })], merge := { m with running := true, sum := true, mask := 8 } }
theorem wit_merge : (merging {}).dieHeld 3 = false ∧ (merging {}).merge.stopping = none ∧
    Tbl.get [] (merging { inbox := [(3, [.summary 0 aSummary])] }).merge.inbox 3 = [.summary 0 aSummary] ∧ (merging {}).merge.next ≤ 0 ∧
    (merging {}).awaited 3 0 = true ∧ (∀ e : Fin 4, (merging {}).awaited e.val 0 = true → e.val = 3) ∧
    (3, 0, aSummary) ∈ (merging { arrived := [(3, 0, aSummary)] }).merge.arrived ∧ (merging {}).deadlineHeld = false ∧
    (0 + (0 + 1) * (merging {}).merge.width + (merging {}).merge.pen + 63) / 64 + (merging {}).merge.late +
      (merging {}).rf .mrgWait [] 0 16 ≤ (0xFFFFFF : BitVec 58).toNat := by decide

-- Glint

/-- A raw segment of die 0, an event pool and a hit segment, with rates set; the windows run and die 0 has joined; every register that
an issue asks for is set. -/
def glinting : State := (({ buffers with
  dbm := { buffers.dbm with
    pages := [(262144, pageCode 32 262144)]
    regions := [(3, { base := 0x100, size := 0x40, type := 5, valid := true }), (4, { base := 0x200, size := 0x40, type := 4, valid := true }),
      (5, { base := 0x1000, size := 0x1000, type := 3, valid := true })]
    rings := [(0, { rawRate := 1000, hitRate := 1, hitLog := [(0, aHit 0)] })] },
  merge := { running := true, mask := 15 } } : State).store .gltCtrl [] 0x4001).store .gltTypeMap [255] 0x10
theorem wit_requests : glinting.pool.isSome = true ∧ glinting.merge.running = true ∧ glinting.rb .gltCtrl [] 0 = true ∧ 100 ≤ glinting.gltLimit ∧
    glinting.staleRange (glinting.windowStart (glinting.unwrap 0) - BitVec.ofNat 64 (64 * glinting.rf .gltMargin [] 0 16)) = false ∧
    glinting.openSlots < glinting.rf .gltCtrl [] 8 7 ∧ (glinting.slot 0).state = 0 ∧ bitOf (glinting.typeMap 255) 4 = true ∧
    bitOf (glinting.typeMap 255) 5 = false ∧ bitOf (glinting.typeMap 255) 6 = false ∧ glinting.tb.degraded = false := by decide
theorem wit_last_slot : (({ glinting with glint := { slots := (List.range 63).map fun g => (g, { state := 1 }) } } : State).slot 63).state = 0 ∧
    ∀ j : Fin 63, (({ glinting with glint := { slots := (List.range 63).map fun g => (g, { state := 1 }) } } : State).slot j.val).state ≠ 0 := by
  decide
/-- Slot 63 in state st, its last generation. -/
def slotAt (x : GlintSlot) : State := ({ glinting with glint := { slots := [(63, x)] } } : State).store .schTmplCtrl [0] 0x7F
theorem wit_decisions : ((slotAt { state := 1, gen := 1023 }).slot 63).state = 1 ∧ (0xFFFF : BitVec 16).toNat = 63 + 64 * 1023 ∧
    (slotAt { state := 1, gen := 1023 }).handleExpired 0xFFFF = false ∧ ((slotAt { state := 4 }).slot 63).state = 4 ∧
    (100 : Nat) ≤ (100 : Word).toNat ∧ (slotAt {}).gltLimit = 4289705 := by decide
theorem wit_item_post : bitOf ((slotAt { state := 1, postDue := 1 }).slot 63).postDue 0 = true ∧ (slotAt {}).rb .schTmplCtrl [0] 0 = true ∧
    bitOf ((slotAt {}).slot 63).missing 0 = false ∧ (slotAt {}).rf .schTmplCtrl [0] 1 6 = 63 ∧ (slotAt {}).live (domFCA 0) = true := by decide
def copying : GlintSlot := { state := 2, chunks := 32768, pinHi := 64 }
theorem wit_copy : (slotAt copying).hitSeg 0 = some 4 ∧ ((slotAt copying).regionAt 4).lo = 0x200 * 2 ^ 20 ∧
    (0, aHit 0) ∈ ((slotAt copying).rings 0).hitLog ∧ (slotAt copying).wantsHit copying 0 (0, aHit 0) = true ∧
    (∀ d : Fin 4, ((slotAt copying).rings d.val).blocks = []) ∧ (slotAt copying).itemChunks + (copying.copied + 16 + 65535) / 65536 ≤ copying.chunks := by
  decide
theorem wit_copy_read : ((slotAt copying).setSlot 63 copying).readPiece (some 63) (0x200 * 2 ^ 20) 16 [] =
    (List.map .ok (List.replicate 16 0), (slotAt copying).setSlot 63 copying) := by rfl
theorem wit_publish_start : (slotAt { copying with scanHit := [(0, 1)] }).copyComplete 63 = true ∧ copying.itemsOut = 0 ∧ copying.postDue = 0 := by decide
/-- Ring 15 is enabled, 2^20 bytes long, the host's, and its next event starts at a 4 KiB page. -/
def publishing : State := ({ slotAt { state := 3, gen := 5, map := 0x1F } with hif :=
  { up := true, bme := true, rings := [(15, { prod := 0xF000, cons := 0xF000 })] } } : State).store .ringCtrl [15] 0x29 |>.store .dbmEvtCtrl [] 3
theorem wit_publish : (publishing.slot 63).state = 3 ∧ (publishing.slot 63).ring = 15 ∧ publishing.rb .ringCtrl [15] 0 = true ∧ publishing.canMaster = true ∧
    publishing.eventLen (publishing.slot 63) = 64 + 3 * 1024 ∧ 0xF000 % 4096 + (64 + 3 * 1024) ≤ 4096 ∧ publishing.rf .ringCtrl [15] 1 6 = 20 := by decide
theorem wit_accept : (0 : Int) ≤ ((5 : BitVec 58) - 5).toInt ∧ running.glint.lastAccept ≠ some 5 ∧ running.live domGPI = true ∧
    (running.store .gpiCtrl [] 1).rb .gpiCtrl [] 0 = true ∧ Tbl.get [] (Tbl.set [] running.glint.frames 63 [[1]]) 63 = [[1]] := by decide

-- the deep buffer and sealed regions

/-- Die 0's raw ring has one segment, and a block of 8 bytes waits at the last 8 bytes of a stripe; its hit ring waits with one record. -/
def ringing : State := { glinting with dbm := { glinting.dbm with
  rings := [(0, { rawRate := 1000, hitRate := 1, rawPos := 2040, elastic := [({ lane := 0, ts := 0, bytes := List.replicate 8 1 }, 64)],
                  hitElastic := [aHit 5] })] } }
theorem wit_ring_writes : ringing.ringActive 0 = true ∧ ringing.hitActive 0 = true ∧ ringing.segs 0 = [(0, 5)] ∧ ringing.hitSeg 0 = some 4 ∧
    0 < ringing.segBytes 0 ∧ 2040 % 2048 + 8 ≤ 2048 ∧ ringing.live (domNBC 0) = true ∧ (ringing.rings 0).blocks = [] := by decide
theorem wit_rates : (ringing.setRate 0 false 1000).resOk = true ∧ (ringing.setRate 0 false 0xFFFFFFFF).resOk = false ∧ ringing.oldPackets = 0 ∧
    ringing.noc.flipPending = false := by decide
theorem wit_slot_table : ∃ tab, (ringing.setRate 0 false 1000).shade (ringing.setRate 0 false 1000).spineNow = some tab := ⟨_, rfl⟩
theorem wit_region_write : (running.region 31).withWord 0 8 = { base := 8 } ∧ (0 : BitVec 4) ∈ ([0, 3, 4, 5, 6] : List (BitVec 4)) ∧
    running.regionInUse (running.region 31) = false ∧ buffers.regionValidOk 31 { base := 8, size := 8, type := 6, valid := true } = true ∧
    running.anyLaneEn 0 = false ∧ buffers.sealsRegion 31 = false ∧ ({ tcode := 5 } : Region).tcode.toNat ≤ 5 := by decide
theorem wit_region_table : (running.setRegion 31 { base := 8 }).resOk = true ∧
    ∃ tab, (running.setRegion 31 { base := 8 }).shade (running.setRegion 31 { base := 8 }).spineNow = some tab := ⟨by decide, _, rfl⟩
theorem wit_buffer_access : buffers.place 0 = .near 0 2 ∧ buffers.place 0x0FFFFF = .near 0 2 ∧ buffers.sealOf 2 = none ∧ 2047 % 2048 + 1 ≤ 2048 ∧
    buffers.place 0x100000 = .unmapped ∧ running.place (farBase 0) = .unmapped := by decide
/-- The same region in far half 0, of one 64 GiB module a channel, with its first granule written. -/
def farBuffers : State := { running with dbm := {
  regions := [(2, { base := 0x100000, size := 1, type := 6, valid := true })], half0 := { dimms := 1, size := 1, trained := true },
  farWords := [(farBase 0 / 4, true)] } }
theorem wit_far_read : farBuffers.place (farBase 0) = .far 0 2 ∧ farBuffers.sealOf 2 = none ∧
    farBuffers.readWords none [] (wordsOf (farBase 0) 4) = ([0, 0, 0, 0], true, farBuffers) := ⟨by decide, by decide, rfl⟩
theorem port_free : PortFree false running ∧ PortFree true running := by
  constructor <;> exact ⟨by decide, by decide, by decide, by decide, by decide⟩
theorem wit_buffer_commands : buffers.rangeCode 0 2048 = none ∧ buffers.fillCode 0 0x100000 = none ∧ buffers.rangeCode 0 0x1000 = none ∧
    buffers.rangeSeal 0 = none ∧ buffers.repairCode (nearEnd - 1) = none ∧ PortFree true buffers ∧ CleanPage buffers (0 / 2048 + 0) :=
  ⟨by decide, by decide, by decide, by decide, by decide, ⟨by decide, by decide, by decide, by decide, by decide⟩,
    ⟨by decide, by decide, by decide, by decide⟩⟩

/-- The written region sealed by entry 14 under key 14, which is LOADED; block 7 has its record, of count 9, in the cache; the
rights are h. -/
def sealedRec : List Byte := bytesOf 9 8 ++ sealTag (aesKeys (List.replicate 32 0)) 14 14 7 9 (List.replicate 256 0)
def recPage : TagPage := { addr := 983040, held := some (List.replicate 2048 0), recs := [(7, sealedRec)] }
def sealedAt (h : BitVec 14) : State := { buffers with sre := {
  entries := [(14, { region := 2, key := 14, valid := true, rights := h })],
  keys := [(14, { state := 1, count := 9 })],
  cache := [recPage] } }
theorem wit_sealed : (sealedAt 3).place 0x700 = .near 0 2 ∧ (sealedAt 3).sealOf 2 = some 14 ∧ 0x700 - ((sealedAt 3).regionAt 2).lo < sealedBytes ((sealedAt 3).regionAt 2) 14 ∧
    ((sealedAt 3).sealEntry 14).key.toNat = 14 ∧ ((sealedAt 3).keySlot 14).state = 1 ∧ ((sealedAt 3).keySlot 14).fenced = false ∧
    (sealedAt 3).recordAddr 14 (0x700 / 256) = 983152 ∧ recordSlot 983152 = 7 ∧ (sealedAt 3).right .host 14 = 3 ∧
    (sealedAt 2).right .host 14 = 2 ∧ (sealedAt 1).right .host 14 < 3 ∧ (sealedAt 3).condemned 14 7 = false ∧ (sealedAt 3).sre.fails.length < 64 := by
  decide
theorem wit_sealed_record : (sealedAt 3).tagPage 983152 = some recPage ∧ Tbl.get [] recPage.recs 7 = sealedRec ∧
    cacheSize (sealedAt 3).sre.cache ≤ 2097152 ∧ wordOfBytes (sealedRec.take 8) = 9 ∧
    (sealedAt 3).sealKeys 14 = aesKeys (List.replicate 32 0) ∧ Memory.bytes (sealedAt 3).mem 0x700 256 = List.replicate 256 0 ∧
    sealTag (aesKeys (List.replicate 32 0)) 14 14 7 9 (List.replicate 256 0) = sealedRec.drop 8 :=
  ⟨rfl, rfl, by decide +kernel, (congrArg wordOfBytes (List.take_left' (by decide))).trans (by decide),
    congrArg aesKeys (by decide), by decide +kernel, (List.drop_left' (by decide)).symm⟩
theorem wit_record_length : sealedRec.length = 16 := by decide +kernel
theorem wit_records : recPage.recs ≠ [] ∧ recPage.addr < nearEnd ∧ (sealedAt 0).live domSEC = true ∧
    (sealedAt 0).keyOfTags recPage = 14 ∧ bitOf (0x4000 : BitVec 16) 14 = true ∧ running.sre.cache = [] ∧
    (running.keySlot 14).state = 0 ∧ ((sealedAt 0).keySlot 14).dirty = false ∧ ((sealedAt 0).sealEntry 14).valid = true ∧
    ((sealedAt 0).sealEntry 14).key.toNat = 14 ∧ (running.sealEntry 0).valid = false := by decide
theorem wit_seal_writes : (running.sealEntry 14).valid = false ∧ (running.regionAt 31).valid = false ∧ (running.keySlot 14).state ≠ 2 ∧
    fld (0x3DF : Word) 0 5 = 31 ∧ fld (0x3DF : Word) 5 4 = 14 ∧ bitOf (0x3DF : Word) 9 = true ∧
    (∀ j : Fin 15, (running.sealEntry j.val).valid = false) ∧ fld (0 : Word) 12 2 ≤ fld (3 : BitVec 14) 12 2 ∧
    fld (0x1FFF : BitVec 14) 12 2 < fld (0x3FFF : Word) 12 2 := by decide

-- the fabric's shell

theorem wit_fpll : running.fpllHeld 3 3 1 0 = false ∧ running.fpllOk 3 3 1 0 = true ∧ running.fpllHeld 3 3 0 0x10A0 = false ∧
    running.fpllOk 3 3 0 0 = false ∧ running.fpllOk 3 3 1 1 = false := by decide
theorem wit_fpll_word : running.fpllOk 3 3 0 0x1150 = true := by
  unfold State.fpllOk
  generalize Config.grade2 = g
  revert g
  decide
theorem wit_pll_lock : (running.store .fpll [3, 3, 0] 0x1000).rb .fpll [3, 3, 0] 12 = true ∧ running.clk.holding = false ∧ running.on (domDie 3 3) = true ∧
    (running.pll 3 0).locked = false ∧ (({ running with fabs := [(3, { plls := [(3, { locked := true })] })] } : State).pll 3 (15 / 4)).locked = true ∧
    bitOf (running.fab 3).gcPending 29 = false := by decide
theorem wit_port_clock : running.groupDetached 3 5 = true ∧ running.rf .portSel [3, 5] 0 5 = 0 ∧
    ((running.store .portSel [3, 5] 0x20).groupDetached 3 5 = false) ∧ fld (29 : Word) 0 5 < 30 ∧ 30 ≤ fld (30 : Word) 0 5 := by decide

/-- Every port group of die 3 attached. -/
def attached : State := ((((((running.store .portSel [3, 0] 0x20).store .portSel [3, 1] 0x20).store .portSel [3, 2] 0x20).store .portSel [3, 3] 0x20).store
  .portSel [3, 4] 0x20).store .portSel [3, 5] 0x20)
theorem wit_ports : attached.portAttached 3 4 3 = true ∧ attached.portAttached 3 5 0 = true ∧ attached.portAttached 3 2 3 = true ∧
    (List.replicate 4 (0 : Byte)).length ≤ 1021 ∧ running.portAttached 3 5 0 = false ∧ (running.fab 3).regp = [] ∧
    attached.live (domBRG 3) = true ∧ attached.bridgeUp 3 = true ∧ attached.live (domDie 3 0) = true ∧
    ({ running with pw := { on := 0 } } : State).live (domBRG 3) = false := by decide
theorem wit_netp : attached.portAttached 3 2 3 = true ∧ buffers.place 0x7C0 = .near 0 2 ∧ 0x7C0 % 2048 + 64 ≤ 2048 ∧
    (∀ i : Fin 64, (BitVec.allOnes 64).getLsbD i.val = true) := by decide
theorem wit_pane : running.on (domDie 3 (paneQuad 1919)) = true ∧ Tbl.get 0 (running.fab 3).paneErr (paneKey 1919 2047) = 0 ∧
    running.paneWord 3 1919 2047 = 0 := by decide
theorem wit_pane_write : (0xFF0000FF : BitVec 39).toNat < 2 ^ 32 ∧
    ∀ i : Fin 4, fld (0xFF0000FF : BitVec 39) (8 * i.val) 8 = fld (if bitOf (9 : BitVec 4) i.val then (BitVec.allOnes 39) else running.paneWord 3 1919 2047) (8 * i.val) 8 := by
  decide

-- the bridges and the network

/-- Die 3's bridge is b. -/
def bridged (b : Bridge) : State := { running with brg := { running.brg with dies := [(3, b)], level := 0 }, clk := { locked := 0xFF } }
theorem wit_train : (bridged {}).on (domBRG 3) = true ∧ bitOf (bridged {}).clk.locked 3 = true ∧ bitOf (bridged {}).clk.locked 4 = true ∧
    ((bridged { state := 6 }).bridge 3).state = 6 ∧ (bridged {}).brg.level = 0 ∧ bitOf (bridged {}).su.ended 3 = true ∧
    (2 : BitVec 2).toNat < 3 ∧ ((bridged {}).bridge 0).state ≠ 7 ∧ ((bridged {}).bridge 0).state ≠ 9 := by decide
theorem wit_retrain : ((bridged { state := 7 }).bridge 3).state = 7 ∧ (running.store .brgCtrl [3] 0x100).rb .brgCtrl [3] 8 = true ∧
    ({} : Bridge).upCks = false ∧ ({ state := 8 } : Bridge).state = 8 ∧ hostOrLamp facetReq = false := by decide
theorem wit_assign : ∃ b, (bridged { state := 3, swept := true }).assignDir 3 { state := 3, swept := true } false = some b := ⟨_, rfl⟩
theorem wit_assign_both : ((bridged { state := 3, swept := true }).assignDir 3 { state := 3, swept := true } false).bind
    (fun b => (bridged { state := 3, swept := true }).assignDir 3 b true) ≠ none := by
  intro h
  exact absurd (congrArg Option.isSome h) (by decide)
theorem wit_traffic : running.routerOn (.mesh 3 287) = true ∧ running.routerOn (.spine 63) = true ∧ (running.oldPackets = 0) ∧
    ({ running with pw := { on := 0x1000000000 } } : State).live 47 = false ∧ ({ running with pw := { on := 0x1000000000 } } : State).on domSPN = true ∧
    (running.on (domBRG 3)) = true := by decide
theorem wit_flip : running.noc.flipPending = false ∧ (∃ tab, running.shade running.spineNow = some tab) ∧
    ({ running with noc := { running.noc with flipPending := true, marksDue := 8 } } : State).noc.flipPending = true ∧
    bitOf ({ running with noc := { running.noc with flipPending := true, marksDue := 8 } } : State).noc.marksDue 3 = true ∧
    (∀ d : Fin 4, bitOf running.noc.marksDue d.val = false) := ⟨by decide, ⟨_, rfl⟩, by decide, by decide, by decide⟩

-- power and heat

/-- The part in profile p, shed to step k. -/
def shed (k : BitVec 3) (warn : Bool) : State := { running with pw := { running.pw with step := k, warn := warn } }
theorem wit_power : running.on 47 = true ∧ running.profileCode 255 = some 0x38 ∧ running.profileCode 2 = none ∧ (shed 6 false).profileCode 0 = none ∧
    fld (99 : Word) 0 16 < 100 ∧ 100 ≤ fld (100 : Word) 0 16 ∧ running.su.thermalOff = false ∧ running.su.dark = false ∧
    running.rb .pmgCtrl [] 0 = true := by decide
theorem wit_shedding : running.rf .pmgLimit [] 0 16 * 1000 = 520000 ∧ (shed 0 false).nextStep = some 1 ∧ (shed 3 false).nextStep = some 4 ∧
    (shed 6 false).anyShedOk = false ∧ 467999 * 10 < 520000 * 9 ∧ (shed 1 false).pw.warn = false := by decide
def heated (x : Sensor) : State := { running with pw := { running.pw with sensors := [(95, x)] } }
theorem wit_heat : ((heated { failed := true }).sensor 95).failed = true ∧ (running.sensor 95).failed = false ∧ (running.sensor 95).missed = 0 ∧
    1 ≤ ((heated { missed := 1 }).sensor 95).missed ∧ (-440 : Int) ≤ 839 ∧ (840 : Int) ≤ 879 ∧ (920 : Int) ≤ 1200 ∧ (1200 : Int) < 1201 := by decide
theorem wit_overcurrent : running.on 36 = true ∧ running.live 47 = true ∧ running.live 0 = true ∧ running.dieState (35 / 9) ≠ 3 ∧ 35 % 9 = 8 := by decide

-- domains and dies

/-- The part with the supplies and fences given, and die 3 (dieState 0xAA: every die in RUN) in the state given. -/
def domains (on fenced isolated : BitVec 48) (ecl : Tbl (Option EclSeq)) (dies : BitVec 8) : State :=
  { running with
    pw := { running.pw with on := on, fenced := fenced, isolated := isolated, ecl := ecl },
    su := { running.su with dieState := dies, restoreOk := true } }
def allOn : BitVec 48 := BitVec.allOnes 48
theorem wit_eclipses : running.dieState (35 / 9) = 2 ∧ running.on (domBRG 3) = true ∧ running.live 47 = true ∧ running.live 37 = true ∧ running.live 34 = true ∧
    34 % 9 ≠ 8 ∧ (domains allOn 0 0 [(47, some { whole := false, cause := 7 })] 0xAA).seqOf 47 = some (47, { whole := false, cause := 7 }) ∧
    bitOf (domains allOn 0 0 [] 0xAA).pw.isolated 47 = false := by decide
theorem wit_power_offs : (domains allOn 0 (BitVec.allOnes 48) [(47, some { whole := false, cause := 0 })] 0xAA).seqOf 47 = some (47, { whole := false, cause := 0 }) ∧
    (domains allOn 0 (BitVec.allOnes 48) [(35, some { whole := true, cause := 1 })] 0xAA).seqOf 30 = some (35, { whole := true, cause := 1 }) ∧
    (domains allOn 0 (BitVec.allOnes 48) [(47, some { whole := false, cause := 0, back := true })] 0xAA).seqOf 47 =
      some (47, { whole := false, cause := 0, back := true }) ∧ bitOf (BitVec.allOnes 48) 47 = true := by decide
theorem wit_domain_requests : running.domCode 63 true = 0x30 ∧ running.domCode 36 false = 0x30 ∧ running.domCode 47 true = 0 ∧
    (domains 0x0FFFFFFFFFFF 0 0 [] 0xAA).on 47 = false ∧ (domains 0x7FFFFFFFFFFF 0 0 [] 0xAA).domCode 47 false = 0 ∧
    (domains 0x7FFFFFFFFFFF 0 0 [] 0xAA).on 47 = false ∧ running.rstWriter hostReq = true ∧ running.rstWriter facetReq = false ∧
    running.su.domBusy = false ∧ running.dieOut (34 / 9) = false := by decide
theorem wit_power_on_done : (domains allOn 0x800000000000 0x800000000000 [] 0xAA).on 47 = true ∧
    bitOf (domains allOn 0x800000000000 0x800000000000 [] 0xAA).pw.fenced 47 = true ∧
    (domains allOn 0x800000000000 0x800000000000 [] 0xAA).seqOf 47 = none ∧ (domains allOn 0 0 [] 0xAA).dieState (34 / 9) = 2 := by decide
theorem wit_die_resets : (domains allOn 0 0 [] 0xAA).restoreCode 3 = 0 ∧ running.restoreCode 3 = 0x3D ∧ running.dieState 3 = 2 ∧
    running.su.dieBusy = false ∧ running.on (domBRG 3) = true ∧ bitOf running.su.ended 3 = true := by decide
theorem wit_core_resets : 1024 < (1025 : BitVec 11).toNat ∧ (domains allOn 0 0 [] 0x2A).dieOut (coreDie 1023) = true ∧
    running.dieOut (coreDie 1023) = false ∧ running.live (domFCA (coreDie 1023)) = true ∧ running.live domLMP = true := by decide
theorem wit_die_commands : (domains allOn 0 0 [] 0x2A).dieState 3 = 0 ∧ (domains allOn 0 0 [] 0xEA).dieState 3 = 3 ∧ (domains allOn 0 0 [] 0x6A).dieState 3 = 1 ∧
    running.cfg.staged = none ∧ running.cfg.tpActive = false ∧ (domains allOn 0 0 [] 0x2A).dieHot 3 = false ∧ (domains allOn 0 0 [] 0x2A).loadBusy = false ∧
    (domains allOn 0 0 [] 0x6A).bridge 3 = { state := 7 } ∧ (domains allOn 0 0 [] 0x6A).rf .rstDieReq [] 0 2 = 0 ∧
    (domains allOn 0 0 [] 0x6A).dieSettings 3 = [] ∧ (∀ e : Fin 4, running.dieState e.val ≠ 1) := by decide

-- start-up and resets

/-- The part as start-up has ended the phases given, with the clock given. -/
def started (ended : BitVec 6) (clk : Clocks) : State := { running with su := { ended := ended, bootFw := [0] }, clk := clk }
theorem wit_start_up : ({} : State).rails.vaux = false ∧ (started 0 {}).su.ended = 0 ∧ bitOf (started 1 {}).su.ended 0 = true ∧ bitOf (started 1 {}).su.ended 1 = false ∧
    (started 1 { refOk := true }).clk.refOk = true ∧ (started 1 { onLantern := true }).clk.onLantern = true ∧ (started 0 {}).rails.vaux = true ∧
    bitOf (started 3 {}).su.ended 1 = true ∧ bitOf (started 3 {}).su.ended 2 = false ∧ ({ started 3 {} with pw := {} } : State).on domSPN = false ∧
    (started 3 {}).rails.resetN = true ∧ (started 3 {}).rails.vinMain = true ∧ (started 3 {}).su.vinOff = false := by decide
theorem wit_hub_phase : bitOf ({ started 3 {} with dbm := { cleared := 8 } } : State).dbm.cleared 3 = true ∧
    (∀ n : Fin 12, (started 3 {}).live (36 + n.val) = true) ∧ (started 3 {}).capture = none := by decide
theorem wit_far_training : running.live (domFBC 1) = true ∧ running.rails.vioDdr = true ∧ running.dbg.extest = false ∧ (running.half 1).trained = false ∧
    (running.half 1).dimms = 0 ∧ (2 : BitVec 2) ≠ 3 := by decide
theorem wit_firmware : bitOf (started 0x07 {}).su.ended 2 = true ∧ bitOf (started 0x07 {}).su.ended 4 = false ∧ (started 0x07 {}).on domLMP = true ∧
    (started 0x07 {}).su.bootFw = [0] := by decide
theorem wit_firmware_refused : ((started 0x07 {}).stage 2 0 0 0 true).1 = some 0x15 := by decide
theorem wit_losses : running.on domSPN = true ∧ State.reset.on domSPN = false ∧ running.live (domFBC 0) = true ∧ running.live (domFBC 1) = true := by decide

/-- The link is up, with the function in the state given. -/
def linked (h : Hif) : State := { running with hif := { h with up := true } }
theorem wit_resets : running.rails.vaux = true ∧ running.resetRefused = false ∧
    ({ running with su := { running.su with vinOff := true }, rails := { running.rails with vinMain := false } } : State).resetRefused = true ∧
    running.rails.resetN = true ∧ running.rails.perstN = true ∧ running.su.dark = false ∧ running.on domPCI = true ∧ (linked {}).live domPCI = true ∧
    ({ running with su := { running.su with dark := true, darkPerst := true } } : State).su.darkPerst = true ∧ (linked { d3hot := true }).hif.d3hot = true ∧
    running.hif.up = true ∧ ({ running with hif := {} } : State).hif.up = false ∧ running.dbg.extest = false ∧ (8 : BitVec 4) ∈ ([1, 2, 4, 8] : List (BitVec 4)) ∧ 1 ≤ (5 : BitVec 3).toNat ∧
    (5 : BitVec 3).toNat ≤ 5 := by decide

-- timebase and clocks

/-- The part with the clock and the timebase given. -/
def clocked (clk : Clocks) (tb : Timebase) : State := { running with clk := { clk with locked := 0x1F }, tb := tb }
theorem wit_timebase : (clocked {} { counting := true, armed := true }).tb.armed = true ∧ (clocked {} { counting := true, edgeS := true }).tb.edgeS = true ∧
    (clocked {} {}).clk.holding = false ∧ (clocked {} {}).rb .mrgCtrl [] 0 = false ∧ (clocked {} {}).tb.counting = false ∧
    bitOf (clocked {} {}).clk.locked 4 = true ∧ running.on domSPN = true := by decide
theorem wit_not_lit : running.anyLit = false := by decide +kernel
theorem wit_ratio : fld (0x0102 : Word) 0 8 = 2 ∧ fld (0x0102 : Word) 8 8 = 1 ∧ 200000000 * 1 ≤ refHz 0 * 2 ∧ refHz 0 * 2 ≤ 800000000 * 1 ∧
    (1 ≤ fld (0x1040 : Word) 0 8 ∧ fld (0x1040 : Word) 0 8 ≤ 64 ∧ fld (0x1040 : Word) 8 8 = 16) := by decide
def lantern (c : Clocks) : State := clocked { c with lanternOk := true, lanternOn := true } {}
theorem wit_checks : (lantern {}).clk.glowLost = false ∧ 205 ≤ 205 ∧ 307 ≤ 307 ∧ (lantern { qualifying := true, checkPass := 1 }).clk.checkPass = 1 ∧
    (lantern {}).clk.refOk = false ∧ (lantern { refOk := true }).clk.refOk = true ∧ (lantern { onLantern := true }).clk.onLantern = true := by decide
theorem wit_monitor : (lantern {}).monLost 127 = true ∧ (lantern {}).monLost 128 = false ∧ (lantern {}).monPasses 128 = false ∧ (lantern {}).monPasses 251 = true ∧
    (lantern {}).monPasses 261 = true ∧ (lantern {}).monPasses 262 = false ∧ (lantern {}).clk.mclkSub = false := by decide
theorem wit_decision : (lantern { deciding := true, monFail := 2, g := 100 }).clk.g.toNat = 100 ∧ 98 * 100 ≤ 100 * 98 ∧ 100 * 102 ≤ 102 * 100 ∧ 100 * 97 < 98 * 100 := by
  decide
theorem wit_coarse : 40 * (lantern {}).fSel * 64 = 100 * 102 * 25000000 + 1000000000 ∧ 100 * 103 * 25000000 ≥ 40 * (lantern {}).fSel * 64 ∧ (lantern {}).clk.holdover = false := by
  decide
theorem wit_failover : (lantern { holding := true }).clk.holding = true ∧ (lantern { holding := true }).clk.noFallback = false ∧
    (lantern { onLantern := true, refOk := true }).clk.onLantern = true ∧ (lantern { lanternLost := true }).clk.lanternLost = true ∧
    (lantern { noFallback := true }).clk.noFallback = true ∧ (clocked { noFallback := true } {}).clk.lanternOk = false := by decide
def muxed (locked pending : Bool) : State := { running with fabs := [(3, { plls := [(3, { locked := locked })], gcPending := if pending then 0x20000000 else 0 })] }
theorem wit_muxes : gcTarget 0x9D = some (3, 29) ∧ gcTarget 0x9E = none ∧ gcTarget 3 = none ∧ gcTarget 0x20 = some (0, 0) ∧ ((muxed true false).pll 3 (15 / 4)).locked = true ∧
    bitOf ((muxed true false).fab 3).gcPending 29 = false ∧ bitOf ((muxed true true).fab 3).gcPending 29 = true ∧ 15 ≠ running.gcSrc 3 29 ∧
    ((muxed true false).store .gcSel [3, 29] 0xF).srcRuns 3 (((muxed true false).store .gcSel [3, 29] 0xF).gcSrc 3 29) = true ∧
    running.srcRuns 3 (running.gcSrc 3 29) = false := by decide
theorem wit_clkout : running.outSource 0 = some 100000000 ∧ running.outSource 16 = none ∧ running.outSource 7 = some 1600000000 ∧
    1600000000 ≤ 800000000 * (fld (0x10007 : Word) 16 16 + 1) ∧ 800000000 * (fld (0x7 : Word) 16 16 + 1) < 1600000000 ∧
    running.clk.outPending = false := by decide

-- configuration

theorem wit_loads : running.loadBusy = false ∧ running.quiet = true ∧ ((begun true 1 (portArgs 3 0 0 0 0) running).stage 0 1 3 0 true).1 = some 0x15 ∧
    ((begun true 2 (portArgs 63 32 0 0 0) running).stage 1 1 63 32 true).1 = some 0x15 ∧
    bitOf (running.pregWord 32) 2 = false := by decide
/-- A port load of an image, and of region 32, stands staged. -/
def staged (x : Staged) : State := { running with cfg := { running.cfg with staged := some x }, hif := { running.hif with busy := true, opcode := 2 } }
theorem wit_applies : (staged { type := 0, src := 1, slot := 3 }).cfg.staged = some { type := 0, src := 1, slot := 3 } ∧
    (staged { type := 1, src := 1, slot := 0, region := 32, part := some { region := 32, imgId := 0, frames := [], bytes := 0 } }).hif.busy = true := by decide
theorem wit_nv : nvTarget (0xF6 % 16) (0xF6 / 16) = none ∧ nvTarget (0x3F1 % 16) (0x3F1 / 16) = some (0x180000000 + 63 * 0x1000000, 0x1000000) ∧
    running.fwTarget (1 * 64 + 63) = false ∧ Tbl.get false running.nv.used (64 + 63) = false ∧
    Tbl.get false (Tbl.set false running.nv.used (64 + 63) true) (64 + 63) = true ∧ (4 : Word).toNat ≤ 0x1000000 ∧ 0x1000000 < (0x1000004 : Word).toNat := by decide
theorem wit_nv_source : (begun true 3 (portArgs 0x3F1 0 0 4 0) buffers).memRead cfgReq 0 4 [] = (List.map .ok [0, 0, 0, 0], begun true 3 (portArgs 0x3F1 0 0 4 0) buffers) := by
  rfl
/-- The part at debug level FULL, with the configuration given. -/
def fullAt (c : Cfg) : State := { running with dbg := { running.dbg with level := 2 }, cfg := c }
theorem wit_stream : (fullAt {}).dbg.level = 2 ∧ running.dbg.level ≠ 2 ∧ (fullAt {}).on domCFG = true ∧ (fullAt {}).cfg.tpActive = false ∧ (fullAt {}).loadBusy = false ∧
    (fullAt { tpActive := true, stream := List.replicate 62 0 }).cfg.stream.length < 63 ∧ (fullAt { tpActive := true }).cfg.staged = none := by decide
theorem wit_mirror : running.rb .mirCtrl [] 0 = true ∧ running.mirrorReads 3 0 = true ∧ running.cfg.staged = none := by decide
theorem wit_bbram : (∀ i : Fin 8, Tbl.get none ((List.range 8).foldl (fun t i => Tbl.set none t i (some (BitVec.ofNat 32 i))) ([] : Tbl (Option Word))) i.val =
    (List.map (BitVec.ofNat 32) (List.range 8))[i.val]?) ∧ Tbl.get none running.cfg.bbWritten 7 = none ∧ hostOrLamp facetReq = false := by decide

-- faults, counters and debug

def aRecord : FaultRec := { ts := 0, source := 0, cls := 0, deg := false, inj := false, code := 0, syndrome := 0, addr := 0 }
/-- A record waits for the fault log, which holds 131,072 records, or one fewer. -/
def logging (prod : Word) : State := { running with flt := { running.flt with queue := [aRecord], logOk := true, prod := prod } }
theorem wit_fault_log : (logging 131072).flt.queue = [aRecord] ∧ (logging 131072).flt.prod - (logging 131072).flt.cons = 131072 ∧
    (logging 131071).flt.prod - (logging 131071).flt.cons ≠ 131072 ∧ (logging 131072).rb .fltCtrl [] 0 = false ∧
    ((logging 131072).store .fltCtrl [] 1).rb .fltCtrl [] 0 = true ∧ ((logging 131072).flt.prod - (0 : Word)).toNat ≤ 131072 ∧
    131072 < ((logging 131072).flt.prod - (131073 : Word)).toNat ∧ (linked {}).live domPCI = true ∧ (linked {}).hif.up = true := by decide
theorem wit_injection : running.injRefused hostReq = false ∧ running.injRefused facetReq = true := by decide
theorem wit_counters : regAt (4204016 / 16 * 16) = some (.cntVio, [95, 0]) ∧ cntAt .cntVio [95, 0] = (.leaf vioName hub 95, 0) ∧
    regAt (4227076 / 16 * 16 + 4) = some (.cntPkgNode, [0, 1]) ∧ cntAt .cntPkgNode [0, 1] = (.pkgNode 0, 1) ∧
    regAt (33488900 / 16 * 16 + 4) = some (.cntDieNode, [3, 0, 1]) ∧ cntAt .cntDieNode [3, 0, 1] = (.dieNode 0 3, 1) ∧
    cntAt .cntHubLeaf [0, 1] = (.leaf 69 hub 0, 1) ∧ running.cntOn (.leaf vioName hub 95) = true ∧ running.cntOn (.dieNode 0 3) = true ∧
    running.rstWriter hostReq = true ∧ bitOf (0x20000 : Word) 17 = true ∧ bitOf (0x40000 : Word) 18 = true := by decide +kernel

theorem wit_levels : dbgMayUse hostReq = true ∧ dbgMayUse facetReq = false ∧ running.dbg.level.toNat < (2 : Word).toNat % 4 ∧ (fullAt {}).dbg.level = 2 ∧
    (1 : Word).toNat % 4 < 2 ∧ running.dbg.lockout = false ∧ ({ running with dbg := { running.dbg with chalValid := true } } : State).responseOk = true ∧
    ({ running with dbg := { running.dbg with chalValid := true, keysVoid := true } } : State).responseOk = false ∧
    ((({ fullAt {} with locks := [(255, { owner := 1 })] } : State).lock 255).owner ≠ 0) ∧ ((fullAt {}).lock 255).owner = 0 := by decide
theorem wit_fuses : 3 % 16 < 4 ∧ bitOf (fullAt {}).dbg.fuseProg 3 = false ∧ bitOf (8 : BitVec 4) 3 = true ∧ bitOf running.su.ended 0 = true := by decide
/-- Core 1023 as a debugger finds it, at level FULL. -/
def debugged (d : CoreDbg) (w : Option Instr) : State := { fullAt {} with cores := [(1023, { wait := w, dbg := d })] }
theorem wit_run_control : (debugged { groupEn := true, group := 15 } none).groupMembers 15 = [1023] ∧ (debugged {} none).coreLive 1023 = true ∧
    ((debugged { halted := true, cause := 1 } none).core 1023).dbg.cause ≠ 3 ∧ ((debugged {} (some (.nop 1023 ⟨none, none⟩))).core 1023).wait ≠ none ∧
    ((debugged {} none).core 1023).wait = none ∧ (0x328 : Word).toNat % 256 = 0x28 ∧ bitOf (0x328 : Word) 8 = true ∧ bitOf (0x328 : Word) 9 = true ∧
    ((debugged { memAddr := 0xFFFC } none).core 1023).dbg.memAddr.toNat < 0x10000 ∧ Tbl.get 0 ((debugged {} none).core 1023).badD (0xFFFC / 4) % 64 = 0 := by decide
theorem wit_terminals : ((fullAt {}).core 1023).glint = none ∧ Tbl.get none (fullAt {}).dbg.vtTx 1023 = none ∧
    Tbl.get none ({ fullAt {} with dbg := { running.dbg with vtTx := [(1023, some 7)] } } : State).dbg.vtTx 1023 ≠ none ∧ (fullAt {}).capture = none ∧
    ({ fullAt {} with capture := some {} } : State).capture = some {} ∧ (fullAt {}).on domCFG = true := by decide
theorem wit_window : (buffers.store .dbgWinAddr [0] 0x7FC).winAddr = 0x7FC ∧ 0x7FC % 4 = 0 ∧ (buffers.store .dbgWinAddr [0] 0x7FC).place 0x7FC = .near 0 2 ∧
    running.dbg.level ≠ 0 ∧ ({ running with dbg := { running.dbg with level := 0 } } : State).dbg.level = 0 := by decide
theorem wit_dbg_access : fld (BitVec.ofNat 88 (4 * 0x7FC)) 2 48 = 0x7FC ∧ bitOf (BitVec.ofNat 88 (4 * 0x7FC)) 0 = false ∧
    bitOf (BitVec.ofNat 88 (4 * 0x7FC + 1)) 0 = true := by decide
theorem wit_test_port : running.dbg.extest = false ∧ (fullAt {}).dbg.extest = false ∧ bitOf running.su.ended 0 = true := by decide

-- the host and the pins

theorem wit_register : hostOrLamp lampReq = true ∧ hostOrLamp facetReq = false ∧ (4 : BitVec 26).toNat % 8 ≠ 0 ∧ (2 : BitVec 26).toNat % 4 ≠ 0 ∧
    (0x3FBC0 : Word).toNat % 2 ^ 18 ≤ 0x3FBC0 ∧ 0x3FBC0 < (0x3FBC1 : Word).toNat % 2 ^ 18 := by decide
def linkedBuffers : State := { buffers with hif := { up := true, bme := true, conf := { memSpace := true } } }
theorem wit_bar2 : linkedBuffers.hostReaches = true ∧ linkedBuffers.bar2Addr 0x7FF = 0x7FF ∧ linkedBuffers.place 0x7FF = .near 0 2 ∧ linkedBuffers.sealOf 2 = none := by
  decide
/-- A command of the port that is to end with code 0. -/
def ended (op : Byte) (h : Hif) : State := { running with hif := { h with busy := true, opcode := op, endCode := some 0 } }
theorem wit_command_end : (ended 12 { up := true, bme := true, conf := { msixEnable := true }, vecMask := 0 }).canMaster = true ∧
    (ended 12 { up := true, bme := true, conf := { msixEnable := true }, vecMask := 0 }).vecMasked 1 = false ∧ (ended 12 {}).vecMasked 1 = true ∧ (ended 12 {}).dbm.pass = none ∧ (ended 12 {}).canMaster = false ∧ (ended 12 {}).hif.endCode = some 0 ∧
    running.hif.busy = false ∧ (13 : BitVec 8).toNat > 12 ∧ bitOf (ended 12 {}).hif.vecMask 1 = true := by decide
/-- Dark Record 255 carries its magic; device memory of 64 KiB at 0 is a USER region. -/
def darkHeld : State := { buffers with nv := { buffers.nv with
  mem := [(0x1D1FF0000, 0x44), (0x1D1FF0001, 0x41), (0x1D1FF0002, 0x52), (0x1D1FF0003, 0x4B)] } }
theorem wit_dark_record : running.darkDstOk 0 = false ∧ darkHeld.darkDstOk 0 = true ∧ darkHeld.darkDstOk 0xF0000 = true := by decide
theorem wit_dark_magic : numAt (darkHeld.darkEntry 255) 0 4 = 0x4B524144 ∧ numAt (running.darkEntry 255) 0 4 ≠ 0x4B524144 := by decide +kernel
/-- Ring 15 with the control word given, and what it has published. -/
def ringAt (ctrl : Word) (q : Ring) : State := ({ running with hif :=
  { up := true, bme := true, conf := { memSpace := true, msixEnable := true }, rings := [(15, q)], vecMask := 0, vecPend := 2 ^ 63 } } : State).store
  .ringCtrl [15] ctrl
theorem wit_host_rings : (ringAt 0x29 {}).ringOn 15 = true ∧ (ringAt 0x28 {}).ringOn 15 = false ∧ (ringAt 0x29 {}).ringSize 15 = 2 ^ 20 ∧ 0x29 / 2 % 64 = 20 ∧ 0x49 / 2 % 64 = 36 ∧
    2 ^ 36 ≠ (ringAt 0x29 {}).ringSize 15 ∧  ((ringAt 0x29 { prod := 0x100000 }).ring 15).cons.toNat ≤ 0 ∧
    (((ringAt 0x29 { prod := 0x100000 }).ring 15).prod - (0 : BitVec 64)).toNat ≤ (ringAt 0x29 {}).ringSize 15 ∧
    (ringAt 0x29 {}).ringSize 15 < (((ringAt 0x29 { prod := 0x100001 }).ring 15).prod - (0 : BitVec 64)).toNat := by decide
theorem wit_messages : ((ringAt 0 { holdoff := true, msgDue := true }).ring 15).msgDue = true ∧ ((ringAt 0 { holdoff := true }).ring 15).msgDue = false ∧
    (running.ring 15).holdoff = false ∧ (ringAt 0 {}).canMaster = true ∧ (ringAt 0 {}).vecMasked 31 = false ∧ running.vecMasked 31 = true ∧
   
    bitOf (ringAt 0 {}).hif.vecPend 63 = true ∧ (ringAt 0 {}).vecMasked 63 = false := by decide +kernel

/-- Pin 23 of bank GB with the configuration given. -/
def pinned (v : Word) (g : Gpio) : State := ({ running with gpio := g, tb := { counting := true, tick := 0x100000 } } : State).store .gpiPin [1, 23] v
theorem wit_pins : (pinned 0 {}).live domGPI = true ∧ 5 ≤ (5 : Word).toNat % 8 ∧ (4 : Word).toNat % 8 < 5 ∧ 23 % 2 = 1 ∧ bitOf (8 : Word) 3 = true ∧ running.rb .gpiCtrl [] 0 = false ∧
    (running.store .gpiCtrl [] 1).rb .gpiCtrl [] 0 = true ∧ 0x800 / 256 % 64 = 8 ∧ 0x2800 / 256 % 64 = 40 ∧ (∀ i : Fin 24, running.pinFunc 0 i.val = 0) ∧
    (running.store .gpiPin [0, 23] 1).pinFunc 0 23 ≠ 0 := by decide
theorem wit_edges : bitOf (pinned 3 {}).gpio.levels 47 = false ∧ (pinned 3 {}).bankOk 1 = true ∧ (pinned 3 {}).pinActs 1 23 = 3 ∧ (pinned 4 {}).pinActs 1 23 = 4 ∧
    (pinned 3 { edges := List.replicate 63 { tick := 0, pin := 0, rising := true } }).gpio.edges.length < 64 ∧
    64 ≤ (pinned 3 { edges := List.replicate 64 { tick := 0, pin := 0, rising := true } }).gpio.edges.length ∧
    ({ running with rails := {} } : State).bankOk 1 = false := by decide
theorem wit_mark : (pinned 4 {}).tb.counting = true ∧ (pinned 4 {}).tb.tick.toNat % 2 ^ (pinned 4 {}).rf .gpiCtrl [] 8 6 = 0 ∧ (running.tb.counting = false) ∧
    ({ pinned 4 {} with tb := { counting := true, tick := 0x100001 } } : State).tb.tick.toNat % 2 ^ (pinned 4 {}).rf .gpiCtrl [] 8 6 ≠ 0 := by decide

-- the block as a whole

theorem wit_step : ({ running with pending := [.bypass] } : State).pending = .bypass :: [] ∧ running.pending = [] ∧ running.cnt.found = [] ∧
    Memory.wf running.mem = true := by decide
theorem test_idle_tick : (match step { running with tb := { counting := true, tick := 0x3FFFFFFFFFFFFFF } } with
    | .next t => t.tb.tick == 0 && t.pending == []
    | _ => false) = true := by decide +kernel

-- the manual's own worked examples

/-- 02_lanes: phases 12–15, and 27–31 with 0–5, are clean; the lane samples at phase 0. -/
theorem test_sweep_example : bestRun 0xF800F03F = (27, 11) ∧ (27 + (11 - 1) / 2) % 32 = 0 ∧
    (match execSweepDone lastLane 0xF800F03F (laneState { sweeping := true }) with
      | .next t => (t.lane (LaneId.ln lastLane).key).phase == 0 && (t.lane (LaneId.ln lastLane).key).phaseValid
      | _ => false) = true := by decide
/-- 02_lanes: SEEK_COMMA's words in the cold table. -/
theorem test_seek_comma_example : running.lsmWord 0 false 3 0 = 0x10140008 ∧ running.lsmWord 0 false 3 1 = 0x840B8108 ∧ running.lsmWord 0 false 3 2 = 0 := by
  decide
/-- 03_channel_front_end: with a 32-channel descriptor at slot 0 on L0, L1 at slot 16 is refused. -/
theorem test_slot_example : ((running.wr .cfeFmt [0, 5, 0] 0x1F00).wr .cfeLaneCfg [0, 21] 0x2005).slotClash 0 22 0x2400 = true := by decide
/-- 04_windows: W = 8,192, P = 40; the hits at b − 41, b − P and b + P − 1 about the boundary of windows 5 and 6, and the copies. -/
def exampleSort (t : Stamp) : List (Stamp × Bool × Addr) :=
  match execWsuSort 3 15 (({ running with
    wsus := [(3, { running := true, width := 8192, pen := 40, origin := 0x1200000000 })], hitq := [(63, [aHit t])] } : State).store .portSel [3, 0] 0x20) with
  | .next u => (u.wsu 3).whit.map fun x => (x.1.ts, x.1.pen, x.2)
  | _ => []
theorem test_window_example : exampleSort 0x120000BFD7 = [(0x120000BFD7, false, 5)] ∧
    exampleSort 0x120000BFD8 = [(0x120000BFD8, false, 5), (0x120000BFD8, true, 6)] ∧
    exampleSort 0x120000C000 = [(0x120000C000, false, 6), (0x120000C000, true, 5)] ∧
    exampleSort 0x120000C027 = [(0x120000C027, false, 6), (0x120000C027, true, 5)] ∧
    exampleSort 0x120000C028 = [(0x120000C028, false, 6)] := by decide
/-- 05_glint: 90 GiB at 286,720 MB/s retain 337,041 µs, and GLT_LIMIT reads 332,041; four segments of 22.5 GiB. -/
def segment (n : Nat) : Nat × Region := (4 + n, { base := BitVec.ofNat 28 (98304 * n), size := 23040, type := 3, valid := true })
theorem test_retention_example : ({ running with dbm := { rings := [(0, { rawRate := 286720 })], regions := [segment 0, segment 1, segment 2, segment 3] } } : State).gltLimit = 332041 := by decide
/-- 07_sealed_regions: the record of the block at 0x0101_2345_6700 lies at 0x0104_C234_5670. -/
theorem test_record_example : ({ running with
  dbm := { regions := [(6, { base := 0x101000, size := 16384, type := 6, valid := true })] }
  sre := { entries := [(2, { region := 6, key := 3, valid := true })] } } : State).recordAddr 2 (0x10123456700 / 256) = 0x104C2345670 := by decide
/-- 08_facet_cores: p0 = 0x100 and p4 = 0x120 are in one bank, and p4 = 0x124 in another. -/
theorem test_bank_example : bankOf 0 0x100 = bankOf 0 0x120 ∧ bankOf 0 0x100 ≠ bankOf 0 0x124 := by decide
/-- 13_network: a raw flow of 286,720 MB/s takes 125 slots, and summaries 6. -/
theorem test_slots_example : ceilDiv 286720 2300 = 125 := by decide
/-- 18_errors_and_counters: a leaf cleared out of its node. -/
theorem test_counter_example : (match exec (.counterClear hostReq 4204016 0) (running.vio 95) with
    | .next t => (t.pkgNode vioName).value == 0
    | _ => false) = true := by decide +kernel
/-- R545, R547: an unknown opcode ends at once with 0x2B; the port is free again. -/
theorem test_unknown_opcode : (match exec (.unknownOpcode true 13) running with
    | .next t => t.hif.status == 0x2B && !t.hif.busy
    | _ => false) = true := by decide
/-- R27: a write of HIF_FLT_IEN by a core is refused, and counted as violation 85. -/
theorem test_refused_write : (match exec (.registerWrite facetReq 0x100060 3 none) running with
    | .next t => t.rd .hifFltIen [] == 2 && t.outbox == [.reply facetReq .error] && (Tbl.get {} t.cnt.leaves (leafKey vioName hub 85)).value == 1
    | _ => false) = true := by decide +kernel
/-- R9: the high word's write takes the held low word with it. -/
theorem test_pair_write : (match exec (.registerWrite hostReq (BitVec.ofNat 26 (RegName.off .clkTbLoad [0])) 5 none) running with
    | .next t => match exec (.registerWrite hostReq (BitVec.ofNat 26 (RegName.off .clkTbLoad [1])) 1 none) t with
      | .next u => t.rd64 .clkTbLoad [] == 0 && u.rd64 .clkTbLoad [] == 2 ^ 32 + 5
      | _ => false
    | _ => false) = true := by decide +kernel

-- the standards' published vectors (FIPS 180-4 "abc"; FIPS 197 C.3; RFC 3394 4.6 (SP 800-38F); GCM specification, case 13)

/-- FIPS 180-4: SHA-384 of "abc" begins cb00753f45a35e8b. -/
theorem test_sha384 : (sha384 [0x61, 0x62, 0x63]).take 8 = [0xcb, 0x00, 0x75, 0x3f, 0x45, 0xa3, 0x5e, 0x8b] := by decide +kernel
/-- FIPS 197 C.3: the AES-256 example. -/
theorem test_aes : aesEncrypt (aesKeys ((List.range 32).map (BitVec.ofNat 8))) ((List.range 16).map fun i => BitVec.ofNat 8 (17 * i)) =
    [0x8e, 0xa2, 0xb7, 0xca, 0x51, 0x67, 0x45, 0xbf, 0xea, 0xfc, 0x49, 0x90, 0x4b, 0x49, 0x60, 0x89] := by decide +kernel
/-- The GCM specification's case 13: the tag of nothing under the zero key. -/
theorem test_gcm : gcmTag (aesKeys (List.replicate 32 0)) (List.replicate 12 0) [] [] =
    [0x53, 0x0f, 0x8a, 0xfb, 0xc7, 0x45, 0x36, 0xb9, 0xa9, 0x63, 0xb4, 0xf1, 0xc4, 0xcb, 0x73, 0x8b] := by decide +kernel

-- what else the statements assume

theorem wit_plain : Plain running ∧ running.reaches hostReq = true ∧ running.reaches lampReq = true ∧ running.reaches facetReq = true ∧
    ({ running with hif := {} } : State).reaches hostReq = false := ⟨⟨by decide, by decide⟩, by decide, by decide, by decide, by decide⟩
theorem wit_banks : BanksFree aCore ∧ aCore.passed = 0 ∧ lag 0 (onFacet aCore) = 0 ∧ lag 0 (onFacet aCore) < aCore.bleft.toNat ∧
    horizon ((onFacet aCore).core 0).time ≤ ((onFacet aCore).core 0).time.clock + 1 := ⟨⟨by decide, by decide⟩, by decide, by decide, by decide, by decide⟩

/-- Core 0 with its pointers at the last word of its memory. -/
def nearCore : CoreSt := { aCore with p := Vector.replicate 8 0xFFFC }
/-- The core's cycles after two instructions, where nothing stands in the way of the second. -/
def pairCycles (i j : Instr) : Option Nat :=
  match exec i (onFacet nearCore) with
  | .next t => if t.canIssue 0 && !(t.core 0).fetchFault 0 && decide (cycles 1 0 t < (t.core 0).bleft.toNat) then
      match exec j t with
      | .next u => some (u.core 0).cyc.toNat
      | _ => none
    else none
  | _ => none
/-- R274: two cycles from a result to the store of it, four from an accumulator’s flags to a branch on them, which is taken, one from a load to a use. -/
theorem test_distances : pairCycles (.add 0 (.alu3 1 2 3)) (.stW 0 ⟨1, 7, false, 0⟩) = some 3 ∧
    pairCycles (.ldW 0 ⟨1, 7, false, 0⟩) (.sub 0 (.alu3 2 1 1)) = some 2 ∧ pairCycles (.mul 0 (.full 3 2 3)) (.br 0 9 0) = some (1 + 4 + 2) := by
  decide +kernel
theorem wit_dispatch_round : Tbl.get 0 (listed.sched 3).served 63 < listed.rf .schList [3, 63, 0] 16 4 ∧ (∃ x ∈ listed.readyList 3 63, listed.eligible 1023 x = true) ∧
    (attached.fab 3).schQueue = [] ∧ (attached.portResp 3 1).length < 64 ∧ (∀ x ∈ running.noc.snoops, x.2 < 0) ∧ running.noc.held = [] := by decide

/-- Channel 1791 of die 3 with its windows full of samples. -/
def chanFull : State := { chanOn with chans := [(3 * 1792 + 1791, { winCount := 2 ^ 20, bCount := 1024 })] }
theorem wit_channel_windows : chanFull.rb .chCfg [3, 1791] 0 = true ∧ (chanFull.chan (3 * 1792 + 1791)).pend = none ∧
    2 ^ (chanFull.chanCfg 3 1791).rateLog2 ≤ (chanFull.chan (3 * 1792 + 1791)).winCount ∧ 1024 ≤ (chanFull.chan (3 * 1792 + 1791)).bCount ∧
    Plain chanFull := ⟨by decide, by decide, by decide, by decide, ⟨by decide, by decide⟩⟩
theorem wit_sort_open : (BitVec.ofNat 64 (((sorting 0xBF).wsu 3).wm.toNat * 64) - ((sorting 0xBF).wsu 3).origin).toNat < 2 * 64 + 31 + 64 * 1 ∧
    (merging {}).merge.origin.toNat ≤ 64 * (0xFFFFFF : BitVec 58).toNat ∧ 64 * (0xFFFFFF : BitVec 58).toNat < 2 ^ 63 := by decide

theorem wit_glint_port : attached.gltPort 3 = true ∧ (attached.fab 3).gltQueue = [] ∧ (attached.portResp 3 0).length < 64 ∧
    ((slotAt { state := 1, gen := 1023 }).slot 63).remain = 0 ∧ (slotAt copying).poolSeal = none ∧ publishing.poolSeal = none ∧ Plain publishing ∧
    ((publishing.ring 15).prod - (publishing.ring 15).cons).toNat + (64 + 3 * 1024) ≤ 2 ^ publishing.rf .ringCtrl [15] 1 6 ∧
    (publishing.slot 63).completions = [] := ⟨by decide, by decide, by decide, by decide, by decide, by decide, ⟨by decide, by decide⟩, by decide, by decide⟩
theorem wit_ring_room : 8 ≤ (ringing.rings 0).rawRoom ∧ 16 ≤ (ringing.rings 0).hitRoom ∧ buffers.rangeSeal 0 = none ∧
    (buffers.store .dbmMaintRate [] 0).rf .dbmMaintRate [] 0 16 = 0 ∧ hostReq = { cls := .host, rnum := 1 } ∧
    running.entryOfTag 0 ≠ some 14 := by decide

theorem wit_ltx : (attached.lane (3 * 112 + 111)).ltx = [] ∧ attached.rb .laneBctrl [3, 15] 12 = false ∧ attached.on (domLG 3 15) = true ∧
    ((attached.store .laneBctrl [3, 15] 0x1000).rb .laneBctrl [3, 15] 12 = true) ∧ ((attached.store .laneBctrl [3, 15] 0x2000).rb .laneBctrl [3, 15] 13 = true) ∧
    ((attached.store .laneBctrl [3, 15] 0x1000).rf .laneBctrl [3, 15] 8 2 = 0) ∧ 2 ≤ (attached.store .laneBctrl [3, 15] 0x1200).rf .laneBctrl [3, 15] 8 2 ∧
    ({ attached with lanes := [(3 * 112 + 111, { looping := true })] } : State).lane (3 * 112 + 111) = { looping := true } ∧
    (attached.portResp 3 9).length < 64 ∧ ({ r := hostReq, addr := 0, write := false, data := 0, answer := none } : RegpReq).drop = false := by decide
theorem wit_thresholds : (bridged {}).brgThr 3 0 ≤ 16 ∧ (bridged {}).brgThr 3 4 ≤ 16 ∧ ({} : Bridge).inUse true false 31 15 = true ∧
    (bridged {}).recent (List.replicate 16 (0, wireAt true false 31 15)) (wireAt true false 31 15) = 16 ∧
    (bridged {}).recent (List.replicate 16 (0, 63)) 63 = 16 := by decide

/-- A flit to the host's endpoint waits at a mesh port. -/
def aFlit : Flit := { net := 0, dst := 0x10, src := 0 }
def waitingFlit : State := { running with noc := { running.noc with flits := [{ flit := aFlit, at_ := .port 3 287, out := 0, ready := 0 }] } }
theorem wit_flits : running.mayInject (.mesh 3 287) aFlit = true ∧ running.mayInject (.spine 63) aFlit = true ∧
    waitingFlit.waitingAt (NocIn.code (.port 3 287)) = some { flit := aFlit, at_ := .port 3 287, out := 0, ready := 0 } := by decide +kernel

theorem wit_checks_below : ({ running with pw := { running.pw with lowChecks := some 9, step := 1 } } : State).pw.lowChecks = some 9 ∧
    running.pw.lowChecks = none ∧ running.rails.vaux = true ∧ spineDomMHz 36 running.spineNow = some running.spineNow ∧
    running.on 36 = true := by decide
theorem wit_causes : (∀ c ∈ [1, 2, 3, 6], (domains allOn 0 0 [] 0xAA).dieCause 3 c = true) ∧ running.dieCause 3 4 = false ∧
    ({ running with brg := {} } : State).dieCause 3 4 = true ∧ running.domCode 34 true = 0 ∧
    ({ running with pw := { running.pw with sensors := [(63, { temp := 1000 })] } } : State).dieCause 3 5 = true := by decide
theorem wit_drain : ({ running with fabs := [(3, { regp := [{ r := hostReq, addr := 0, write := false, data := 0, answer := none }] })] } : State).fab 3 =
    { regp := [{ r := hostReq, addr := 0, write := false, data := 0, answer := none }] } ∧
    47 ∈ ({ running with pw := { running.pw with reqRuns := [47] } } : State).pw.reqRuns ∧ 47 ∉ running.pw.reqRuns ∧ running.clk.holding = false := by decide

def bothRun : State := Sys2Proof.Tests.clocked { refCount := 1, lanternOk := true } {}
theorem wit_sync_hold : (Sys2Proof.Tests.clocked { holding := true } { counting := true }).clk.holding = true ∧
    (Sys2Proof.Tests.clocked {} { syncDue := true, armed := true }).tb.syncDue = true ∧ bothRun.outRuns bothRun.clk.outOld.toNat = true ∧
    bothRun.outRuns (bothRun.rf .clkOut [] 0 8) = true ∧ bothRun.outRuns 3 = true := by decide
/-- Global clock 29 of die 3 switches from one output of a locked PLL to another. -/
def switching : State := { muxed true true with fabs := [(3, { plls := [(3, { locked := true })], gcPending := 0x20000000, gcOld := [(29, 14)] })] }.store .gcSel [3, 29] 15
theorem wit_switch : bitOf (switching.fab 3).gcPending 29 = true ∧ switching.srcRuns 3 (Tbl.get 0 (switching.fab 3).gcOld 29) = true ∧
    switching.srcRuns 3 (switching.gcSrc 3 29) = true ∧ switching.on (domBRG 3) = true := by decide

theorem wit_upset : running.cfg.codeErr = [] ∧ running.mirrorReads 3 0 = true ∧ running.on (domDie 3 (frameQuad (3 * 344064 + 0))) = true ∧
    isSettings (3 * 344064 + 0) = false ∧ running.cfg.staged = none ∧ ({ die := 3, index := 0, bits := [8207] } : FrameUpset).bits = [8207] := by decide
/-- A pass finds a single bit of a frame, and single bits of its code, and names each. -/
theorem test_frame_code : finding (bitError 0) = .payload 0 ∧ finding (bitError 8192) = .code 0 ∧ finding (bitError 8207) = .code 15 := by decide +kernel

theorem wit_link : running.hif.up = true ∧ ({ running with hif := {} } : State).hif.up = false ∧ running.dbm.pass = none ∧ (ringAt 0x29 {}).ringNext 15 = none := by
  decide
/-- R541: what the host reads in configuration space of a part whose four dies are revision B0. -/
theorem test_config_space : (match exec (.linkUp 8 5 { memSpace := true, bme := true }) running with
    | .next t => t.outbox.any fun o => match o with
      | .config x => x.vendor == 0x1F5C && x.device == 0x4512 && x.classCode == 0x118000
      | _ => false
    | _ => false) = true := by decide +kernel
theorem wit_released : ({ running with wdg := { left := 5 } } : State).wdg.left.toNat < (1000 : Word).toNat ∧ running.dbg.fuseLeft = 0 ∧
    ({ running with dbg := { running.dbg with fuseLeft := 9 } } : State).dbg.fuseLeft ≠ 0 := by decide
theorem wit_contacts : running.drive .alertN = .harmless ∧ ({ running with su := { running.su with dark := true } } : State).drive .alertN = .level false ∧
    ({ running with su := {} } : State).drive .clkout = .harmless ∧ running.dbg.extest = false ∧ bitOf State.reset.su.ended 1 = false := by decide
/-- A raw lane at its held offset, with an anchor pattern of its own. -/
def rawLane : State := ((laneState { offsetValid := true }).store .laneBctrl [3, 15] 0x840).store .laneRawAnchor [3, 15] 0xFA0C4
theorem wit_raw : rawLane.rawMode (LaneId.ln lastLane) = true ∧ rawLane.laneOn (LaneId.ln lastLane) = true ∧ rawLane.isLit (LaneId.ln lastLane) = false ∧
    rawLane.rf .laneRawAnchor [3, 15] 0 20 = 0xFA0C4 ∧ rawLane.rf .laneRawComma [3, 15] 0 20 = 0xFA0C3 ∧ rawLane.tb.loaded = true ∧
    0 < (rawLane.laneFmt 3 111).rawWords := by decide
/-- R42: the index behind a raw anchor pattern, of the low halves of two words. -/
theorem test_raw_anchor : (match exec (.anchorSequence lastLane [0xFA0C4, 0xF5678, 0xA1234] 64) rawLane with
    | .next t => (t.lane (LaneId.ln lastLane).key).anchorIdx == 0x12345678 && (t.lane (LaneId.ln lastLane).key).rx == .idle
    | _ => false) = true := by decide +kernel

end Sys2Proof.Tests
end

section
/-! SUPPORT. REGISTER_WRITE of one word, from the command down to its block (R8, R9, R27), and what a writer that may not write
the readout rings meets. -/

namespace Sys2Proof.Machine

variable (s : State)

/-- The bytes of a word spell it again. -/
theorem wordOfBytes_bytesOf_word (v : Word) : BitVec.ofNat 32 (wordOfBytes (bytesOf v.toNat 4)) = v := by
  apply BitVec.eq_of_toNat_eq
  have hv := v.isLt
  simp only [bytesOf, wordOfBytes, BitVec.toNat_ofNat]
  omega

/-- A single aligned word at an offset is a device write of its bytes, whose answer a host does not wait for (R378, R585). -/
theorem exec_registerWrite_word (r : Req) (off : BitVec 26) (v : Word) (hspec : r.spec = none) (hreach : s.reaches r = true)
    (hlive : s.live domSPN = true) (halign : off.toNat % 4 = 0) :
    exec (.registerWrite r off v none) s =
      .next ((s.devWrite r none (regBase + off.toNat) (bytesOf v.toNat 4) []).2.answerReg r
        (s.devWrite r none (regBase + off.toNat) (bytesOf v.toNat 4) []).1) := by
  simp [exec, execRegisterWrite, State.onBehalfOf, hspec, hreach, hlive, halign]

/-- A write outside the debug window's data is one of device memory or register space. -/
theorem State.devWrite_ne_winData (r : Req) (o : Nat) (bs : List Byte) (hspec : r.spec = none) (hwin : o ≠ winDataOff) :
    s.devWrite r none (regBase + o) bs [] = s.spaceWrite r none (regBase + o) bs [] := by
  simp [State.devWrite, State.onBehalf, hspec, hwin]

/-- An aligned word of the register map outside the posting windows is written at its offset (R585). -/
theorem State.spaceWrite_word (r : Req) (o : Nat) (v : Word) (halign : o % 4 = 0) (hspace : o < 0x2000000)
    (hpost : postPlace o = none) :
    s.spaceWrite r none (regBase + o) (bytesOf v.toNat 4) [] = s.offWrite r none o v none := by
  have hlen : (bytesOf v.toNat 4).length = 4 := rfl
  have htake : (bytesOf v.toNat 4).take 4 = bytesOf v.toNat 4 := rfl
  have hend : regBase + o < regEnd := by simp only [regBase, regEnd]; omega
  have hplace : o / 4 * 4 = o := by omega
  have hmod : (regBase + o) % 4 = 0 := by simp only [regBase]; omega
  simp [State.spaceWrite, hlen, htake, hend, hplace, hmod, hpost, wordOfBytes_bytesOf_word]

/-- An offset below user logic's registers is one of the register map (R324). -/
theorem State.offWrite_map (r : Req) (o : Nat) (v : Word) (hspace : o < 0x2000000) :
    s.offWrite r none o v none = s.regWrite r none o v none := by
  have huser : userReg o = none := by simp [userReg]; omega
  simp [State.offWrite, huser]

/-- A word written to a register of a block in service: its block takes or refuses it, and a refusal shows in the answer
(R27). -/
theorem State.regWrite_word (r : Req) (o : Nat) (v : Word) (n : RegName) (ix : List Nat) (hspec : r.spec = none)
    (hat : regAt o = some (n, ix)) (hdark : s.regDark n ix = none) :
    s.regWrite r none o v none =
      (if (s.writeHeld r none false n ix v).vioCount = s.vioCount then .ok else .error, s.writeHeld r none false n ix v) := by
  simp [State.regWrite, hspec, hat, hdark]

/-- A counted violation moves the count of violations (R27, R501). -/
theorem State.vioCount_vio_ne (hinj : s.flt.injMode = 0) (hhold : s.holdFor = none) (k : Nat) :
    (s.vio k).vioCount ≠ s.vioCount := by
  have h : (s.vio k).vioCount = s.vioCount + 1 := by
    simp [State.vio, State.count_off s hinj hhold, State.vioCount, State.pkgNode, State.countRaw, CNode.add]
  simp [h]

/-- A block of the hub's SPN domain is in service where that domain is. -/
theorem State.regDark_of_spn (n : RegName) (ix : List Nat) (hdom : regDomain n ix = some domSPN) (hlive : s.live domSPN = true) :
    s.regDark n ix = none := by
  simp [State.regDark, hdom, hlive]

/-- The low word of ring k's base lies where the register map puts it (R561). -/
theorem regAt_ringBase_low (k : Fin 16) : regAt (RegName.off .ringBase [k.val, 0]) = some (.ringBase, [k.val, 0]) := by
  revert k
  decide +kernel

/-- The low word of a ring's base is held for no one but the host and the Lamp: any other writer is refused, as violation 86
(R9, R561). -/
theorem State.writeHeld_ringBase_refused (r : Req) (k : Nat) (v : Word) (hcls : hostOrLamp r = false) :
    s.writeHeld r none false .ringBase [k, 0] v = s.vio 86 := by
  simp [State.writeHeld, pairWritten, State.lowRefused, hcls]

/-- REGISTER_WRITE of the low word of a ring's base, by another class than the host and the Lamp, is refused, counted as
violation 86 and answered with an error. -/
theorem exec_registerWrite_ringBase_refused (r : Req) (k : Fin 16) (v : Word) (hspec : r.spec = none)
    (hreach : s.reaches r = true) (hlive : s.live domSPN = true) (hinj : s.flt.injMode = 0) (hhold : s.holdFor = none)
    (hcls : hostOrLamp r = false) :
    exec (.registerWrite r (BitVec.ofNat 26 (RegName.off .ringBase [k.val, 0])) v none) s =
      .next ((s.vio 86).answerReg r .error) := by
  have hat := regAt_ringBase_low k
  have hdark := s.regDark_of_spn .ringBase [k.val, 0] rfl hlive
  have hpost : postPlace (RegName.off .ringBase [k.val, 0]) = none := by simp [postPlace, hat]
  have hoff : RegName.off .ringBase [k.val, 0] = 0x901000 + 0x40 * k.val := rfl
  have hk := k.isLt
  have halign : RegName.off .ringBase [k.val, 0] % 4 = 0 := by omega
  have hspace : RegName.off .ringBase [k.val, 0] < 0x2000000 := by omega
  have hwin : RegName.off .ringBase [k.val, 0] ≠ winDataOff := by simp only [hoff, winDataOff]; omega
  have hnat : (BitVec.ofNat 26 (RegName.off .ringBase [k.val, 0])).toNat = RegName.off .ringBase [k.val, 0] :=
    Nat.mod_eq_of_lt (by omega)
  rw [exec_registerWrite_word s r _ v hspec hreach hlive (by rwa [hnat]), hnat, s.devWrite_ne_winData r _ _ hspec hwin,
    s.spaceWrite_word r _ v halign hspace hpost, s.offWrite_map r _ v hspace, s.regWrite_word r _ v _ _ hspec hat hdark,
    s.writeHeld_ringBase_refused r k v hcls, if_neg (s.vioCount_vio_ne hinj hhold 86)]

/-- Answering a register write leaves the held low words as they are. -/
@[simp] theorem State.answerReg_heldLow (r : Req) (x : Reply) : (s.answerReg r x).heldLow = s.heldLow := by
  unfold State.answerReg
  split <;> simp

/-- So does counting a violation. -/
@[simp] theorem State.vio_heldLow (k : Nat) : (s.vio k).heldLow = s.heldLow := by simp [State.vio]

end Sys2Proof.Machine

namespace Sys2Proof.Claims

open Sys2Proof.Machine

/-- The part after reset, with the hub's SPN domain alone switched on. -/
def spineOn : State := { State.reset with pw := { on := BitVec.ofNat 48 (2 ^ domSPN) } }

/-- A core's request, of no speculative item. -/
def coreReq : Req := { cls := .facet, rnum := 16 }

/-- Refutes O56: its clause on a held low word takes any writer, but a core may not write a readout ring's base. Where the SPN
domain is on and every register cold, the core's write of HIF_RING 0's base_lo is refused as violation 86 and no word is held;
the clause says that the word 0 is held for the core. -/
theorem not_registerAndWindowComplete : ¬ Obligations.RegisterAndWindowComplete := by
  unfold Obligations.RegisterAndWindowComplete
  intro h
  have hlive : spineOn.live domSPN = true := by decide
  have hreach : spineOn.reaches coreReq = true := by decide
  obtain ⟨-, -, hheld, -⟩ := (h spineOn hlive ⟨rfl, rfl⟩).1 coreReq 0 rfl hreach
  have hrefused := exec_registerWrite_ringBase_refused spineOn coreReq 0 0 rfl hreach hlive rfl rfl rfl
  have hsame := congrArg State.heldLow (Host.Outcome.next.inj ((hheld 0).symm.trans hrefused))
  simp only [State.answerReg_heldLow, State.vio_heldLow] at hsame
  have hword := congrArg (Tbl.get none · (latchKey coreReq (RegName.off .ringBase [0, 0]))) hsame
  simp [spineOn, State.reset] at hword

end Sys2Proof.Claims
end

section
/-! SUPPORT. The channel front end: what a gap on a lane leaves, and what each of its commands comes to where it is taken (R69,
R73, R76, R78, R82, R83). -/

namespace Sys2Proof.Machine

variable (s : State)

-- the bits of a lane's configuration word

/-- The stored bits of CFE_LANE_CFG hold every field that ends below bit 14. -/
theorem fld_and_laneCfg (v : Word) (lo len : Nat) (h : lo + len ≤ 14) : fld (v &&& 0x3FFF) lo len = fld v lo len := by
  have hmask : (v &&& 0x3FFF).toNat = v.toNat % 2 ^ 14 := Nat.and_two_pow_sub_one_eq_mod v.toNat 14
  apply Nat.eq_of_testBit_eq
  intro i
  simp only [fld, hmask, Nat.testBit_mod_two_pow, Nat.testBit_shiftRight]
  by_cases hi : i < len
  · have hlow : lo + i < 14 := by omega
    simp [hlow]
  · simp [hi]

/-- They hold its enable. -/
theorem bitOf_and_laneCfg (v : Word) : bitOf (v &&& 0x3FFF) 13 = bitOf v 13 := by
  simp [bitOf]

-- a gap (R73, R87)

theorem State.abandonHit_rd (d c : Nat) (n : RegName) (ix : List Nat) : (s.abandonHit d c).rd n ix = s.rd n ix := by
  simp only [State.abandonHit]
  split <;> simp

theorem State.abandonHit_cfeLanes (d c : Nat) : (s.abandonHit d c).cfeLanes = s.cfeLanes := by
  simp only [State.abandonHit]
  split <;> simp

/-- A channel that measures no hit has none to abandon. -/
theorem State.abandonHit_idle (d c : Nat) (hpulse : (s.chan (chanKey d c)).pulse = none)
    (hpost : (s.chan (chanKey d c)).post = none) : s.abandonHit d c = s := by
  simp [State.abandonHit, hpulse, hpost]

@[simp] theorem State.chanGap_rd (d c : Nat) (n : RegName) (ix : List Nat) : (s.chanGap d c).rd n ix = s.rd n ix := by
  simp [State.chanGap, State.abandonHit_rd]

@[simp] theorem State.chanGap_cfeLanes (d c : Nat) : (s.chanGap d c).cfeLanes = s.cfeLanes := by
  simp [State.chanGap, State.abandonHit_cfeLanes]

theorem State.chanGaps_rd (d : Nat) (cs : List Nat) (n : RegName) (ix : List Nat) :
    (cs.foldl (fun s c => s.chanGap d c) s).rd n ix = s.rd n ix := by
  induction cs generalizing s with
  | nil => rfl
  | cons c cs ih => rw [List.foldl_cons, ih, s.chanGap_rd]

theorem State.chanGaps_cfeLanes (d : Nat) (cs : List Nat) :
    (cs.foldl (fun s c => s.chanGap d c) s).cfeLanes = s.cfeLanes := by
  induction cs generalizing s with
  | nil => rfl
  | cons c cs ih => rw [List.foldl_cons, ih, s.chanGap_cfeLanes]

/-- A gap on a lane changes no register. -/
@[simp] theorem State.cfeGap_rd (d l : Nat) (n : RegName) (ix : List Nat) : (s.cfeGap d l).rd n ix = s.rd n ix := by
  simp only [State.cfeGap]
  split <;> simp [State.chanGaps_rd]

/-- A gap on a lane marks its next raw block, and the lane delivers no frames. -/
@[simp] theorem State.cfeGap_cfeLane (d l : Nat) : (s.cfeGap d l).cfeLane (cfeKey d l) =
    { s.cfeLane (cfeKey d l) with gap := true, flowing := false } := by
  simp only [State.cfeGap]
  split
  · rw [State.cfeLane, State.chanGaps_cfeLanes]
    exact State.cfeLane_setCfeLane_same ..
  · exact State.cfeLane_setCfeLane_same ..

-- the rate window and the baseline check (R82, R83)

/-- A rate window that is full and has no step pending gives one, and none is lost. -/
theorem exec_rateWindowEnd_full (die : Die) (ch : Chan) (hlive : s.live (domCFE die.val) = true)
    (hen : s.rb .chCfg [die.val, ch.val] 0 = true) (hpend : (s.chan (chanKey die.val ch.val)).pend = none)
    (hfull : 2 ^ (s.chanCfg die.val ch.val).rateLog2 ≤ (s.chan (chanKey die.val ch.val)).winCount) :
    exec (.rateWindowEnd die ch) s = .next (s.setChan (chanKey die.val ch.val)
      ((s.chan (chanKey die.val ch.val)).rateEnd (s.chanCfg die.val ch.val)
        (s.stepEntry die.val (s.chanCfg die.val ch.val).set)).1) := by
  have hcfg : (s.chanCfg die.val ch.val).en = true := hen
  simp [exec, execRateWindowEnd, hlive, hcfg, hfull, ChanSt.rateEnd, hpend]

theorem satNat_eq_min (v hi : Nat) : satNat v hi = min v hi := by
  unfold satNat
  split <;> omega

/-- A baseline check that is due is made. -/
theorem exec_baselineCheck_due (die : Die) (ch : Chan) (hlive : s.live (domCFE die.val) = true)
    (hen : s.rb .chCfg [die.val, ch.val] 0 = true) (hdue : 1024 ≤ (s.chan (chanKey die.val ch.val)).bCount) :
    exec (.baselineCheck die ch) s = .next (s.setChan (chanKey die.val ch.val)
      ((s.chan (chanKey die.val ch.val)).baselineCheck (s.chanCfg die.val ch.val))) := by
  simp [exec, execBaselineCheck, hlive, hen, hdue]

/-- The baseline is CLAMPED where its clamp has acted since the last check, else SETTLED where it has moved by at most the
tolerance; a SETTLED channel in START may leave it (R80). -/
theorem ChanSt.baselineCheck_eq (c : ChanSt) (cfg : ChanCfg) : c.baselineCheck cfg = { c with
    bstat := if c.bClamped then 2
      else if ((c.base.toNat : Int) - c.bStart.toNat).natAbs / 2 ^ 16 ≤ cfg.bsetTol then 1 else 0,
    bStart := c.base,
    bCount := 0,
    bClamped := false,
    startOk := c.startOk || (c.baselineCheck cfg).bstat == 1 && c.st == 3 } := by
  have habs : (if c.bStart.toNat ≤ c.base.toNat then c.base.toNat - c.bStart.toNat else c.bStart.toNat - c.base.toNat) =
      ((c.base.toNat : Int) - c.bStart.toNat).natAbs := by split <;> omega
  rw [← habs]
  rfl

-- the format descriptors and the lanes' configuration (R69, R76, R94)

/-- A first word of a descriptor that no enabled lane selects, within the limits, is stored. -/
theorem State.cfeFmtWrite_taken (d f : Nat) (v w : Word) (hw : w = v &&& BitVec.ofNat 32 (RegName.mask .cfeFmt [d, f, 0]))
    (hfree : ∀ j, j < 112 → s.rb .cfeLaneCfg [d, j] 13 = true → s.rf .cfeLaneCfg [d, j] 0 6 ≠ f) (hwidth : fld w 0 4 ≤ 8)
    (hlen : (fmtOf w (s.rd .cfeFmt [d, f, 1])).len ≤ 2552)
    (hseq : (fmtOf w (s.rd .cfeFmt [d, f, 1])).seqEn = true →
      (fmtOf w (s.rd .cfeFmt [d, f, 1])).seqPos + 2 ≤ (fmtOf w (s.rd .cfeFmt [d, f, 1])).hdr) :
    s.cfeFmtWrite d f 0 v = s.wr .cfeFmt [d, f, 0] w := by
  subst hw
  have hunused : ((List.range 112).any fun l => s.rb .cfeLaneCfg [d, l] 13 && s.rf .cfeLaneCfg [d, l] 0 6 == f) = false := by
    simpa using hfree
  simp only [State.cfeFmtWrite, if_pos, if_neg (show ¬ (0 : Nat) = 1 by decide), hunused]
  rw [if_neg]
  rintro (hwide | ⟨hen, hcut⟩ | hlong | hused)
  · omega
  · have := hseq hen
    omega
  · omega
  · cases hused

/-- A lane is disabled, or stays so: its word is stored, and a lane that was enabled delivers no frames. -/
theorem State.cfeLaneCfgWrite_off (d l : Nat) (v : Word) (hoff : bitOf v 13 = false) : s.cfeLaneCfgWrite d l v =
    if s.rb .cfeLaneCfg [d, l] 13 then
      (s.wr .cfeLaneCfg [d, l] (v &&& 0x3FFF)).setCfeLane (cfeKey d l) { s.cfeLane (cfeKey d l) with flowing := false }
    else s.wr .cfeLaneCfg [d, l] (v &&& 0x3FFF) := by
  by_cases hwas : s.rb .cfeLaneCfg [d, l] 13 = true
  · have hold : bitOf (s.rd .cfeLaneCfg [d, l]) 13 = true := hwas
    simp only [State.cfeLaneCfgWrite, bitOf_and_laneCfg, hoff, hold, hwas, Bool.false_eq_true, if_true, if_false]
  · have hold : ¬ bitOf (s.rd .cfeLaneCfg [d, l]) 13 = true := hwas
    simp only [State.cfeLaneCfgWrite, bitOf_and_laneCfg, hoff, hold, hwas, Bool.false_eq_true, if_false]

/-- A lane whose slots fit its bundle and are no other lane's is enabled, with a gap before its first frame. -/
theorem State.cfeLaneCfgWrite_on (d l : Nat) (v : Word) (hon : bitOf v 13 = true)
    (hwas : s.rb .cfeLaneCfg [d, l] 13 = false) (hfit : fld v 6 7 + (s.fmt d (fld v 0 6)).nch ≤ 112)
    (hclear : s.slotClash d l (v &&& 0x3FFF) = false) : s.cfeLaneCfgWrite d l v =
    ((s.wr .cfeLaneCfg [d, l] (v &&& 0x3FFF)).setCfeLane (cfeKey d l)
      { s.cfeLane (cfeKey d l) with prevSeq := none }).cfeGap d l := by
  have hold : bitOf (s.rd .cfeLaneCfg [d, l]) 13 = false := hwas
  have hin : ¬ 112 < fld v 6 7 + (s.fmt d (fld v 0 6)).nch := by omega
  have hlow : fld (v &&& 0x3FFF) 0 6 = fld v 0 6 := fld_and_laneCfg v 0 6 (by decide)
  have hhigh : fld (v &&& 0x3FFF) 6 7 = fld v 6 7 := fld_and_laneCfg v 6 7 (by decide)
  simp only [State.cfeLaneCfgWrite, bitOf_and_laneCfg, hlow, hhigh, hon, hold, hin, hclear, Bool.false_eq_true, or_self,
    if_true, if_false]

-- restarts (R78, R80, R82)

/-- The loops of a channel that measures no hit restart. -/
theorem State.resetLoops_idle (d c : Nat) (hpulse : (s.chan (chanKey d c)).pulse = none)
    (hpost : (s.chan (chanKey d c)).post = none) :
    s.resetLoops d c = s.setChan (chanKey d c) (s.chan (chanKey d c)).restart := by
  simp only [State.resetLoops, s.abandonHit_idle d c hpulse hpost]

/-- A channel that is enabled restarts, with no step pending, an empty rate window and no samples behind it. -/
theorem State.chanEnable_on (d c : Nat) (hwas : s.rb .chCfg [d, c] 0 = false)
    (hpulse : (s.chan (chanKey d c)).pulse = none) (hpost : (s.chan (chanKey d c)).post = none) :
    s.chanEnable d c true = (s.wr .chCfg [d, c] (setBit (s.rd .chCfg [d, c]) 0 true)).setChan (chanKey d c)
      { (s.chan (chanKey d c)).restart with pend := none, winCount := 0, hits := 0, history := [] } := by
  have hidle := (s.wr .chCfg [d, c] (setBit (s.rd .chCfg [d, c]) 0 true)).abandonHit_idle d c hpulse hpost
  simp only [State.chanEnable, hwas, hidle]
  rfl

/-- A channel that measures no hit is disabled by its enable bit alone. -/
theorem State.chanEnable_off (d c : Nat) (hpulse : (s.chan (chanKey d c)).pulse = none)
    (hpost : (s.chan (chanKey d c)).post = none) :
    s.chanEnable d c false = s.wr .chCfg [d, c] (setBit (s.rd .chCfg [d, c]) 0 false) := by
  have hidle := (s.wr .chCfg [d, c] (setBit (s.rd .chCfg [d, c]) 0 false)).abandonHit_idle d c hpulse hpost
  simp [State.chanEnable, hidle]

-- requests to a front end in service (R378)

section
variable (r : Req) (die : Die) (hlive : s.live (domCFE die.val) = true) (hspec : r.spec = none) (hreach : s.reaches r = true)
include hlive hspec hreach

theorem exec_cfeFmtWrite_live (f : Fin 64) (w : Fin 2) (v : Word) :
    exec (.cfeFmtWrite r die f w v) s = .next (s.cfeFmtWrite die.val f.val w.val v) := by
  simp [exec, execCfeFmtWrite, hlive, hspec, hreach]

theorem exec_channelEnable_live (ch : Chan) (en : Bool) :
    exec (.channelEnable r die ch en) s = .next (s.chanEnable die.val ch.val en) := by
  simp [exec, execChannelEnable, hlive, hspec, hreach]

theorem exec_resetLoops_live (ch : Chan) : exec (.resetLoops r die ch) s = .next (s.resetLoops die.val ch.val) := by
  simp [exec, execResetLoops, hlive, hspec, hreach]

end

theorem LaneId.ln_d (l : LaneId) : (LaneId.ln l).d = l.die.val := rfl

theorem exec_cfeLaneCfgWrite_live (r : Req) (l : LaneId) (v : Word) (hlive : s.live (domCFE l.die.val) = true)
    (hspec : r.spec = none) (hreach : s.reaches r = true) :
    exec (.cfeLaneCfgWrite r l v) s = .next (s.cfeLaneCfgWrite l.die.val (LaneId.ln l).ix v) := by
  simp [exec, execCfeLaneCfgWrite, LaneId.ln_d, hlive, hspec, hreach]

end Sys2Proof.Machine

namespace Sys2Proof.Claims

open Sys2Proof.Machine

/-- Settles O27: in a front end that is in service, each command comes to the one operation of its rule; a channel that measures
no hit has none to abandon, and a gap on an enabled lane leaves the registers. -/
theorem frontEndComplete : Obligations.FrontEndComplete := by
  unfold Obligations.FrontEndComplete
  rintro r l ch s n c d k rfl hd hk rfl hlive hspec hreach -
  obtain rfl : d = l.die.val := hd
  obtain rfl : k = chanKey l.die.val ch.val := hk
  refine ⟨?rateWindow, ?baseline, ?format, fun v => ⟨?laneOff, ?laneOn⟩, ?restarts⟩
  case rateWindow =>
    rintro hen hpend hfull e rfl
    rw [exec_rateWindowEnd_full s l.die ch hlive hen hpend hfull, ChanSt.rateEnd, satNat_eq_min]
    rfl
  case baseline =>
    intro hen hdue
    refine ⟨_, exec_baselineCheck_due s l.die ch hlive hen hdue, rfl, fun j hj => s.chan_setChan_ne _ j _ hj, ?_⟩
    rw [State.chan_setChan_same]
    exact ChanSt.baselineCheck_eq ..
  case format =>
    rintro f v hfree ⟨hwidth, hlen, hseq⟩
    rw [exec_cfeFmtWrite_live s r l.die hlive hspec hreach]
    exact congrArg _ (s.cfeFmtWrite_taken _ _ v _ rfl hfree hwidth hlen hseq)
  case laneOff =>
    intro hoff
    refine ⟨_, exec_cfeLaneCfgWrite_live s r l v hlive hspec hreach, ?_⟩
    rw [s.cfeLaneCfgWrite_off _ _ v hoff]
    split
    next => exact ⟨by simp, fun _ => by simp, rfl⟩
    next hwas => exact ⟨by simp, fun hon => absurd hon hwas, rfl⟩
  case laneOn =>
    intro hon hwas hfit hclear
    refine ⟨_, exec_cfeLaneCfgWrite_live s r l v hlive hspec hreach, ?_⟩
    rw [s.cfeLaneCfgWrite_on _ _ v hon hwas hfit hclear]
    simp
  case restarts =>
    rintro hpulse hpost z rfl
    rw [exec_resetLoops_live s r l.die hlive hspec hreach, exec_channelEnable_live s r l.die hlive hspec hreach,
      exec_channelEnable_live s r l.die hlive hspec hreach]
    exact ⟨congrArg _ (s.resetLoops_idle _ _ hpulse hpost), fun hwas => congrArg _ (s.chanEnable_on _ _ hwas hpulse hpost),
      congrArg _ (s.chanEnable_off _ _ hpulse hpost)⟩

end Sys2Proof.Claims
end
